-- ==== Sys2Proof/Word.lean ====
section
/-! DEFINITION. The word types of the TL7128 model: bytes, register words, handles. -/

namespace Sys2Proof

/-- One byte of a descriptor, a record, a buffer or memory. -/
abbrev Byte := BitVec 8

/-- A 32-bit set-up register word (R778). -/
abbrev Word := BitVec 32

/-- A handle (R91): kind in [30:24], generation in [23:8], index in [7:0]. -/
abbrev Handle := BitVec 32

/-- A complex sample: real and imaginary component, exact integers. -/
abbrev Cx := Int × Int

end Sys2Proof
end

