-- ==== Sys2Proof/Machine/Bits.lean ====
section
/-! DEFINITION. Bit fields, byte order, saturation, square root and CRC-32C: the arithmetic the manual uses everywhere (R9–R11, R464). -/

namespace Sys2Proof.Machine

/-- Element i of a fixed array, or `dflt` beyond its end. -/
def nth {α : Type} {n : Nat} (v : Vector α n) (i : Nat) (dflt : α) : α := if h : i < n then v[i] else dflt

/-- The array with element i replaced by `f` of it; unchanged beyond its end. -/
def upd {α : Type} {n : Nat} (v : Vector α n) (i : Nat) (f : α → α) : Vector α n :=
  if h : i < n then v.set i (f v[i]) else v

/-- Bits [hi:lo] of a number. -/
def bits (v hi lo : Nat) : Nat := v / 2 ^ lo % 2 ^ (hi + 1 - lo)

def bit (v i : Nat) : Bool := v / 2 ^ i % 2 == 1

def b2n (b : Bool) : Nat := if b then 1 else 0

/-- Two's complement reading of the low `w` bits (R10). -/
def sx (w v : Nat) : Int := let u := v % 2 ^ w; if u < 2 ^ (w - 1) then (u : Int) else (u : Int) - 2 ^ w

/-- Two's complement form in `w` bits (R10). -/
def twos (w : Nat) (v : Int) : Nat := (v % (2 ^ w : Nat)).toNat

/-- Drop k low bits toward minus infinity (R11). -/
def asr (v : Int) (k : Nat) : Int := v / (2 ^ k : Nat)

/-- Saturate to b bits, two's complement (R217). -/
def sat (b : Nat) (v : Int) : Int := max (-(2 ^ (b - 1) : Nat)) (min ((2 ^ (b - 1) : Nat) - 1) v)

/-- Saturating count. -/
def satN (top v : Nat) : Nat := min top v

/-- n bytes, little-endian (R9). -/
def le : (n : Nat) → (v : Nat) → List Byte
  | 0, _ => []
  | n + 1, v => BitVec.ofNat 8 v :: le n (v / 256)

/-- Fields as (bytes, value), little-endian, back to back. -/
def pack : List (Nat × Nat) → List Byte
  | [] => []
  | (n, v) :: r => le n v ++ pack r

/-- The number a little-endian byte list holds. -/
def leNat : List Byte → Nat
  | [] => 0
  | b :: r => b.toNat + 256 * leNat r

/-- n bytes from offset o, zeros beyond the end. -/
def slice (o n : Nat) (l : List Byte) : List Byte := ((l.drop o).take n) ++ List.replicate (n - ((l.drop o).take n).length) 0

/-- Little-endian number of n bytes at offset o. -/
def num (l : List Byte) (o n : Nat) : Nat := leNat (slice o n l)

/-- Pad with zeros to a multiple of k bytes. -/
def padTo (k : Nat) (l : List Byte) : List Byte := l ++ List.replicate ((k - l.length % k) % k) 0

/-- 32-bit little-endian words of a byte list. -/
def words32 (l : List Byte) : List Nat := (List.range (l.length / 4)).map fun i => num l (4 * i) 4

def bitLen (v : Nat) : Nat := if v = 0 then 0 else Nat.log2 v + 1

def ceilDiv (a b : Nat) : Nat := (a + b - 1) / b

/-- One bit of the truncating integer square root per step. -/
def isqrtGo : (k : Nat) → (v r : Nat) → Nat
  | 0, _, r => r
  | k + 1, v, r => let c := r + 2 ^ k; isqrtGo k v (if c * c ≤ v then c else r)

/-- Truncating integer square root (R243). -/
def isqrt (v : Nat) : Nat := isqrtGo (bitLen v / 2 + 1) v 0

def sumN (l : List Nat) : Nat := l.foldl (· + ·) 0
def sumI (l : List Int) : Int := l.foldl (· + ·) 0

/-- One byte of the reflected CRC-32C, polynomial 0x1EDC_6F41 (R464). -/
def crcByte (c : BitVec 32) (b : Byte) : BitVec 32 :=
  (List.range 8).foldl (fun c _ => if c.getLsbD 0 then (c >>> 1) ^^^ 0x82F63B78#32 else c >>> 1) (c ^^^ b.setWidth 32)

/-- CRC-32C with the parameters of R464. -/
def crc32c (l : List Byte) : BitVec 32 := (l.foldl crcByte 0xFFFFFFFF#32) ^^^ 0xFFFFFFFF#32

/-- Units of the time base in one second, one nanosecond, one picosecond and 2^-32 s. -/
def unitS : Nat := 2 ^ 32 * 5 ^ 12
def unitNs : Nat := 1000 * 2 ^ 20
def unitPs : Nat := 2 ^ 20
def unitF : Nat := 5 ^ 12

/-- The 64-bit time of R74 of a time-base reading. -/
def timeR74 (tb : Nat) : BitVec 64 := BitVec.ofNat 64 (tb / unitS % 2 ^ 40 * 2 ^ 24 + tb % unitS * 2 ^ 24 / unitS)

/-- Set a bit of a set register. -/
def setBit {w : Nat} (v : BitVec w) (i : Nat) (b : Bool) : BitVec w :=
  if b then v ||| (1#w <<< i) else v &&& ~~~(1#w <<< i)

def replaceAt {α : Type} (l : List α) (i : Nat) (f : α → α) : List α := l.mapIdx fun j x => if j = i then f x else x

end Sys2Proof.Machine
end

