-- ==== Sys2Proof/Machine/Flags.lean ====
section
/-! DEFINITION. The flags of records (R462) and the cause mask (R463). -/

namespace Sys2Proof.Machine

abbrev Flags := BitVec 32

def fFill : Flags := 1#32 <<< 0
def fCoast : Flags := 1#32 <<< 1
def fSuspect : Flags := 1#32 <<< 2
def fCalOn : Flags := 1#32 <<< 3
def fTune : Flags := 1#32 <<< 4
def fDelayStep : Flags := 1#32 <<< 5
def fOverlap : Flags := 1#32 <<< 6
def fTruncated : Flags := 1#32 <<< 7
def fPoison : Flags := 1#32 <<< 8
def fClockLoss : Flags := 1#32 <<< 9
def fDup : Flags := 1#32 <<< 10
def fSaturated : Flags := 1#32 <<< 16
def fSk : Flags := 1#32 <<< 17
def fGap : Flags := 1#32 <<< 18
def fDebug : Flags := 1#32 <<< 19

/-- RATE_LEVEL in bits [15:12] (R457, R462). -/
def fLevel (n : Nat) : Flags := BitVec.ofNat 32 (n % 8 * 4096)

/-- A flag when a condition holds. -/
def fIf (b : Bool) (f : Flags) : Flags := if b then f else 0

def Flags.has (f g : Flags) : Bool := f &&& g != 0

/-- The flags of several items together. -/
def orAll (l : List Flags) : Flags := l.foldl (· ||| ·) 0

/-- Cause mask (R463): cause bits, FORCED, UNTRIGGERED, line. -/
def causeMask (bits16 : Nat) (forced untriggered : Bool) (line : Nat) : BitVec 32 :=
  BitVec.ofNat 32 (bits16 % 65536 + 65536 * b2n forced + 131072 * b2n untriggered + line % 64 * 2 ^ 24)

end Sys2Proof.Machine
end

