-- ==== Sys2Proof/Syntax.lean ====
section
/-! DEFINITION. The commands the block takes: the rows of spec/opcode_table.json, with what each one carries. -/

namespace Sys2Proof

/-- A command descriptor after its opcode (R63). `params` holds bytes 0x08–0x37, the byte at 0x08 lowest; `rsvd` holds bytes
0x38–0x3E; `last` is byte 0x3F with its phase bit. -/
structure Desc where
  ring   : Fin 16
  flags  : Byte
  tag    : BitVec 16
  handle : Handle
  params : BitVec 384
  rsvd   : BitVec 56
  last   : Byte
  deriving DecidableEq, Repr

/-- The opcodes of R103, and any other opcode byte. -/
inductive Op where
  | nop | devInfo | powerBudget | powerQuery | syncSchedule | timeSet | streamOpen | streamClose | streamStatus
  | regionAlloc | regionFree | memRetire | chanCreate | chanDestroy | chanTune | chanFilter | chanSpectral | chanProducts
  | chanStart | chanStop | chanResume | trigSet | trigCombine | trigMaskLoad | acqSet | acqArm | acqDisarm | acqForce
  | sweepSet | sweepRun | densSet | densSnapshot | calSet | calTableLoad | calFreeze | sinkBind | sinkUnbind
  | storeQueueAttach | dmaRestart | mpLoad | mpStart | mpStop | logRead | logClear | sealOpen | sealCheckpoint | sealClose
  | pairJoin | pairRole | pairStatus | aonRules | sleep
  | bad (code : Byte)
  deriving DecidableEq, Repr

/-- What a read of a codeword or SRAM word met (R540–R545). -/
inductive MemErr where
  | none | corrected | uncorrectable | poison
  deriving DecidableEq, Repr

/-- What met the memory accesses of one MP instruction (R512 causes 1 and 2). -/
inductive MpErr where
  | none | fetch | data (word : Nat)
  deriving DecidableEq, Repr

/-- The end of a device read of host memory (R65, R596). -/
inductive ReadResult where
  | ok (data : List Byte) | ur | ca | poisoned | timeout
  deriving DecidableEq, Repr

/-- Which device read a completion answers. -/
inductive HostTarget where
  | buffer (ring : Fin 16) | cmdFetch (ring : Fin 16) | dataFetch (ring : Fin 128)
  deriving DecidableEq, Repr

/-- What a lane finds at the end of a bring-up stage (R180–R185). -/
structure LaneInfo where
  inverted  : Bool
  logical   : Nat
  orderFits : Bool
  skewPs    : Nat
  deriving DecidableEq, Repr

/-- One multiblock period of a stream as the link layer delivers it: the slots of each instant as received (N' bits each, I before Q),
the physical lanes that failed CRC-12 or FEC, those that FEC corrected, the lanes with invalid sync headers, and
whether an ingest FIFO word was uncorrectable (R198–R200, R546). -/
structure Multiblock where
  slots     : List (List Nat)
  failed    : List (Fin 64)
  corrected : List (Fin 64)
  shErr     : List (Fin 64 × Nat)
  fifoErr   : Bool
  /-- End-of-extended-multiblock of the latest lane from the LEMC edge, ps, when the period ends one (R202). -/
  arrivalPs : Option Int := none
  deriving DecidableEq, Repr

/-- What a large transform's accesses to its working store met: the codewords, 8 samples each, whose read in either pass was uncorrectable
(R281), and the waits for a full port buffer (R529). -/
structure StoreRun where
  lost  : List Nat
  waits : Nat
  deriving DecidableEq, Repr

/-- What a sweep unit's reads of its history met: the cells (spectrum, row) that read as zero (R546), and the waits for a full port buffer (R529). -/
structure HistRun where
  lost  : List (Nat × Nat)
  waits : Nat
  deriving DecidableEq, Repr

/-- How a targeted scrub ended (R553). -/
inductive ScrubOutcome where
  | rewritten | overtaken | uncorrectable
  deriving DecidableEq, Repr

/-- Selector of the monitor's ring command (R742). -/
inductive RingSel where
  | cmd (n : Fin 16) | evt (n : Fin 16) | data (n : Fin 128)
  deriving DecidableEq, Repr

/-- Selector of the monitor's selftest command (R744). -/
inductive SelfTest where
  | rom | crypto | sram | all
  deriving DecidableEq, Repr

/-- State items a primary mirrors, and the link's other frames (R668, R675, R685). -/
inductive SeamFrame where
  /-- Ring n as in DB_STAT: 0–15 command, 16–31 event, 32–159 data. -/
  | doorbell (n : Fin 160) (count : Word)
  | evtReserved (ring : Fin 16) (count : Word)
  | evtWritten (ring : Fin 16) (count : Word)
  | bufReserved (sink : Fin 128) (count : Nat)
  | bufConfirmed (sink : Fin 128) (count : Nat)
  | issued (sink : Fin 128) (seq : Nat)
  | delivered (sink : Fin 128) (seq : Nat)
  | calTables (ref : Fin 128) (swap : Nat) (gen : Nat) (table : List Byte)
  | arrStep (unit : Fin 128) (item : Nat) (level : Nat)
  | timeOffset (ps : Int)
  | joinOffer (serial peer : BitVec 64) (role mode rate : Nat) (fw : Word) (lifecycle : Nat) (agrees : Bool)
  /-- The mirrored commands that rebuild a live object on a secondary that joins (R670). -/
  | copied (h : Handle)
  | dissolve
  | switchover
  | command (op : Op) (d : Desc) (data : List Byte) (h : Handle)
  | status (ring : Fin 16) (code : Byte)
  | heartbeat (wake : Bool)
  deriving DecidableEq, Repr

/-- A lifecycle request over SPDM (R692, R715). -/
structure LifeReq where
  port      : Fin 2
  serial    : BitVec 64
  challenge : BitVec 256
  key       : List Byte
  peer      : BitVec 64
  mask      : Byte
  expiry    : Nat
  sig       : List Byte
  deriving DecidableEq, Repr

/-- What start-up found (R694–R697, R733–R736). -/
structure BootInfo where
  slotB          : Bool
  storeDiscarded : Bool
  commit         : Bool
  secVersion     : Nat
  fwVersion      : Word
  hbmFailed      : BitVec 4
  bootMs         : BitVec 16
  deriving DecidableEq, Repr


/-- The commands and events of the block: one constructor for each row of the table of operations and events. -/
inductive Instr where
  /-- COMMAND_DOORBELL (R58). -/
  | commandDoorbell (port : Fin 2) (off : BitVec 20) (width : Nat) (value : Word) (slots : List (BitVec 512))
  /-- EVENT_DOORBELL (R59). -/
  | eventDoorbell (port : Fin 2) (off : BitVec 20) (width : Nat) (value : Word)
  /-- DATA_DOORBELL (R58). -/
  | dataDoorbell (port : Fin 2) (off : BitVec 20) (width : Nat) (value : Word) (slots : List (BitVec 256))
  /-- BAD_OPCODE (R67). -/
  | badOpcode (code : BitVec 8) (d : Desc)
  /-- NOP (R104). -/
  | nop (d : Desc)
  /-- DEV_INFO (R105). -/
  | devInfo (d : Desc)
  /-- POWER_BUDGET (R629). -/
  | powerBudget (d : Desc)
  /-- POWER_QUERY (R631). -/
  | powerQuery (d : Desc)
  /-- SYNC_SCHEDULE (R152). -/
  | syncSchedule (d : Desc)
  /-- TIME_SET (R162). -/
  | timeSet (d : Desc)
  /-- STREAM_OPEN (R194). -/
  | streamOpen (d : Desc)
  /-- STREAM_CLOSE (R196). -/
  | streamClose (d : Desc)
  /-- STREAM_STATUS (R197). -/
  | streamStatus (d : Desc)
  /-- REGION_ALLOC (R518). -/
  | regionAlloc (d : Desc)
  /-- REGION_FREE (R523). -/
  | regionFree (d : Desc)
  /-- MEM_RETIRE (R561). -/
  | memRetire (d : Desc)
  /-- CHAN_CREATE (R213). -/
  | chanCreate (d : Desc)
  /-- CHAN_DESTROY (R96). -/
  | chanDestroy (d : Desc)
  /-- CHAN_TUNE (R225). -/
  | chanTune (d : Desc)
  /-- CHAN_FILTER (R245). -/
  | chanFilter (d : Desc)
  /-- CHAN_SPECTRAL (R289). -/
  | chanSpectral (d : Desc)
  /-- CHAN_PRODUCTS (R318). -/
  | chanProducts (d : Desc)
  /-- CHAN_START (R249). -/
  | chanStart (d : Desc)
  /-- CHAN_STOP (R251). -/
  | chanStop (d : Desc)
  /-- CHAN_RESUME (R98). -/
  | chanResume (d : Desc)
  /-- TRIG_SET (R386). -/
  | trigSet (d : Desc)
  /-- TRIG_COMBINE (R403). -/
  | trigCombine (d : Desc)
  /-- TRIG_MASK_LOAD (R392). -/
  | trigMaskLoad (d : Desc)
  /-- ACQ_SET (R467). -/
  | acqSet (d : Desc)
  /-- ACQ_ARM (R468). -/
  | acqArm (d : Desc)
  /-- ACQ_DISARM (R469). -/
  | acqDisarm (d : Desc)
  /-- ACQ_FORCE (R470). -/
  | acqForce (d : Desc)
  /-- SWEEP_SET (R435). -/
  | sweepSet (d : Desc)
  /-- SWEEP_RUN (R436). -/
  | sweepRun (d : Desc)
  /-- DENS_SET (R326). -/
  | densSet (d : Desc)
  /-- DENS_SNAPSHOT (R328). -/
  | densSnapshot (d : Desc)
  /-- CAL_SET (R358). -/
  | calSet (d : Desc)
  /-- CAL_TABLE_LOAD (R362). -/
  | calTableLoad (d : Desc)
  /-- CAL_FREEZE (R360). -/
  | calFreeze (d : Desc)
  /-- SINK_BIND (R579). -/
  | sinkBind (d : Desc)
  /-- SINK_UNBIND (R599). -/
  | sinkUnbind (d : Desc)
  /-- STORE_QUEUE_ATTACH (R591). -/
  | storeQueueAttach (d : Desc)
  /-- DMA_RESTART (R598). -/
  | dmaRestart (d : Desc)
  /-- MP_LOAD (R504). -/
  | mpLoad (d : Desc)
  /-- MP_START (R508). -/
  | mpStart (d : Desc)
  /-- MP_STOP (R509). -/
  | mpStop (d : Desc)
  /-- LOG_READ (R562). -/
  | logRead (d : Desc)
  /-- LOG_CLEAR (R563). -/
  | logClear (d : Desc)
  /-- SEAL_OPEN (R710). -/
  | sealOpen (d : Desc)
  /-- SEAL_CHECKPOINT (R712). -/
  | sealCheckpoint (d : Desc)
  /-- SEAL_CLOSE (R713). -/
  | sealClose (d : Desc)
  /-- PAIR_JOIN (R670). -/
  | pairJoin (d : Desc)
  /-- PAIR_ROLE (R685). -/
  | pairRole (d : Desc)
  /-- PAIR_STATUS (R686). -/
  | pairStatus (d : Desc)
  /-- AON_RULES (R660). -/
  | aonRules (d : Desc)
  /-- SLEEP (R623). -/
  | sleep (d : Desc)
  /-- POWER_GRANT (R608). -/
  | powerGrant
  /-- POWER_QUEUE_TIMEOUT (R609). -/
  | powerQueueTimeout (cls : Fin 3) (pos : Nat)
  /-- GRANT_SPACING_EXPIRY (R610). -/
  | grantSpacingExpiry
  /-- CMD_RING_ENABLE (R782). -/
  | cmdRingEnable (n : Fin 16) (value : Word)
  /-- CMD_RING_DISABLE (R783). -/
  | cmdRingDisable (n : Fin 16) (value : Word)
  /-- EVT_RING_ENABLE (R782). -/
  | evtRingEnable (n : Fin 16) (value : Word)
  /-- EVT_RING_DISABLE (R784). -/
  | evtRingDisable (n : Fin 16) (value : Word)
  /-- DATA_RING_ENABLE (R782). -/
  | dataRingEnable (n : Fin 128) (value : Word)
  /-- DATA_RING_DISABLE (R783). -/
  | dataRingDisable (n : Fin 128) (value : Word)
  /-- PLL_S_ENABLE (R115). -/
  | pllSEnable (value : Word)
  /-- PLL_S_DISABLE (R116). -/
  | pllSDisable (value : Word)
  /-- CLKOUT_ENABLE (R122). -/
  | clkoutEnable (n : Fin 16) (value : Word)
  /-- CLKOUT_DISABLE (R122). -/
  | clkoutDisable (n : Fin 16) (value : Word)
  /-- PIN_FUNC_WRITE (R786). -/
  | pinFuncWrite (n : Fin 32) (value : Word)
  /-- TAP_DISCARD (R171). -/
  | tapDiscard (n : Fin 64) (value : Word)
  /-- EYE_SCAN_START (R175). -/
  | eyeScanStart (value : Word)
  /-- EYE_SCAN_DONE (R176). -/
  | eyeScanDone (counts : List (BitVec 16))
  /-- SYS_RESET_DIE (R722). -/
  | sysResetDie (value : Word)
  /-- FLASH_READ (R788). -/
  | flashRead (value : Word)
  /-- FLASH_PROGRAM (R788). -/
  | flashProgram (value : Word)
  /-- FLASH_ERASE (R788). -/
  | flashErase (value : Word)
  /-- FLASH_SELECT (R732). -/
  | flashSelect (value : Word)
  /-- FLASH_OPERATION_DONE (R788). -/
  | flashOperationDone (failed : Bool)
  /-- AVS_FAULT_CLEAR (R616). -/
  | avsFaultClear (value : Word)
  /-- RTC_SEC_READ (R787). -/
  | rtcSecRead (port : Fin 2)
  /-- RC_FIELD_READ (R778). -/
  | rcFieldRead (port : Fin 2) (off : BitVec 24) (width : Nat)
  /-- MON_CONFIG_WRITE (R642). -/
  | monConfigWrite (off : BitVec 24) (value : Word)
  /-- REGISTER_WRITE (R805). -/
  | registerWrite (port : Fin 2) (off : BitVec 24) (width : Nat) (value : BitVec 64)
  /-- REFIN_ABSENT (R108). -/
  | refinAbsent (cause : Fin 2)
  /-- REFIN_PRESENT (R109). -/
  | refinPresent
  /-- PHASE_OFFSET_MEASURED (R134). -/
  | phaseOffsetMeasured (ps : Int)
  /-- SLEW_END (R137). -/
  | slewEnd
  /-- COAST_WINDOW_EXPIRY (R132). -/
  | coastWindowExpiry
  /-- COAST_DRIFT_EXCEEDED (R132). -/
  | coastDriftExceeded (ppb : Int)
  /-- PLL_S_PHASE_ERROR (R132). -/
  | pllSPhaseError
  /-- CRYSTAL_STOPPED (R132). -/
  | crystalStopped
  /-- PLL_S_LOCK (R117). -/
  | pllSLock
  /-- PPS_EDGE (R110). -/
  | ppsEdge (offsetNs : Int)
  /-- PPS_EDGE_MISSING (R111). -/
  | ppsEdgeMissing
  /-- SYNC_EPOCH (R157). -/
  | syncEpoch (ring : Fin 16)
  /-- TIME_SET_LOAD (R163). -/
  | timeSetLoad (ring : Fin 16)
  /-- TIME_SET_TIMEOUT (R164). -/
  | timeSetTimeout (ring : Fin 16)
  /-- FABRIC_PLL_SWITCH (R143). -/
  | fabricPllSwitch (pauseNs : Nat)
  /-- FABRIC_PLL_RELOCK (R145). -/
  | fabricPllRelock
  /-- SAFE_STATE_EXIT (R146). -/
  | safeStateExit
  /-- LANE_STAGE_COMPLETE (R180). -/
  | laneStageComplete (lane : Fin 64) (info : LaneInfo)
  /-- LANE_STAGE_TIMEOUT (R181). -/
  | laneStageTimeout (lane : Fin 64)
  /-- RELEASE_POINT (R187). -/
  | releasePoint (stream : Fin 32) (latest : Fin 64) (arrivalNs : Int) (sub : Fin 1000)
  /-- LANE_LOCK_LOSS (R201). -/
  | laneLockLoss (lane : Fin 64) (cause : Fin 4)
  /-- MULTIBLOCK_RECEIVED (R200). -/
  | multiblockReceived (stream : Fin 32) (mb : Multiblock)
  /-- CHANNEL_OUTPUT (R215). -/
  | channelOutput (ch : Fin 128) (err : Bool)
  /-- RETUNE_APPLY (R222). -/
  | retuneApply (ch : Fin 128)
  /-- DETECTOR_WINDOW_END (R243). -/
  | detectorWindowEnd (ch : Fin 128)
  /-- CHANNEL_DRAIN_DONE (R96). -/
  | channelDrainDone (ch : Fin 128)
  /-- SPECTRUM_COMPLETE (R283). -/
  | spectrumComplete (ch : Fin 128) (err : Bool)
  /-- LARGE_TRANSFORM_COMPLETE (R284). -/
  | largeTransformComplete (ch : Fin 128) (run : StoreRun)
  /-- SWAP_BOUNDARY (R240). -/
  | swapBoundary (ch : Fin 128)
  /-- INTERVAL_BOUNDARY (R304). -/
  | intervalBoundary (ch : Fin 128) (lost : List (Nat × Nat))
  /-- PAIR_PARTNER_TIMEOUT (R310). -/
  | pairPartnerTimeout (ch : Fin 128)
  /-- SK_BLOCK_END (R313). -/
  | skBlockEnd (ch : Fin 128) (lost : List Nat)
  /-- DENSITY_FRAME_BOUNDARY (R323). -/
  | densityFrameBoundary (plane : Fin 8) (lost : List Nat)
  /-- CAL_ON_START (R332). -/
  | calOnStart (drive : Fin 4)
  /-- CAL_ON_END (R332). -/
  | calOnEnd (drive : Fin 4)
  /-- CAL_PERIOD_END (R339). -/
  | calPeriodEnd (drive : Fin 4)
  /-- CAL_DERIVATION_DONE (R350). -/
  | calDerivationDone (drive : Fin 4)
  /-- CAL_SWAP (R350). -/
  | calSwap (drive : Fin 4)
  /-- TRIG_IO_EDGE (R378). -/
  | trigIoEdge (pin : Fin 16) (level : Bool)
  /-- TRIGGER_DECISION (R396). -/
  | triggerDecision (g : Fin 64)
  /-- TRIG_IO_TIMED_DRIVE (R380). -/
  | trigIoTimedDrive (pin : Fin 16)
  /-- TRIG_IO_PULSE_END (R381). -/
  | trigIoPulseEnd (pin : Fin 16)
  /-- SWEEP_BLOCK_DECIDED (R426). -/
  | sweepBlockDecided (u : Fin 2) (run : HistRun)
  /-- SWEEP_FLUSH_PERIOD (R430). -/
  | sweepFlushPeriod (u : Fin 2)
  /-- HOLDOFF_END (R449). -/
  | holdoffEnd (u : Fin 128)
  /-- CAPTURE_COMPLETE (R445). -/
  | captureComplete (u : Fin 128) (lost : List Nat) (zeroed : List (Nat × Nat))
  /-- CHUNK_CLOSE (R441). -/
  | chunkClose (u : Fin 128) (lost : List Nat) (zeroed : List (Nat × Nat))
  /-- ARR_STEP_UP (R456). -/
  | arrStepUp (u : Fin 128)
  /-- ARR_STEP_DOWN (R456). -/
  | arrStepDown (u : Fin 128)
  /-- MP_INSTRUCTION (R478). -/
  | mpInstruction (c : Fin 16) (err : MpErr)
  /-- MP_INPUT_DELIVERY (R495). -/
  | mpInputDelivery (c : Fin 16)
  /-- MP_MAILBOX_WAKE (R490). -/
  | mpMailboxWake (c : Fin 16)
  /-- MP_OUTPUT_RECORD_WRITE (R500). -/
  | mpOutputRecordWrite (c : Fin 16)
  /-- MP_WATCHDOG_EXPIRY (R512). -/
  | mpWatchdogExpiry (c : Fin 16)
  /-- BAR4_READ (R524). -/
  | bar4Read (port : Fin 2) (addr : Nat) (len : Nat) (errs : List (Nat × MemErr))
  /-- BAR4_WRITE (R524). -/
  | bar4Write (port : Fin 2) (addr : Nat) (data : List Byte)
  /-- REGION_ZEROING_DONE (R520). -/
  | regionZeroingDone (ring : Fin 16)
  /-- STACK_WAKE_DONE (R537). -/
  | stackWakeDone (s4 : Fin 4)
  /-- REFRESH_DUE (R532). -/
  | refreshDue (pc : Fin 128)
  /-- QOS_PANIC_ENTRY (R528). -/
  | qosPanicEntry (p : Fin 12) (s4 : Fin 4)
  /-- QOS_PANIC_EXIT (R528). -/
  | qosPanicExit (p : Fin 12) (s4 : Fin 4)
  /-- RETRAIN_DUE (R534). -/
  | retrainDue (pc : Fin 128)
  /-- PARTIAL_WRITE (R556). -/
  | partialWrite (loc : BitVec 64) (off : Nat) (data : List Byte) (old : MemErr)
  /-- DARNER_SCRUB (R553). -/
  | darnerScrub (loc : BitVec 64) (outcome : ScrubOutcome)
  /-- DARNER_PATROL_BURST (R555). -/
  | darnerPatrolBurst (errs : List (BitVec 64 × MemErr))
  /-- SRAM_PATROL (R555). -/
  | sramPatrol (errs : List (BitVec 64 × MemErr))
  /-- PERSISTENT_STORE_SAVE (R551). -/
  | persistentStoreSave (ok : Bool)
  /-- MGMT_CORE_RELOAD (R546). -/
  | mgmtCoreReload
  /-- SINK_PACING_START (R577). -/
  | sinkPacingStart (k : Fin 128)
  /-- BUFFER_CLOSE_TIME (R581). -/
  | bufferCloseTime (k : Fin 128)
  /-- CONFIRM_READ_DONE (R582). -/
  | confirmReadDone (k : Fin 128) (r : ReadResult)
  /-- NVME_COMPLETION (R590). -/
  | nvmeCompletion (q : Fin 32) (r : Nat) (ok : Bool)
  /-- NVME_COMMAND_TIMEOUT (R593). -/
  | nvmeCommandTimeout (q : Fin 32) (r : Nat)
  /-- CORNER_TURN_BLOCK_EMIT (R588). -/
  | cornerTurnBlockEmit (k : Fin 128)
  /-- CORNER_TURN_WAIT_EXPIRY (R588). -/
  | cornerTurnWaitExpiry (k : Fin 128)
  /-- PCIE_LINK_DOWN (R799). -/
  | pcieLinkDown (port : Fin 2)
  /-- PCIE_LINK_UP (R799). -/
  | pcieLinkUp (port : Fin 2) (speed : Fin 8) (width : Fin 64)
  /-- PORT_RESET (R723). -/
  | portReset (port : Fin 2)
  /-- L1_ENTRY_REQUEST (R569). -/
  | l1EntryRequest (port : Fin 2)
  /-- INTERRUPT_TIMER_EXPIRY (R84). -/
  | interruptTimerExpiry (n : Fin 16)
  /-- THERMAL_SENSOR_READ (R617). -/
  | thermalSensorRead (temps : Vector Int 8)
  /-- CRITICAL_ARR_STEP (R619). -/
  | criticalArrStep
  /-- SHED_TIMER (R620). -/
  | shedTimer
  /-- AVS_STEP (R615). -/
  | avsStep (ok : Bool)
  /-- PCIE_L2_ENTRY (R622). -/
  | pcieL2Entry (port : Fin 2)
  /-- L2_TIMEOUT (R625). -/
  | l2Timeout
  /-- WAKE_IN (R627). -/
  | wakeIn
  /-- SCHEDULED_WAKE (R627). -/
  | scheduledWake
  /-- PERST_N_DEASSERT (R622). -/
  | perstNDeassert (port : Fin 2)
  /-- MON_CONVERSION_DONE (R638). -/
  | monConversionDone (code : BitVec 16)
  /-- MON_COMPARATOR_TRIP (R646). -/
  | monComparatorTrip (k : Fin 8)
  /-- THIMBLE_LOG_FLUSH (R657). -/
  | thimbleLogFlush
  /-- RC_OSCILLATOR_CALIBRATION (R641). -/
  | rcOscillatorCalibration
  /-- WATCHDOG_STAGE_1 (R663). -/
  | watchdogStage1
  /-- WATCHDOG_STAGE_2 (R663). -/
  | watchdogStage2
  /-- VDD_AON_LOW (R752). -/
  | vddAonLow
  /-- MON_RX_CHARACTER (R664). -/
  | monRxCharacter (c : Byte)
  /-- MON_HELP (R742). -/
  | monHelp (topic : String)
  /-- MON_ID (R742). -/
  | monId
  /-- MON_RD (R742). -/
  | monRd (off : BitVec 24) (count : Nat)
  /-- MON_WR (R743). -/
  | monWr (off : BitVec 24) (value : Word)
  /-- MON_RING (R742). -/
  | monRing (sel : Option RingSel)
  /-- MON_CHAN (R742). -/
  | monChan (h : Option Handle)
  /-- MON_EV (R742). -/
  | monEv (n : Fin 16)
  /-- MON_LOG (R742). -/
  | monLog (thim : Bool) (sticky : Bool)
  /-- MON_LANES (R742). -/
  | monLanes (lane : Option (Fin 64))
  /-- MON_CLK (R742). -/
  | monClk
  /-- MON_PAU (R742). -/
  | monPau
  /-- MON_THIM (R742). -/
  | monThim (input : Option (Fin 144))
  /-- MON_SEAL (R742). -/
  | monSeal
  /-- MON_SLEEP (R743). -/
  | monSleep (target : Nat) (mask : Byte) (second : Nat)
  /-- MON_WAKE (R742). -/
  | monWake
  /-- MON_SELFTEST (R744). -/
  | monSelftest (which : SelfTest) (failures : List (SelfTest × String))
  /-- MON_AUTH_CHALLENGE (R746). -/
  | monAuthChallenge
  /-- MON_AUTH_TOKEN (R747). -/
  | monAuthToken (token : List Byte)
  /-- MON_AUTH_LOCK (R747). -/
  | monAuthLock
  /-- DEBUG_GRANT_EXPIRY (R715). -/
  | debugGrantExpiry
  /-- HEARTBEAT_RECEIVED (R678). -/
  | heartbeatReceived (wake : Bool)
  /-- HEARTBEAT_MISSED (R678). -/
  | heartbeatMissed
  /-- ARB_WAIT_EXPIRY (R680). -/
  | arbWaitExpiry
  /-- PAIR_ARB_ASSERT (R680). -/
  | pairArbAssert
  /-- SEAM_FRAME_RECEIVED (R668). -/
  | seamFrameReceived (authentic : Bool) (f : SeamFrame)
  /-- SEAM_RETRANSMIT (R668). -/
  | seamRetransmit
  /-- MIRRORED_COMMAND (R672). -/
  | mirroredCommand (op : Op) (d : Desc) (data : List Byte) (h : Handle)
  /-- MIRROR_STATUS_RECEIVED (R673). -/
  | mirrorStatusReceived (ring : Fin 16) (status : Byte)
  /-- SEAL_CHECKPOINT_TIMER (R705). -/
  | sealCheckpointTimer (k : Fin 16)
  /-- CHECKPOINT_WRITE (R705). -/
  | checkpointWrite (k : Fin 16)
  /-- GET_VERSION (R698). -/
  | getVersion (port : Fin 2)
  /-- GET_CAPABILITIES (R698). -/
  | getCapabilities (port : Fin 2)
  /-- NEGOTIATE_ALGORITHMS (R698). -/
  | negotiateAlgorithms (port : Fin 2)
  /-- GET_DIGESTS (R698). -/
  | getDigests (port : Fin 2)
  /-- GET_CERTIFICATE (R698). -/
  | getCertificate (port : Fin 2) (off : Nat) (len : Nat)
  /-- CHALLENGE (R698). -/
  | challenge (port : Fin 2) (nonce : BitVec 256)
  /-- GET_MEASUREMENTS (R698). -/
  | getMeasurements (port : Fin 2) (index : Byte)
  /-- CLAIM (R692). -/
  | claim (r : LifeReq)
  /-- RELEASE (R692). -/
  | release (r : LifeReq)
  /-- ENROL_PAIR (R692). -/
  | enrolPair (r : LifeReq)
  /-- DECOMMISSION (R692). -/
  | decommission (r : LifeReq)
  /-- DEBUG_TOKEN (R715). -/
  | debugToken (r : LifeReq)
  /-- POR_N_ASSERT (R722). -/
  | porNAssert
  /-- POR_N_RELEASE (R733). -/
  | porNRelease
  /-- XT32_CRYSTAL_START (R721). -/
  | xt32CrystalStart
  /-- BOOT_READY (R733). -/
  | bootReady (b : BootInfo)
  /-- BOOT_START_TIMEOUT (R731). -/
  | bootStartTimeout
  /-- DMA_BEAT (R575). -/
  | dmaBeat (k : Fin 128) (err : MemErr)
  /-- HOST_READ_COMPLETION (R65). -/
  | hostReadCompletion (target : HostTarget) (r : ReadResult)
  /-- LANE_COLD_RESTART (R207). -/
  | laneColdRestart (lane : Fin 64)
  /-- STANDBY_PLL_LOCK_LOSS (R143). -/
  | standbyPllLockLoss
  /-- MON_COMPARATOR_REARM (R646). -/
  | monComparatorRearm (k : Fin 8)
  /-- HBM_STACK_TEMPERATURE (R532). -/
  | hbmStackTemperature (s4 : Fin 4) (celsius : Int)
  /-- MP_STOP_DRAIN_TIMEOUT (R509). -/
  | mpStopDrainTimeout (ring : Fin 16)
  /-- SINK_UNBIND_DRAIN_TIMEOUT (R599). -/
  | sinkUnbindDrainTimeout (ring : Fin 16)
  /-- PAIR_JOIN_TIMEOUT (R670). -/
  | pairJoinTimeout (ring : Fin 16)
  /-- SEAM_TRAINING_DONE (R667). -/
  | seamTrainingDone (ok : Fin 9)
  /-- SWITCHOVER_TIMEOUT (R685). -/
  | switchoverTimeout (ring : Fin 16)
  /-- HEARTBEAT_SEND (R678). -/
  | heartbeatSend
  /-- LIFETIME_COUNTER_UPDATE (R665). -/
  | lifetimeCounterUpdate
  /-- POWER_STATE_ENTRY_DONE (R622). -/
  | powerStateEntryDone
  /-- PWR_EN_FALL (R751). -/
  | pwrEnFall
  deriving DecidableEq, Repr

end Sys2Proof
end

