-- ==== Sys2Proof/Decode.lean ====
section
/-! DEFINITION. Decoding: the table gives no row any bits, so no word spells a command (`decodeTableWord`); a 64-byte command
descriptor in host memory decodes to an opcode and its fields by R63 and R103 (`decodeDesc`, `encodeDesc`). -/

namespace Sys2Proof

/-- The command a word spells by the table's bits: every row's `fields` is empty, so none. -/
def decodeTableWord (_nbits _w : Nat) : Option Instr := none

/-- Opcode byte of R103. -/
def Op.code : Op → Byte
  | .nop => 0x00 | .devInfo => 0x01 | .powerBudget => 0x02 | .powerQuery => 0x03
  | .syncSchedule => 0x08 | .timeSet => 0x09
  | .streamOpen => 0x10 | .streamClose => 0x11 | .streamStatus => 0x12
  | .regionAlloc => 0x18 | .regionFree => 0x19 | .memRetire => 0x1A
  | .chanCreate => 0x20 | .chanDestroy => 0x21 | .chanTune => 0x22 | .chanFilter => 0x23
  | .chanSpectral => 0x24 | .chanProducts => 0x25
  | .chanStart => 0x26 | .chanStop => 0x27 | .chanResume => 0x28
  | .trigSet => 0x30 | .trigCombine => 0x31 | .trigMaskLoad => 0x32
  | .acqSet => 0x33 | .acqArm => 0x34 | .acqDisarm => 0x35 | .acqForce => 0x36
  | .sweepSet => 0x38 | .sweepRun => 0x39
  | .densSet => 0x40 | .densSnapshot => 0x41
  | .calSet => 0x48 | .calTableLoad => 0x49 | .calFreeze => 0x4A
  | .sinkBind => 0x50 | .sinkUnbind => 0x51 | .storeQueueAttach => 0x52 | .dmaRestart => 0x53
  | .mpLoad => 0x58 | .mpStart => 0x59 | .mpStop => 0x5A
  | .logRead => 0x60 | .logClear => 0x61
  | .sealOpen => 0x68 | .sealCheckpoint => 0x69 | .sealClose => 0x6A
  | .pairJoin => 0x70 | .pairRole => 0x71 | .pairStatus => 0x72
  | .aonRules => 0x78 | .sleep => 0x79
  | .bad c => c

/-- The opcode table (R103), every command once. -/
def opTable : List Op :=
  [.nop, .devInfo, .powerBudget, .powerQuery, .syncSchedule, .timeSet, .streamOpen, .streamClose, .streamStatus,
   .regionAlloc, .regionFree, .memRetire, .chanCreate, .chanDestroy, .chanTune, .chanFilter, .chanSpectral,
   .chanProducts, .chanStart, .chanStop, .chanResume, .trigSet, .trigCombine, .trigMaskLoad, .acqSet, .acqArm,
   .acqDisarm, .acqForce, .sweepSet, .sweepRun, .densSet, .densSnapshot, .calSet, .calTableLoad, .calFreeze,
   .sinkBind, .sinkUnbind, .storeQueueAttach, .dmaRestart, .mpLoad, .mpStart, .mpStop, .logRead, .logClear,
   .sealOpen, .sealCheckpoint, .sealClose, .pairJoin, .pairRole, .pairStatus, .aonRules, .sleep]

/-- The command of an opcode byte; any other byte is BAD_OPCODE's (R67). -/
def Op.ofCode (c : Byte) : Op := (opTable.find? fun o => o.code == c).getD (.bad c)

/-- The descriptor's fields in a 64-byte slot, byte 0 lowest (R63). -/
def decodeDesc (ring : Fin 16) (w : BitVec 512) : Op × Desc :=
  (Op.ofCode (w.extractLsb' 0 8),
   { ring := ring, flags := w.extractLsb' 8 8, tag := w.extractLsb' 16 16, handle := w.extractLsb' 32 32
     params := w.extractLsb' 64 384, rsvd := w.extractLsb' 448 56, last := w.extractLsb' 504 8 })

/-- The slot that spells a command (R63). -/
def encodeDesc (op : Op) (d : Desc) : BitVec 512 :=
  d.last ++ d.rsvd ++ d.params ++ d.handle ++ d.tag ++ d.flags ++ op.code

/-- What the opcode table asks of the handle field (R64, R103). -/
inductive HandleRule where
  | zero | alloc | kind (k : Nat) | allocOr (k : Nat)
  deriving DecidableEq, Repr

def Op.handleRule : Op → HandleRule
  | .streamOpen => .allocOr 1 | .streamClose => .kind 1 | .streamStatus => .kind 1 | .chanCreate => .kind 1
  | .regionAlloc => .alloc | .regionFree => .kind 3 | .sealOpen => .alloc
  | .chanDestroy => .kind 2 | .chanTune => .kind 2 | .chanFilter => .kind 2 | .chanSpectral => .kind 2
  | .chanProducts => .kind 2 | .chanStart => .kind 2 | .chanStop => .kind 2 | .chanResume => .kind 2
  | .trigSet => .kind 2 | .trigCombine => .allocOr 5 | .trigMaskLoad => .kind 2
  | .acqSet => .kind 3 | .acqArm => .kind 3 | .acqDisarm => .kind 3 | .acqForce => .kind 3
  | .sweepSet => .allocOr 6 | .sweepRun => .kind 6 | .densSet => .kind 2 | .densSnapshot => .kind 2
  | .calSet => .kind 2 | .calTableLoad => .kind 2 | .calFreeze => .kind 2
  | .sinkBind => .allocOr 4 | .sinkUnbind => .kind 4 | .storeQueueAttach => .allocOr 4 | .dmaRestart => .kind 4
  | .mpLoad => .allocOr 7 | .mpStart => .kind 7 | .mpStop => .kind 7
  | .sealCheckpoint => .kind 8 | .sealClose => .kind 8
  | .nop | .devInfo | .powerBudget | .powerQuery | .syncSchedule | .timeSet | .memRetire | .logRead | .logClear
  | .pairJoin | .pairRole | .pairStatus | .aonRules | .sleep | .bad _ => .zero

/-! ### Descriptor fields -/

/-- n bytes of the parameter area at descriptor offset o (0x08–0x37), as a number. -/
def Desc.u (d : Desc) (o n : Nat) : Nat := d.params.toNat / 2 ^ (8 * (o - 8)) % 2 ^ (8 * n)

def Desc.flag (d : Desc) (i : Nat) : Bool := d.flags.getLsbD i

def Desc.waitForPower (d : Desc) : Bool := d.flag 0
def Desc.eventOnDone (d : Desc) : Bool := d.flag 1
def Desc.fence (d : Desc) : Bool := d.flag 2

/-- Parameter bytes outside the ranges (offset, length) are zero, and so are the reserved bytes and bits of R63 (R16). -/
def Desc.clean (d : Desc) (named : List (Nat × Nat)) : Bool :=
  d.flags.toNat / 8 == 0 && d.rsvd == 0 && d.last.toNat % 128 == 0 &&
  (List.range 48).all fun i =>
    d.u (8 + i) 1 == 0 || named.any fun (o, n) => o ≤ 8 + i && 8 + i < o + n

/-- Commands whose completion makes no journal entry (R699). -/
def Op.unjournalled : Op → Bool
  | .nop | .devInfo | .powerQuery | .streamStatus | .logRead | .logClear | .pairStatus => true
  | _ => false

end Sys2Proof
end

