-- ==== Sys2Proof/Config.lean ====
section
/-! DEFINITION. What the manual leaves to annexes, to fuses, to cryptography or open: constants without a body. Nothing in
Lean can evaluate them, so every statement holds whatever they are. -/

namespace Sys2Proof.Config

/-- The free values: an open value of the manual is this constant applied to the counter `State.free` (log entry 2). -/
opaque freeValue : Nat → BitVec 64

/-! ### The Filter and window ROM listing (R230, R263, R268, R272), an annex the manual does not print -/

/-- Coefficient i of a decimation response of the filter ROM, Q1.17 (R230). -/
opaque filterTap : (id : Nat) → (i : Nat) → Int
/-- Coefficient i of phase p of a fractional-delay response (R230, R239). -/
opaque fdlTap : (id : Nat) → (phase : Nat) → (i : Nat) → Int
/-- Stored coefficient i of a ROM window (R264). -/
opaque windowTap : (id : Nat) → (i : Nat) → Int
/-- Stored coefficient i of a PFB prototype (R269). -/
opaque pfbTap : (id : Nat) → (i : Nat) → Int
/-- Twiddle e^(-j2πn/N), Q1.17 (R272, R278). -/
opaque twiddle : (N : Nat) → (n : Nat) → Int × Int
/-- Whether the NCO table rounds cos and sin of a 20-bit phase up, where they are no whole numbers (R217): the manual states no rounding. -/
opaque ncoRound : (phase20 : Nat) → Bool × Bool

/-! ### Cryptography (R689): the algorithms are named, not restated -/

opaque sha384 : List Byte → BitVec 384
/-- A hybrid signature (R690) by the key with this digest verifies. -/
opaque verifies : (keyDigest : BitVec 384) → (msg sig : List Byte) → Bool
/-- A hybrid signature by the device's alias keys (R697, R706). -/
opaque aliasSign : List Byte → List Byte
/-- The certificates of the alias keys (R706) and the certificate chain of R698. -/
opaque aliasCerts : List Byte
/-- AES-256-GCM: tag and ciphertext (R703). -/
opaque gcmTag : (key nonce ad plain : List Byte) → List Byte
opaque gcmCipher : (key nonce plain : List Byte) → List Byte
/-- The session key of R701 from an ephemeral seed, the recipient block, the serial and the salt. -/
opaque sealKey : (seed : Nat) → (recipient : List Byte) → (serial : BitVec 64) → (salt : BitVec 32) → List Byte
/-- The ephemeral P-384 point and the ML-KEM-1024 ciphertext of an open checkpoint (R706). -/
opaque sealEphemeral : (seed : Nat) → (recipient : List Byte) → List Byte
/-- The random source of R689, by the number of draws before. -/
opaque random : Nat → BitVec 256
/-- Digests of the boot ROM, of the running firmware image, and of the firmware measurement of journal entry 0 (R698, R700). -/
opaque romDigest : BitVec 384
opaque imageDigest : BitVec 384
/-- A firmware image in the boot flash verifies against the Curuard firmware key (R694). -/
opaque imageVerifies : (slotB : Bool) → (image : List (Nat × Byte)) → Bool

/-! ### Fused and board values the manual does not state -/

/-- The part's fused voltage plus temperature correction, mV (R615). -/
opaque avsTarget : (hottest : Int) → Nat
/-- VDD_CORE power from the regulator's READ_IOUT, mW (R631). -/
opaque corePower : Nat → Nat
/-- Ring-oscillator ratio reading, 0.01 ppm (R665), by hours. -/
opaque ringRatio : Nat → Int

/-- Bus address of a port's BAR4, which the host assigns (R567, R592). -/
opaque bar4Base : (port : Nat) → Nat

/-! ### Values the manual defines with no stated precision -/

/-- The fit of R345, δ and φ_0, over bins that determine none (fewer than two of them with weight). -/
opaque phaseFitOpen : (bins : List (Nat × Int × Int)) → Int × Int
/-- Gain advanced by a phase in 2^-16 turn (R345). -/
opaque gainRotated : (g : Int × Int) → (turn16 : Int) → Int × Int
/-- Parabolic offset of a comb line, 1/16 bin (R346). -/
opaque parabolic : (l c r : Int) → Int
/-- Phase of a cross excess re + j·im in 2^-16 turn (R345, R355): an arc tangent of no stated precision. -/
opaque crossPhase : (re im : Int) → Int
/-- Δ/σ in Q8.8 (R355) where the quotient is none that the field holds: no excess, no deviation, 256 or more. -/
opaque sigmaOpen : (delta num den : Int) → Nat
/-- A measure of R458 (by its mask bit) whose value passes what its 32-bit field holds. -/
opaque measureOver : (bit v : Nat) → BitVec 32
/-- Bytes of the Seam key exchange (R668, R708). -/
opaque seamKey : (peer : BitVec 64) → List Byte

end Sys2Proof.Config
end

