-- ==== Sys2Proof/Parts/Io.lean ====
section
/-! DEFINITION. State of the rings, doorbells, event records, host ports and what leaves the device (manual chapters Rings,
doorbells and handles; Set-up registers; DMA, host ports and sinks). -/

namespace Sys2Proof.Machine

/-- An event record before it has a place in a ring (R74): code, severity level, class, handle, time, data bytes 0x10–0x1B. -/
structure EvtRecord where
  code   : BitVec 16
  sev    : BitVec 3
  lost   : Bool
  cls    : BitVec 8
  handle : Handle
  time   : BitVec 64
  data   : BitVec 96
  deriving DecidableEq, Repr

/-- What the device puts on its buses, pins and serial port (the model's own record of its outputs, log entry 4). -/
inductive Emission where
  /-- A posted write to host memory or to a drive through a port. -/
  | hostWrite (port : Fin 2) (addr : Nat) (bytes : List Byte) (relaxed : Bool)
  /-- A read request to host memory. -/
  | hostRead (port : Fin 2) (addr : Nat) (len : Nat)
  | msix (port : Fin 2) (vector : Nat) (addr : BitVec 64) (data : Word)
  /-- Data of a register read. -/
  | mmio (port : Fin 2) (value : Word)
  /-- Completion of a BAR4 read, with its poisoned-data bit. -/
  | bar4 (port : Fin 2) (bytes : List Byte) (ep : Bool)
  | uart (text : String)
  | pin (n : Nat) (level : Bool)
  | sysref (output : Nat) (pulses : Nat)
  | clkout (output : Nat) (running : Bool)
  | pmbus (addr : Nat) (millivolt : Nat)
  | flash (op : Nat) (addr : Nat)
  | seam (f : SeamFrame)
  | spdm (port : Fin 2) (bytes : List Byte)
  | l1Request (port : Fin 2)
  | wake (asserted : Bool)
  deriving DecidableEq, Repr

/-- Where an accepted command stands before its final completion. -/
inductive Stage where
  /-- A host buffer is being read (R65). -/
  | hostRead
  /-- A request waits in the PAU queues or for grant spacing (R606, R610). -/
  | power
  /-- A result block waits for the port's link (R799). -/
  | linkDown
  /-- SYNC_SCHEDULE waits for its epoch (R159). -/
  | epoch
  /-- TIME_SET waits for a PPS edge (R163). -/
  | pps
  /-- REGION_ALLOC waits for stack wakes and zeroing (R520, R802). -/
  | zeroing
  /-- The secondary's status is awaited (R672). -/
  | mirror
  /-- CHAN_STOP of a RUNNING channel waits for STOPPED (R99). -/
  | drain
  /-- MP_STOP or SINK_UNBIND with DRAIN (R509, R599), flushes of a storage sink (R594). -/
  | unitDrain
  /-- PAIR_JOIN waits for its peer or for training (R670). -/
  | join
  /-- A switchover waits for watermarks (R685). -/
  | switchover
  /-- A checkpoint is being written (R705). -/
  | checkpoint
  /-- TRIG_SET with FIRE, ACQ_FORCE, ACQ_DISARM, DENS_SNAPSHOT, SWEEP_RUN, CAL_FREEZE, CAL_TABLE_LOAD, TRIG_MASK_LOAD or CHAN_TUNE waits for its point. -/
  | point
  deriving DecidableEq, Repr

/-- An accepted command whose final completion is due (R70): at most one per command ring. -/
structure Inflight where
  op      : Op
  d       : Desc
  stage   : Stage
  /-- Handle of the completion: the command's, or the one claimed at acceptance (R64). -/
  handle  : Handle
  /-- An interim POWER_QUEUED has been written (R73). -/
  interim : Bool
  /-- Entries of the event ring's holding queue still reserved for it (R80): 0–2; 0 for a mirrored command on a secondary (R672). -/
  owed    : Nat
  /-- Acceptance time, ns. -/
  since   : Nat
  /-- Host data read so far (R65). -/
  buffer  : List Byte
  /-- Address and length of the host buffer that it reads (R65). -/
  asks    : Nat × Nat
  /-- Order of acceptance, for FENCE (R69). -/
  order   : Nat
  /-- The ring's event ring, port and write-back address as they stood at acceptance (R48, R62, R80). -/
  evt     : Fin 16
  port    : Fin 2
  wb      : BitVec 64
  /-- The consumer count's write-back is still due: no port reset has come since acceptance (R55, R723). -/
  back    : Bool
  deriving DecidableEq, Repr

/-- Command ring set and counts (R46–R55, Set-up registers). `size` is log2 of the entries; `asked` is the count up to which slots have been
asked for, `reads` holds the slot reads that are not answered yet, each as its first count and its slots (R53, R61). -/
structure CmdRing where
  base     : BitVec 64
  wb       : BitVec 64
  en       : Bool
  err      : Bool
  port     : Fin 2
  size     : Nat
  evt      : Fin 16
  prod     : Word
  cons     : Word
  fetched  : Word
  asked    : Word
  reads    : List (Word × Nat)
  parked   : Bool
  backlog  : List (Op × Desc)
  inflight : Option Inflight
  /-- The command in flight was accepted before the ring's last enable (R48). -/
  old      : Bool
  deriving DecidableEq, Repr

def CmdRing.reset : CmdRing :=
  ⟨0, 0, false, false, 0, 6, 0, 0, 0, 0, 0, [], false, [], none, false⟩

/-- Event ring set and state (R46, R59, R79–R84). -/
structure EvtRing where
  base     : BitVec 64
  en       : Bool
  err      : Bool
  port     : Fin 2
  size     : Nat
  vector   : BitVec 6
  count    : BitVec 9
  timer    : BitVec 10
  written  : Word
  consumed : Word
  held     : List EvtRecord
  reserved : Nat
  lost     : Nat
  lostNext : Bool
  unsig    : Nat
  recent   : List EvtRecord
  deriving DecidableEq, Repr

def EvtRing.reset : EvtRing :=
  ⟨0, false, false, 0, 6, 0, 1, 0, 0, 0, [], 0, 0, false, 0, []⟩

/-- A buffer the host has posted on a data ring (R82). -/
structure Posted where
  addr  : Nat
  len   : Nat
  count : Word
  phase : Bool
  deriving DecidableEq, Repr

/-- Data ring set and counts (R46, R58, R82). -/
structure DataRing where
  base    : BitVec 64
  en      : Bool
  err     : Bool
  port    : Fin 2
  size    : Nat
  prod    : Word
  cons    : Word
  fetched : Word
  asked   : Word
  reads   : List (Word × Nat)
  parked  : Bool
  posted  : List Posted
  deriving DecidableEq, Repr

def DataRing.reset : DataRing := ⟨0, false, false, 0, 6, 0, 0, 0, 0, [], false, []⟩

/-- What waits for a link that is down (R799): a write, or an event for a ring of the other port that follows such a write (R88). -/
inductive Waiting where
  | write (e : Emission)
  | event (ring : Fin 16) (r : EvtRecord)
  deriving DecidableEq, Repr

/-- A host port (R565–R569, R600, R799). `waiting` holds what waits while the link is down, `heldMsi` the vectors with a message due. -/
structure HostPort where
  linkUp  : Bool
  width   : Nat
  speed   : Nat
  roEn    : Bool
  l1      : Bool
  l2      : Bool
  perst   : Bool
  cplErr  : Nat
  waiting : List Waiting
  heldMsi : BitVec 64
  msix    : Vector (BitVec 128) 64
  pba     : BitVec 64
  deriving DecidableEq, Repr

def HostPort.reset : HostPort :=
  ⟨false, 0, 0, false, false, false, false, 0, [], 0, Vector.replicate 64 (1#128 <<< 96), 0⟩

/-- A FENCE that firmware has read and that has not completed (R69). -/
structure Fence where
  ring  : Fin 16
  order : Nat
  deriving DecidableEq, Repr

/-- The control path: rings, routing, ports, outputs. -/
structure Io where
  cmd      : Vector CmdRing 16
  evt      : Vector EvtRing 16
  data     : Vector DataRing 128
  /-- EVT_ROUTE, by source class (R78). -/
  route    : Vector (Fin 16) 16
  /-- DB_STAT[n].BAD_COUNT (R58). -/
  dbBad    : Vector Nat 160
  /-- The command ring whose descriptor firmware took last (R72). At reset it is 15, so that ring 0 has the first turn: a DESIGN CHOICE
  (log entry 57), the manual gives the order of the rings but not its first. -/
  rr       : Fin 16
  accepted : Nat
  fence    : Option Fence
  ports    : Vector HostPort 2
  /-- DMA arbitration by class: last channel served, bytes of its turn (R575). -/
  arb      : Vector (Nat × Nat) 4
  /-- The pair unit mirrors the event ring counts: the role is PRIMARY (R675). -/
  mirrors  : Bool
  out      : List Emission
  deriving DecidableEq, Repr

def Io.reset : Io :=
  { cmd := Vector.replicate 16 CmdRing.reset, evt := Vector.replicate 16 EvtRing.reset
    data := Vector.replicate 128 DataRing.reset, route := Vector.replicate 16 0, dbBad := Vector.replicate 160 0
    rr := 15, accepted := 0, fence := none, ports := Vector.replicate 2 HostPort.reset
    arb := Vector.replicate 4 (0, 512), mirrors := false, out := [] }

end Sys2Proof.Machine
end

