-- ==== Sys2Proof/Parts/Clock.lean ====
section
/-! DEFINITION. State of the clock and time unit, the pins, the lanes and the streams (manual chapters Clocks, time and
synchronisation; Triggers, trigger pins; Ingest lanes and streams). -/

namespace Sys2Proof.Machine

/-- PLL_S, the outputs, REFIN and PPSIN, the fabric PLLs (R108–R147). -/
structure Clk where
  cfg         : Word
  lock        : Bool
  coast       : Bool
  lost        : Bool
  slewing     : Bool
  cfgErr      : Bool
  refPresent  : Bool
  ppsValid    : Bool
  coastCfg    : Word
  /-- ns at which the coast began. -/
  coastStart  : Option Nat
  /-- Length of the last coast, µs. -/
  coastUs     : Nat
  /-- Drift of the coast as last measured against the crystal, ppb (R131). -/
  driftPpb    : Int
  /-- Frequency offset of a slew, ppb (R137). -/
  slewPpb     : Int
  /-- VCO cycles by which the feedback divider has been realigned (R136). -/
  realign     : Int
  measuring   : Bool
  /-- The comparison of R139 is due at the next valid PPS edge. -/
  comparePps  : Bool
  ppsGood     : Nat
  ppsBad      : Nat
  edgeErr     : Int
  missed      : Nat
  fActive     : Bool
  f0Lock      : Bool
  f1Lock      : Bool
  switches    : Nat
  outCfg      : Vector Word 16
  outPhase    : Vector (BitVec 10) 16
  outRun      : Vector Bool 16
  calGated    : Vector Bool 16
  outLocked   : BitVec 16
  overLimit   : BitVec 16
  deriving DecidableEq, Repr

def Clk.reset : Clk :=
  { cfg := 0x41400500#32, lock := false, coast := false, lost := false, slewing := false
    cfgErr := false, refPresent := false, ppsValid := false, coastCfg := 0x06405320#32, coastStart := none
    coastUs := 0, driftPpb := 0, slewPpb := 0, realign := 0, measuring := false, comparePps := false
    ppsGood := 0, ppsBad := 0, edgeErr := 0, missed := 0, fActive := false, f0Lock := false, f1Lock := false
    switches := 0, outCfg := Vector.replicate 16 0x00C00000#32, outPhase := Vector.replicate 16 0
    outRun := Vector.replicate 16 false, calGated := Vector.replicate 16 false, outLocked := 0, overLimit := 0 }

/-- Deviation of the PLL_S frequency from nominal, ppb: the drift of a coast, the offset of a slew (R803). -/
def Clk.ratePpb (c : Clk) : Int := if c.coast then c.driftPpb else if c.slewing then c.slewPpb else 0

/-- The time base (R148, R803). `tb` counts units of 1/(2^32·5^12) s of TAI, so that 1 ps and 2^-32 s are whole numbers of units. -/
structure TimeBase where
  tb           : Nat
  /-- What the clock has counted since reset, in the same units; no load and no edge moves it. PPS intervals and LEMC edges are counted on it. -/
  run          : Nat
  /-- Part of a unit, 10^-9, that the count has reached at a frequency off nominal. -/
  frac         : Nat
  /-- Records of sync group g carry TIME_SUSPECT (R136, R148, R157, R165). -/
  groupSuspect : Vector Bool 16
  /-- No epoch of group g has followed a PLL_S loss (R142). -/
  afterLoss    : BitVec 16
  timeSet      : Bool
  /-- The last PPS edge, on `run`; none: no edge yet, or an expected edge was missing. -/
  lastEdge     : Option Nat
  /-- The last TIME_SET that loaded at an edge: the second the edge had before, and ns (R159). -/
  loadedAt     : Option (Nat × Nat)
  deriving DecidableEq, Repr

def TimeBase.reset : TimeBase := ⟨0, 0, 0, Vector.replicate 16 true, 0, false, none, none⟩

/-- Pins: PIN_FUNC, GPIO, TRIG_IO, CAL_OUT, WAKE_N, PWR_EN (R377–R383, R786, R751). -/
structure Pins where
  func        : Vector (BitVec 4) 32
  lockedWrite : Bool
  badCode     : Bool
  errPin      : BitVec 5
  gpioOut     : Word
  level       : Word
  cfg         : Vector Word 16
  late        : Vector Nat 16
  merged      : Vector Nat 16
  /-- Last accepted edge, ns of the time base. -/
  lastEdge    : Vector (Option Nat) 16
  /-- End of the pulse being driven, ns. -/
  pulseEnd    : Vector (Option Nat) 16
  /-- Timed pulses queued, by drive instant on the time base (R380, R381). -/
  queue       : Vector (List Nat) 16
  calOut      : Vector Bool 4
  pwrEn       : Bool
  wakeN       : Bool
  deriving DecidableEq, Repr

def Pins.reset : Pins :=
  { func := Vector.replicate 32 0, lockedWrite := false, badCode := false, errPin := 0, gpioOut := 0, level := 0
    cfg := Vector.replicate 16 0x00080000#32, late := Vector.replicate 16 0, merged := Vector.replicate 16 0
    lastEdge := Vector.replicate 16 none, pulseEnd := Vector.replicate 16 none, queue := Vector.replicate 16 []
    calOut := Vector.replicate 4 false, pwrEn := true, wakeN := false }

/-- A receive lane (R167–R174, R180, R205–R207). -/
structure Lane where
  cfg          : Word
  sigDet       : Bool
  cdrLock      : Bool
  adapted      : Bool
  blockLock    : Bool
  polInverted  : Bool
  /-- The end-of-multiblock marker was found complemented (R180 stage 5). -/
  marker       : Bool
  mbLock       : Bool
  pstate       : BitVec 2
  crcErr       : Nat
  fecCorr      : Nat
  shErr        : Nat
  eq           : Vector Byte 13
  /-- Bring-up stage, 0 = none, 1–9. -/
  stage        : Nat
  /-- Lane rate, 1/128 bit/s, at which equaliser state is saved (R207). -/
  saved        : Option Nat
  warm         : Bool
  order        : Option Nat
  lastCrcFault : Option Nat
  deriving DecidableEq, Repr

def Lane.reset : Lane :=
  { cfg := 0x80000000#32, sigDet := false, cdrLock := false, adapted := false, blockLock := false
    polInverted := false, marker := false, mbLock := false, pstate := 2, crcErr := 0, fecCorr := 0, shErr := 0
    eq := Vector.replicate 13 0, stage := 0, saved := none, warm := false, order := none, lastCrcFault := none }

/-- The eye monitor (R175, R176). -/
structure Eye where
  start : Bool
  busy  : Bool
  lane  : BitVec 6
  dwell : BitVec 4
  map   : List (BitVec 16)
  deriving DecidableEq, Repr

def Eye.reset : Eye := ⟨false, false, 0, 4, List.replicate 4096 0⟩

/-- States of a stream: free, or as STREAM_STATUS codes them (R197); on a warm secondary, closed under the handle of the primary's stream
(R669). -/
inductive StreamSt where
  | free | bringup | up | down | held | closed
  deriving DecidableEq, Repr

/-- Open and not HELD. -/
def StreamSt.runs (t : StreamSt) : Bool := t == .bringup || t == .up || t == .down

/-- The parameters of STREAM_OPEN (R190). -/
structure StreamPar where
  fs       : Nat
  map      : List Nat
  l        : Nat
  m        : Nat
  n        : Nat
  n'       : Nat
  cs       : Nat
  csMap    : Nat
  s        : Nat
  f        : Nat
  e        : Nat
  fec      : Bool
  group    : Fin 16
  discover : Bool
  rbd      : Nat
  alignPs  : Int
  deriving DecidableEq, Repr

def StreamPar.blank : StreamPar := ⟨0, [], 0, 0, 0, 0, 0, 0, 0, 0, 0, false, 0, false, 0, 0⟩

/-- A stream (R149, R150, R190–R204). -/
structure Stream where
  gen         : Nat
  st          : StreamSt
  par         : StreamPar
  /-- Physical lane of each logical lane. -/
  lanes       : List Nat
  basis       : Nat
  everUp      : Bool
  skewPs      : Nat
  /-- Its lanes have been deskewed and wait for a release point (R185, R187). -/
  deskewed    : Bool
  arrivalRef  : Option Int
  /-- Instant, on `TimeBase.run`, of edge 0 of the LEMC (R186). -/
  lemc0       : Option Nat
  /-- LEMC edge at which index 0 lies (R202). -/
  zeroEdge    : Nat
  /-- An epoch has come and its first aligned sample has not: the SYSREF instant on `TimeBase.run`, and T0 (R157). -/
  align       : Option (Nat × Nat)
  /-- Index of the next sample; none = no valid index (R142). -/
  next        : Option Nat
  /-- TAI of index 0 in units of the time base (R150). -/
  t0          : Nat
  lastReleased : Option Nat
  zeroed      : Nat
  saturated   : Nat
  crcBad      : Nat
  fecCorr     : Nat
  downs       : Nat
  /-- TIME_SUSPECT of basis 2 (R202) or of index basis. -/
  suspect     : Bool
  lateEpisode : Bool
  since       : Nat
  grant       : Nat
  /-- A reopening STREAM_OPEN has been accepted and not completed (R196). -/
  reopening   : Bool
  deriving DecidableEq, Repr

def Stream.reset : Stream :=
  { gen := 1, st := .free, par := .blank, lanes := [], basis := 0, everUp := false, skewPs := 0
    deskewed := false, arrivalRef := none, lemc0 := none, zeroEdge := 0, align := none, next := none, t0 := 0, lastReleased := none, zeroed := 0
    saturated := 0, crcBad := 0, fecCorr := 0, downs := 0, suspect := false, lateEpisode := false
    since := 0, grant := 0, reopening := false }

end Sys2Proof.Machine
end

