-- ==== Sys2Proof/Parts/Chan.lean ====
section
/-! DEFINITION. State of the channels, spectra, products, density planes, calibration, conditions, trigger groups and sweep units
(manual chapters Channel front end to Sweep search). Flags are in the layout of R462 throughout. -/

namespace Sys2Proof.Machine

/-- States of a channel (R96), with STREAM's wait STARVED. -/
inductive ChanSt where
  | empty | stopped | running | draining | halted | starved
  deriving DecidableEq, Repr

/-- A complex sample on its way through the chain, with the flags it carries (R254). -/
structure Smp where
  re    : Int
  im    : Int
  flags : BitVec 32
  deriving DecidableEq, Repr

/-- A stream sample at its index (R216). -/
structure InSmp where
  idx   : Nat
  smp   : Smp
  deriving DecidableEq, Repr

/-- A channel output: its number j, value and flags, the NCO word and calibration generation in force (R215, R287). -/
structure OutSmp where
  j    : Nat
  smp  : Smp
  nco  : Int
  cgen : Nat
  /-- ns at which it left the front end. -/
  tm   : Nat
  deriving DecidableEq, Repr

/-- The CHAN_FILTER set-up (R245). -/
structure FeSet where
  d         : Nat
  shaping   : Nat
  lintW     : Nat
  lintR     : Nat
  fdl       : Nat
  scale     : Nat
  tau       : Nat
  gRe       : Int
  gIm       : Int
  detK      : Nat
  attack    : Nat
  decay     : Nat
  detRegion : Handle
  bank      : List Int
  deriving DecidableEq, Repr

/-- The default set-up of R214, but for d. -/
def FeSet.default (d : Nat) : FeSet :=
  { d := d, shaping := 0x10, lintW := 0, lintR := 0, fdl := 0, scale := 2, tau := 0, gRe := 32768, gIm := 0
    detK := 0, attack := 0, decay := 0, detRegion := 0, bank := [] }

/-- Detector accumulators of the open window, the last window's results and the entries not yet written (R243, R244). -/
structure Det where
  peak    : Nat
  sum     : Nat
  count   : Nat
  env     : Nat
  /-- Conditions of the outputs in the open window. -/
  flags   : BitVec 32
  /-- NCO word in force at the window's first output. -/
  nco     : Int
  lastJ   : Nat
  /-- Peak, mean square, RMS, envelope, conditions and NCO word of the window that has ended. -/
  res     : Option (Nat × Nat × Nat × Nat × BitVec 32 × Int)
  buf     : List (Nat × Nat × Nat × Nat)
  bufFlags : BitVec 32
  bufFirst : Nat
  bufNco   : Int
  deriving DecidableEq, Repr

def Det.reset : Det := ⟨0, 0, 0, 0, 0, 0, 0, none, [], 0, 0, 0⟩

/-- The tables of a channel (R343, R353, R361). -/
structure CalTab where
  g      : List Nat
  c      : List Nat
  ec     : Nat
  valid  : Bool
  deriving DecidableEq, Repr

/-- A channel's part in a group swap that waits for its boundary (R240, R350). -/
structure SwapReq where
  /-- Number of the group swap on its drive. -/
  tag    : Nat
  live   : Bool
  /-- Spectrum of the swap; none: the channel's first boundary. -/
  atSpec : Option Nat
  /-- New τ and G; none: they stay. -/
  vals   : Option (Nat × Int × Int)
  tab    : Option CalTab
  deriving DecidableEq, Repr

/-- The CHAN_SPECTRAL set-up (R289) and its claims (R255, R291). -/
structure SpecSet where
  type   : Nat
  l      : Nat
  h      : Nat
  win    : Nat
  region : Handle
  user   : List Int
  pipes  : BitVec 16
  deriving DecidableEq, Repr

def SpecSet.off : SpecSet := ⟨0, 0, 0, 0, 0, [], 0⟩

/-- A spectrum with its header (R285–R287). -/
structure Spectrum where
  m     : Nat
  bins  : List Cx
  e     : Nat
  flags : BitVec 32
  fgen  : Nat
  cgen  : Nat
  nco   : Int
  /-- 0 no calibration class, 1 ON, 2 OFF, 3 TRANSITION (R334). -/
  cls   : Nat
  /-- Journal index in force. -/
  jidx  : Nat
  /-- Calibration tables in force at its last output (R353). -/
  tab   : CalTab
  deriving DecidableEq, Repr

/-- The CHAN_PRODUCTS set-up (R318). -/
structure ProdSet where
  mask    : BitVec 8
  b       : Nat
  f       : Nat
  bins    : Nat
  len     : Nat
  partner : Handle
  skM     : Nat
  skLo    : Nat
  skHi    : Nat
  deriving DecidableEq, Repr

def ProdSet.off : ProdSet := ⟨0, 0, 0, 0, 1, 0, 0, 0, 0⟩

/-- An open interval, block or reduction of a product (R300–R307, R313): `vals` holds one list of components per output bin. -/
structure ProdAcc where
  first  : Nat
  span   : Nat
  added  : Nat
  exFill : Nat
  exCal  : Nat
  /-- Spectra added under the generation `cgen`. -/
  under  : Nat
  jidx   : Nat
  flags  : BitVec 32
  ea     : Option Nat
  vals   : List (List Int)
  nco    : Int
  cgen   : Nat
  lastM  : Nat
  /-- ARR level at which it opened (R457). -/
  level  : Nat
  deriving DecidableEq, Repr

/-- A condition (R363–R369, R384–R387). -/
structure Cond where
  type  : Nat
  skipCal : Bool
  q     : Nat
  r     : Nat
  s1    : Nat
  s2    : Nat
  u1    : BitVec 64
  u2    : BitVec 64
  u3    : BitVec 64
  fired : Bool
  cnt   : Nat
  hist  : List Int
  /-- Pending fires: the fire index (none: next output), the ring that waits for it. -/
  fires : List (Option Nat × Fin 16)
  deriving DecidableEq, Repr

def Cond.off : Cond := ⟨0, false, 1, 1, 0, 0, 0, 0, 0, false, 0, [], []⟩

/-- A mask segment (R389). -/
structure Seg where
  first : Nat
  count : Nat
  upper : Int
  lower : Int
  deriving DecidableEq, Repr

/-- The mask store of a condition: two banks, each with its base bin (R389, R392). -/
structure Mask where
  base0 : Nat
  segs0 : List Seg
  base1 : Nat
  segs1 : List Seg
  useB1 : Bool
  deriving DecidableEq, Repr

def Mask.empty : Mask := ⟨0, [], 0, [], false⟩

/-- A calibration accumulator: sums per bin, running exponent, spectra, bins whose sum has saturated (R337, R341). -/
structure CalAcc where
  vals : List (List Int)
  e    : Option Nat
  n    : Nat
  full : List Nat
  deriving DecidableEq, Repr

def CalAcc.zero : CalAcc := ⟨[], none, 0, []⟩

/-- One buffer of a channel's accumulators (R337, R340). -/
structure CalBank where
  on       : CalAcc
  off      : CalAcc
  crossOn  : CalAcc
  crossOff : CalAcc
  trans    : Nat
  lastSpec : Nat
  deriving DecidableEq, Repr

def CalBank.zero : CalBank := ⟨.zero, .zero, .zero, .zero, 0, 0⟩

/-- The fields of CAL_SET that POLICY_ONLY takes (R357). -/
structure CalPol where
  policy  : Nat
  z       : Nat
  fMin    : Nat
  gainThr : Nat
  gainSlew : Nat
  delayThr : Nat
  delaySlew : Nat
  phaseThr : Nat
  phaseSlew : Nat
  bpThr   : Nat
  deriving DecidableEq, Repr

def CalPol.zero : CalPol := ⟨0, 0, 0, 0, 0, 0, 0, 0, 0, 0⟩

/-- What a derivation proposes for one channel (R343–R348, R355). -/
structure CalDeriv where
  ch        : Nat
  /-- Swap spectrum of the channel (R350). -/
  swapM     : Nat
  confident : Bool
  limit     : Bool
  slew      : Bool
  propose   : Bool
  /-- Mean Δ over the good bins. -/
  mean      : Int
  good      : Nat
  nOn       : Nat
  nOff      : Nat
  trans     : Nat
  tab       : CalTab
  tau       : Nat
  gRe       : Int
  gIm       : Int
  delta     : Int
  phi       : Int
  lastSpec  : Nat
  comb      : List (Nat × Int)
  rows      : List (Nat × Nat × Int × Nat)
  deriving DecidableEq, Repr

/-- Calibration set-up and state of a channel (R330–R362). -/
structure Cal where
  on      : Bool
  gain    : Bool
  delay   : Bool
  pol     : CalPol
  ref     : Nat
  pathNs  : Int
  guardUs : Nat
  cycles  : Nat
  fc      : Nat
  bc      : Nat
  b       : Nat
  region  : Handle
  /-- POLICY_ONLY fields that wait for the next period start (R357). -/
  newPolicy : Option CalPol
  /-- Accumulators of the open period, and those of the period that is being derived with the policies it had (R340). -/
  cur     : CalBank
  prev    : Option (CalBank × CalPol)
  /-- The gain, delay and bandpass in force are those of a CAL_TABLE_LOAD (R355). -/
  manual  : Bool
  tab     : CalTab
  /-- Tables replaced of late, each with the first output it no longer served (R353). -/
  past    : List (Nat × CalTab)
  t       : List Nat
  target  : Nat
  targetE : Nat
  combN   : Nat
  combP0  : Nat
  combDp  : Nat
  skipped : Nat
  slot    : Bool
  /-- On a DELAY member: spectra that wait for their pair (R310, R338), with the first cycle of their period; true: the reference's. -/
  wait    : List (Bool × Nat × Spectrum)
  deriving DecidableEq, Repr

def Cal.off : Cal :=
  { on := false, gain := false, delay := false, pol := .zero, ref := 0, pathNs := 0, guardUs := 0, cycles := 0
    fc := 0, bc := 0, b := 0, region := 0, newPolicy := none, cur := .zero, prev := none, manual := false, tab := ⟨[], [], 0, false⟩, past := [], t := [], target := 0, targetE := 0
    combN := 0, combP0 := 0, combDp := 0, skipped := 0, slot := false, wait := [] }

/-- The claim of a command on a channel's behalf (R35, R36, R100): its command ring, the transform with its pipes, the decimation and the detector
region that it is to set. -/
structure ChanClaim where
  ring : Nat
  sp   : SpecSet
  d    : Nat
  det  : Handle
  deriving DecidableEq, Repr

/-- A channel (R96, R209–R254, and the chapters that build on it). -/
structure Chan where
  gen      : Nat
  st       : ChanSt
  stream   : Nat
  engines  : BitVec 8
  slot     : Nat
  order    : Nat
  fgen     : Nat
  fe       : FeSet
  nco      : Int
  phase    : Nat
  /-- Pending AT_INDEX retune: word and index (R226). -/
  tune     : Option (Int × Nat)
  /-- Words in force from an input index that the front end has not reached (R225). -/
  tuneQ    : List (Int × Nat)
  /-- k_r of the retune that TUNE still marks (R223). -/
  tuneFrom : Option Nat
  grant    : Nat
  /-- A CHAN_START or CHAN_RESUME waits for power (R99). -/
  waiting  : Bool
  /-- SUPPRESS_FILL in force (R158, R249). -/
  supFill  : Bool
  /-- First input index the channel takes (R249). -/
  startAt  : Nat
  /-- Next input at CHAN_STOP: what a DRAINING channel takes from there on meets no retune (R227). -/
  stopAt   : Nat
  /-- An epoch has come while DRAINING: the channel takes no more input (R251). -/
  shut     : Bool
  inq      : List InSmp
  lint     : List Smp
  stages   : List (List Smp)
  fdlLine  : List Smp
  fillLeft : Nat
  fdlFill  : Nat
  delayStep : Bool
  outs     : List OutSmp
  nextOut  : Nat
  lastOut  : Option Nat
  drainAt  : Option Nat
  det      : Det
  swaps    : List SwapReq
  calGen   : Nat
  sp       : SpecSet
  /-- What accepted CHAN_FILTER and CHAN_SPECTRAL commands hold until their host buffer has come (R36, R42). -/
  claims   : List ChanClaim
  nextSpec : Nat
  spec     : Option Spectrum
  pr       : ProdSet
  integ    : Option ProdAcc
  maxHold  : Option ProdAcc
  minHold  : Option ProdAcc
  cross    : Option ProdAcc
  stokes   : Option ProdAcc
  sk       : Option ProdAcc
  power    : Option ProdAcc
  level    : Nat
  /-- Integration intervals, newest first: first spectrum and length; one set for all interval products (R301). -/
  ivals    : List (Nat × Nat × Nat)
  /-- Output bins, each with its product code, whose codeword in a full bank cannot be corrected when the bank is read (R316). -/
  bankErr  : List (Nat × Nat)
  /-- Spectra that wait for their partner (R310); true: the partner's own. -/
  pairWait : List (Bool × Spectrum)
  /-- Result of the last spectral-kurtosis block: values and flag bitmap (R314). -/
  skRes    : List (Nat × Bool)
  cond     : Vector Cond 4
  mask     : Vector Mask 4
  cal      : Cal
  deriving DecidableEq, Repr

def Chan.reset : Chan :=
  { gen := 1, st := .empty, stream := 0, engines := 0, slot := 0, order := 0, fgen := 0, fe := .default 0, nco := 0
    phase := 0, tune := none, tuneQ := [], tuneFrom := none, grant := 0, waiting := false, supFill := false
    startAt := 0, stopAt := 0, shut := false, inq := [], lint := [], stages := [], fdlLine := [], fillLeft := 0, fdlFill := 0, delayStep := false
    outs := [], nextOut := 0, lastOut := none, drainAt := none, det := .reset, swaps := [], calGen := 0, sp := .off
    claims := [], nextSpec := 0, spec := none, pr := .off, integ := none, maxHold := none, minHold := none, cross := none
    stokes := none, sk := none, power := none, level := 0, ivals := [], bankErr := [], pairWait := [], skRes := []
    cond := Vector.replicate 4 .off, mask := Vector.replicate 4 .empty, cal := .off }

/-- A density plane (R320–R329). `cells` is sparse: (column·256 + row, count), rising, no zero. -/
structure Plane where
  chan     : Option Nat
  grant    : Nat
  incCal   : Bool
  c        : Nat
  sl       : Nat
  fd       : Nat
  bd       : Nat
  loff     : Int
  f        : Nat
  s        : Nat
  region   : Handle
  period   : Nat
  /-- New binding or parameters that wait for the frame boundary, as the 48 parameter bytes and the channel (R326). -/
  next     : Option (BitVec 384 × Nat)
  cells    : List (Nat × Nat)
  counted  : Nat
  excluded : Nat
  /-- Number of the open frame; none: no spectrum of it has come yet. -/
  frame    : Option Nat
  /-- Last spectrum of the open frame so far, and the last one counted (R328, R329). -/
  lastM    : Nat
  lastCounted : Nat
  /-- What the frame's counted spectra carry: conditions, NCO word and journal index of the first, calibration generation of the last. -/
  flags    : BitVec 32
  nco      : Int
  jidx     : Nat
  cgen     : Nat
  frames   : Nat
  /-- DENS_SNAPSHOT commands that wait: ring and CLEAR (R328). -/
  snaps    : List (Fin 16 × Bool)
  slot     : Bool
  skipped  : Nat
  deriving DecidableEq, Repr

def Plane.reset : Plane :=
  { chan := none, grant := 0, incCal := false, c := 0, sl := 0, fd := 0, bd := 0, loff := 0, f := 0, s := 0, region := 0
    period := 0, next := none, cells := [], counted := 0, excluded := 0, frame := none, lastM := 0, lastCounted := 0
    flags := 0, nco := 0, jidx := 0, cgen := 0, frames := 0, snaps := [], slot := false, skipped := 0 }

/-- A swap of a group that waits for m_s (R350, R351, R362). -/
structure GroupSwap where
  tag   : Nat
  /-- Cause 0 live, else CAL_TABLE_LOAD. -/
  live  : Bool
  ms    : Nat
  bits  : Nat
  /-- The CAL_TABLE_LOAD that waits for it, and its FREEZE. -/
  ring  : Option (Fin 16)
  freeze : Bool
  /-- What each channel is to swap; a secondary waits for its primary's before it asks the channels (R676). -/
  parts : List (Nat × SwapReq)
  asked : Bool
  /-- The derivation's table records, written when the swap is over or withdrawn (R355, R360). -/
  recs  : List CalDeriv
  deriving DecidableEq, Repr

def GroupSwap.empty (tag : Nat) : GroupSwap := ⟨tag, true, 0, 0, none, false, [], false, []⟩

/-- A calibration drive and its group's period (R331–R333, R339, R347–R350). -/
structure Drive where
  owner   : Option Nat
  usePin  : Bool
  gate    : Option (Fin 16)
  n       : Nat
  r       : Nat
  on      : Bool
  /-- Number of the last cycle begun: cycle c of second s is number n·s + c. -/
  cycle   : Nat
  /-- First cycle of the open period; none: the period starts at the next cycle start (R339). -/
  period  : Option Nat
  /-- First cycle of the period that is being derived (R350), and whether that period was frozen. -/
  old     : Option Nat
  oldFrozen : Bool
  frozen  : Bool
  /-- Live swaps resume at the next period start (R360). -/
  thaw    : Bool
  /-- The group's generation (R349). -/
  gen     : Nat
  /-- Swaps that wait, and swaps numbered so far. -/
  swaps   : List GroupSwap
  count   : Nat
  deriving DecidableEq, Repr

def Drive.reset : Drive :=
  { owner := none, usePin := false, gate := none, n := 0, r := 4, on := false, cycle := 0, period := none, old := none
    oldFrozen := false, frozen := false, thaw := false, gen := 0, swaps := [], count := 0 }

/-- A hit in a trigger group (R394): input, time in 2^-32 s, hit index, stream. -/
structure Hit where
  input  : Nat
  time   : Nat
  idx    : Nat
  stream : Nat
  deriving DecidableEq, Repr

/-- A trigger group (R393–R407). `past` holds hits already decided and not consumed, which still open windows. -/
structure Group where
  gen     : Nat
  alloc   : Bool
  mode    : Nat
  event   : Bool
  aset    : BitVec 16
  t       : Nat
  inputs  : List Nat
  hits    : List Hit
  past    : List Hit
  last    : Option Nat
  since   : Nat
  late    : Nat
  dropped : Nat
  fired   : Nat
  deriving DecidableEq, Repr

def Group.reset : Group := ⟨1, false, 0, false, 0, 0, [], [], [], none, 0, 0, 0, 0⟩

/-- A column of a sweep unit's cell history (R415, R416). -/
structure SweepCol where
  m      : Nat
  cells  : List Int
  zeroed : Bool
  flags  : BitVec 32
  deriving DecidableEq, Repr

/-- A candidate (R426, R427, R431). -/
structure Cand where
  idx    : Nat
  trial  : Nat
  k      : Nat
  snr    : Nat
  hits   : Nat
  zeroed : Bool
  flags  : BitVec 32
  /-- Time of its index, fixed when it is found (R427). -/
  time   : Nat
  deriving DecidableEq, Repr

/-- A sweep search unit (R410–R437). -/
structure Sweep where
  gen      : Nat
  claimed  : Bool
  run      : Bool
  chan     : Nat
  type     : Nat
  b        : Nat
  all      : Bool
  event    : Bool
  skipCal  : Bool
  invert   : Bool
  widths   : BitVec 7
  fw       : Nat
  nr       : Nat
  nt       : Nat
  d0       : Int
  dstep    : Int
  frf      : Nat
  km       : Nat
  kn       : Nat
  thr      : Nat
  candRegion : Handle
  histRegion : Handle
  flushMs  : Nat
  phi      : List Nat
  grant    : Nat
  /-- Row masks, newest first, each with the first time index it applies to (R417, R436). -/
  masks    : List (Nat × List Bool)
  /-- A row mask that waits, with the commands that wait for it. -/
  maskNext : Option (List Bool × List (Fin 16))
  /-- The next spectrum restarts the unit (R433). -/
  restart  : Bool
  /-- Stops that wait for the spectrum boundary and the open record. -/
  stopping : List (Fin 16)
  s0       : Nat
  eu       : Option Nat
  qual     : Nat
  means    : List Int
  hist     : List SweepCol
  /-- Noise estimates V of trial t and width k at t·7 + k (R423), and updates j since restart. -/
  noise    : List Int
  updates  : Nat
  /-- Track sums of the last 64 decided time indices per trial, newest first (R420, R422). -/
  sums     : List (List Int)
  /-- First undecided time index. -/
  undecided : Nat
  lastM    : Option Nat
  queue    : List Cand
  recStart : Option Nat
  slot     : Bool
  dropped  : Nat
  dropRec  : Nat
  evtLimited : Nat
  evtTimes : List Nat
  deriving DecidableEq, Repr

def Sweep.reset : Sweep :=
  { gen := 1, claimed := false, run := false, chan := 0, type := 0, b := 0, all := false, event := false
    skipCal := false, invert := false, widths := 0, fw := 0, nr := 0, nt := 0, d0 := 0, dstep := 0, frf := 0, km := 0
    kn := 0, thr := 0, candRegion := 0, histRegion := 0, flushMs := 0, phi := [], grant := 0, masks := []
    maskNext := none, restart := false, stopping := [], s0 := 0, eu := none, qual := 0, means := [], hist := []
    noise := [], updates := 0, sums := [], undecided := 0, lastM := none, queue := [], recStart := none, slot := false
    dropped := 0, dropRec := 0, evtLimited := 0, evtTimes := [] }

end Sys2Proof.Machine
end

