-- ==== Sys2Proof/Parts/Acq.lean ====
section
/-! DEFINITION. State of the acquisition units and the measurement processors (manual chapters Acquisition and records;
Measurement processors). -/

namespace Sys2Proof.Machine

/-- States of an acquisition unit (R443). -/
inductive AcqSt where
  | none | idle | filling | armed | capture | holdoff | done | streaming
  deriving DecidableEq, Repr

/-- The ACQ_SET set-up (R466). -/
structure AcqPar where
  source  : Nat
  mode    : Nat
  code    : Nat
  flags   : Byte
  srcIdx  : Nat
  p       : Nat
  q       : Nat
  c       : Nat
  hold    : Nat
  s       : Nat
  line    : Nat
  arrMax  : Nat
  i0      : Nat
  high    : Nat
  low     : Nat
  dwell   : Nat
  meas    : BitVec 9
  hyst    : Nat
  deriving DecidableEq, Repr

def AcqPar.blank : AcqPar := ⟨0, 0, 0, 0, 0, 0, 0, 0, 0, 0, 0, 0, 0, 0, 0, 0, 0, 0⟩

/-- The stamps of a record that come from its first item (R459). -/
structure Stamp where
  idx    : Nat
  time   : Nat          -- 2^-32 s of TAI
  nco    : Int
  cgen   : Nat
  fgen   : Nat
  exp    : Nat
  journal : Nat
  /-- ARR level it was made at (R457). -/
  level  : Nat
  deriving DecidableEq, Repr

/-- One item of a source (R439). `vals` holds the slots of a raw item, I and Q of an output, or the payload bytes of a product record. -/
structure Item where
  no    : Nat
  kind  : Nat
  fmt   : Nat
  vals  : List Int
  flags : BitVec 32
  stamp : Stamp
  deriving DecidableEq, Repr

/-- A trigger taken by a unit and not yet recorded (R440, R470). -/
structure Capture where
  xt      : Nat
  trigNo  : Nat
  /-- First item (or chunk) of the record. -/
  fromNo  : Nat
  /-- Last item (or chunk). -/
  toNo    : Nat
  cause   : BitVec 32
  line    : Nat
  trunc   : Bool
  overlap : Bool
  lost    : Nat
  deriving DecidableEq, Repr

/-- A chunk of a raw ring, closed and in its slot (R451–R453). -/
structure Chunk where
  no    : Nat
  slot  : Nat
  seq   : Nat
  first : Nat
  last  : Nat
  held  : Bool
  /-- Configuration-journal index at its first item. -/
  journal : Nat
  deriving DecidableEq, Repr

/-- An acquisition unit (R438–R472). -/
structure Acq where
  st       : AcqSt
  region   : Nat
  par      : AcqPar
  level    : Nat
  /-- Item history, oldest first: the history circle, or the items of the open chunk. -/
  hist     : List Item
  cap      : Option Capture
  segment  : Nat
  /-- Slots that hold undelivered records (modes 0–2): record sequence numbers. -/
  slots    : List Nat
  nextSlot : Nat
  ring     : List Chunk
  nextChunk : Nat
  woff     : Nat
  holdEnd  : Nat
  holdLeft : Nat
  /-- Arm index not yet reached (R468). -/
  armIdx   : Option Nat
  firstNo  : Option Nat
  gapNext  : Bool
  newLevel : Option Nat
  /-- Item index from which a hot secondary's new level applies (R676); 0: from the next chunk. -/
  levelFrom : Nat
  lastStep : Nat
  early    : Nat
  hold     : Nat
  overlap  : Nat
  dropped  : Nat
  ignored  : Nat
  lastEvt  : Vector (Option Nat) 3
  evtCount : Vector Nat 3
  /-- ACQ_DISARM commands that wait for IDLE: their rings (R469). -/
  disarm   : List (Fin 16)
  deriving DecidableEq, Repr

def Acq.reset : Acq :=
  { st := .none, region := 0, par := .blank, level := 0, hist := [], cap := none, segment := 0, slots := [], nextSlot := 0
    ring := [], nextChunk := 0, woff := 0, holdEnd := 0, holdLeft := 0, armIdx := none, firstNo := none
    gapNext := false, newLevel := none, levelFrom := 0, lastStep := 0, early := 0, hold := 0, overlap := 0, dropped := 0
    ignored := 0, lastEvt := Vector.replicate 3 none, evtCount := Vector.replicate 3 0, disarm := [] }

/-- States of an MP program (R474). -/
inductive MpSt where
  | empty | loaded | running | trapped
  deriving DecidableEq, Repr

/-- A verified image in management memory (R502, R505). -/
structure MpImage where
  prog  : List (BitVec 64)
  data  : List Word
  entry : Nat
  crc   : Word
  digest : BitVec 384
  deriving DecidableEq, Repr

/-- A loop level (R491): first and last instruction, passes left. -/
structure MpLoop where
  first : Nat
  last  : Nat
  left  : Nat
  deriving DecidableEq, Repr

/-- A record copy that waits to enter an input window (R495): header bytes and payload words. -/
structure MpIn where
  hdr     : List Byte
  payload : List Word
  seq     : Nat
  deriving DecidableEq, Repr

/-- What an MBPUT sends: its output window, payload words, flags, input header (R500). -/
structure MpOut where
  win   : Nat
  words : List Word
  hdr   : List Byte
  sat   : Bool
  deriving DecidableEq, Repr

/-- A measurement-processor core (R473–R513). -/
structure Mp where
  gen      : Nat
  st       : MpSt
  image    : Option MpImage
  d        : Vector Int 16
  acc      : Vector Int 4
  a        : Vector (BitVec 14) 8
  m        : Vector Int 8
  cbase    : BitVec 14
  clen     : BitVec 14
  pc       : Nat
  z        : Bool
  n        : Bool
  sat      : Bool
  loops    : List MpLoop
  /-- Data memory, sparse: (word, value), rising, no zero value. -/
  mem      : List (Nat × Word)
  waitIn   : Bool
  waitOut  : Bool
  inReg    : Handle
  outReg   : Handle
  wIn      : Nat
  wOut     : Nat
  kind     : Option Nat
  watchdog : Nat
  /-- Cycles since the last MBGET. -/
  cycles   : Nat
  /-- Filled input windows in delivery order; held input windows, oldest first; held output window (window numbers). -/
  filled   : List (Nat × MpIn)
  heldIn   : List Nat
  heldOut  : Option Nat
  nextIn   : Nat
  nextOut  : Nat
  arriving : List MpIn
  outq     : List MpOut
  lastIn   : Option MpIn
  skipRec  : Nat
  skipped  : Nat
  dropped  : Nat
  gapNext  : Bool
  grant    : Nat
  deriving DecidableEq, Repr

def Mp.reset : Mp :=
  { gen := 1, st := .empty, image := none, d := Vector.replicate 16 0, acc := Vector.replicate 4 0
    a := Vector.replicate 8 0, m := Vector.replicate 8 0, cbase := 0, clen := 0, pc := 0, z := false, n := false
    sat := false, loops := [], mem := [], waitIn := false, waitOut := false, inReg := 0, outReg := 0, wIn := 0, wOut := 0
    kind := none, watchdog := 0, cycles := 0, filled := [], heldIn := [], heldOut := none, nextIn := 0, nextOut := 0, arriving := []
    outq := [], lastIn := none, skipRec := 0, skipped := 0, dropped := 0, gapNext := false, grant := 0 }

end Sys2Proof.Machine
end

