-- ==== Sys2Proof/Parts/Mem.lean ====
section
/-! DEFINITION. State of the HBM, its regions, data integrity, the sinks, DMA channels and storage queues (manual chapters HBM
memory; Data integrity; DMA, host ports and sinks). -/

namespace Sys2Proof.Machine

/-- The HBM controller (R514–R539). -/
structure Hbm where
  /-- Bytes of the stacks by device byte address (granule · 2 MiB + offset); canonical, no zero byte listed. -/
  mem      : List Host.Cell
  cfg      : Word
  trained  : BitVec 4
  failed   : BitVec 4
  selfRef  : BitVec 4
  hot      : BitVec 4
  cfgErr   : Bool
  bar4Drop : Nat
  temp     : Vector Int 4
  owedMax  : Vector Nat 4
  forced   : Vector Nat 4
  owed     : Vector Nat 128
  /-- ns since which a retraining is postponed (R534). -/
  retrainLate : Vector (Option Nat) 128
  retrained : Vector Nat 128
  /-- The wake of stack s is granted (R602, R802); it has left self-refresh when its selfRef bit is 0. -/
  wake     : BitVec 4
  /-- The wake of stack s is queued at the PAU (R802). -/
  wakeQueued : BitVec 4
  qosCfg   : Vector Word 12
  panic    : Vector (BitVec 4) 12
  panics   : Vector Nat 12
  overrun  : Vector Nat 12
  deriving DecidableEq, Repr

/-- Reset TARGET of R526 in 100 ns units. -/
def qosTarget : Nat → BitVec 12
  | 0 => 20 | 1 => 20 | 2 => 20 | 3 => 40 | 4 => 10 | 5 => 40 | 6 => 50 | 7 => 20 | 8 => 40 | 9 => 1000 | 10 => 100
  | _ => 4000

/-- HBM_QOS_CFG[p] at reset (R526, R530): PANIC fields are reserved beyond port 3. -/
def qosReset (p : Nat) : Word :=
  (if p < 4 then 192#8 else 0#8) ++ (if p < 4 then 64#8 else 0#8) ++ 8#4 ++ qosTarget p

def Hbm.reset : Hbm :=
  { mem := [], cfg := 0x500A0000#32, trained := 0, failed := 0, selfRef := 0xF, hot := 0, cfgErr := false, bar4Drop := 0
    temp := Vector.replicate 4 0, owedMax := Vector.replicate 4 0, forced := Vector.replicate 4 0
    owed := Vector.replicate 128 0, retrainLate := Vector.replicate 128 none, retrained := Vector.replicate 128 0
    wake := 0, wakeQueued := 0, qosCfg := Vector.ofFn fun p => qosReset p.val, panic := Vector.replicate 12 0
    panics := Vector.replicate 12 0, overrun := Vector.replicate 12 0 }

/-- The object a region is the write target of (R100). -/
inductive Writer where
  | none | acq (u : Nat) | detector (ch : Nat) | working (ch : Nat) | density (p : Nat) | calTab (ch : Nat)
  | sweepCand (u : Nat) | sweepHist (u : Nat) | mp (c : Nat) | session (k : Nat) | thimble | staging (k : Nat) | storage (k : Nat)
  deriving DecidableEq, Repr

/-- A record in a region (R444, R460): sequence number, offset, bytes of header, payload and trailer, whether a read of it meets
poison, whether its sink has delivered it, the time it was written (ns), and the seal fields of its first sealing (R598, R703). -/
structure Rec where
  seq  : Nat
  off  : Nat
  len  : Nat
  kind : Nat
  fmt  : Nat
  delivered : Bool
  /-- The sink may take it: written, and held in ring-dump mode (R453). -/
  ready : Bool
  tm   : Nat
  sealInfo : Option (Handle × Nat × List Byte)
  deriving DecidableEq, Repr

/-- A region (R517–R523). -/
structure Region where
  gen      : Nat
  alloc    : Bool
  granules : List Nat
  window   : Option Nat
  nextSeq  : Nat
  writer   : Writer
  sink     : Option Nat
  recs     : List Rec
  deriving DecidableEq, Repr

def Region.reset : Region := ⟨1, false, [], none, 0, .none, none, []⟩

/-- An error-log entry (R548). -/
structure LogEntry where
  loc      : BitVec 64
  cls      : Nat
  sticky   : Bool
  isOpen   : Bool
  scrubbed : Bool
  retired  : Bool
  corr     : Nat
  uncorr   : Nat
  src      : Nat
  episodes : Nat
  first    : BitVec 64
  last     : BitVec 64
  deriving DecidableEq, Repr

/-- Data integrity (R540–R564). -/
structure Integ where
  log      : List LogEntry
  overflow : Nat
  /-- Locations with an open or ended episode: (location, open, last ended with SCRUBBED, episodes). -/
  episodes : List (BitVec 64 × Bool × Bool × Nat)
  /-- Poisoned HBM codewords, by codeword index (R542). -/
  poison   : List Nat
  corr     : Vector Nat 4
  uncorr   : Vector Nat 4
  poisonCnt : Vector Nat 4
  sramCorr : Nat
  sramUncorr : Nat
  darner   : Word
  progress : Nat
  patrolPos : Nat
  scrubs   : Nat
  patrolGrant : Nat
  retired  : List Nat
  /-- ns at which ECC_CORRECTED was last raised, by memory ID, and occurrences since (R550). -/
  lastCorr : List (Nat × Nat × Nat)
  /-- ECC_UNCORRECTABLE raised in the second that began at ns (R547), and occurrences not raised. -/
  uncorrSec : Nat
  uncorrCnt : Nat
  uncorrSkip : Nat
  deriving DecidableEq, Repr

def Integ.reset : Integ :=
  { log := [], overflow := 0, episodes := [], poison := [], corr := Vector.replicate 4 0, uncorr := Vector.replicate 4 0
    poisonCnt := Vector.replicate 4 0, sramCorr := 0, sramUncorr := 0, darner := 0x80180000#32, progress := 0
    patrolPos := 0, scrubs := 0, patrolGrant := 0, retired := [], lastCorr := [], uncorrSec := 0, uncorrCnt := 0
    uncorrSkip := 0 }

/-- A calibration set in the persistent store (R362, R735). -/
structure StoredCal where
  /-- Stream indices of the group's reference and of the channel. -/
  stream : Nat
  own    : Nat
  l : Nat
  fc : Nat
  bc : Nat
  b : Nat
  t : List Nat
  target : Nat
  targetE : Nat
  /-- Bandpass and excess tables, τ and G. -/
  tab : CalTab
  tau : Nat
  gRe : Int
  gIm : Int
  deriving DecidableEq, Repr

/-- The sealed persistent store (R551, R561, R635, R692, R696). -/
structure Store where
  sticky : List LogEntry
  retired : List Nat
  cal    : List StoredCal
  life   : List Int
  enrol  : Option (BitVec 64 × BitVec 64)
  saved  : Option Nat
  deriving DecidableEq, Repr

def Store.reset : Store := ⟨[], [], [], [], none, none⟩

/-- The SINK_BIND set-up (R578). -/
structure SinkPar where
  region : Nat
  target : Nat
  ring   : Nat
  chan   : Nat
  cls    : Nat
  corner : Bool
  confirm : Bool
  high   : Nat
  low    : Nat
  age    : Nat
  close  : Nat
  session : Handle
  inputs : List Nat
  f      : Nat
  t      : Nat
  maxWait : Nat
  deriving DecidableEq, Repr

def SinkPar.blank : SinkPar := ⟨0, 0, 0, 0, 0, false, false, 0, 0, 0, 0, 0, [], 0, 0, 0⟩

/-- The host buffer a sink is filling (R580–R582). -/
structure OpenBuf where
  buf    : Posted
  used   : Nat
  recs   : Nat
  first  : Nat
  cont   : Bool
  gap    : Bool
  dup    : Bool
  tm     : Nat
  /-- Sequence numbers of the records whose last byte lies in it. -/
  ends   : List Nat
  /-- Status code of its write-back (R580). -/
  code   : Nat
  /-- The record that passed before the first one in it (R574). -/
  prev   : Option Nat
  deriving DecidableEq, Repr

/-- A record on its way through a sink (R575, R580, R592). -/
structure Moving where
  seq    : Nat
  done   : Nat
  total  : Nat
  /-- Storage: queue and staging offset of its copy (R592). -/
  queue  : Nat
  off    : Nat
  deriving DecidableEq, Repr

/-- A sink (R571–R599). -/
structure Sink where
  gen      : Nat
  alloc    : Bool
  storage  : Bool
  bound    : Bool
  par      : SinkPar
  moving   : Bool
  halted   : Bool
  cause    : Nat
  /-- Next record to deliver; last delivered sequence number (R573, R574). -/
  next     : Nat
  last     : Option Nat
  cur      : Option Moving
  buf      : Option OpenBuf
  /-- Buffer full, waiting for its confirm read (R582). -/
  confirm  : Option OpenBuf
  gapDue   : Bool
  /-- First record that began in the faulted buffer, its count (R596, R598). -/
  faultFirst : Nat
  faultSeq   : Nat
  faultPrev  : Option Nat
  draining : Option (Fin 16)
  issued   : Nat
  /-- Highest sequence number the lost primary had issued (R683). -/
  dupUpTo  : Option Nat
  queues   : List Nat
  stRegion : Option Nat
  stTurn   : Nat
  /-- Next offset in the staging circle (R592). -/
  stNext   : Nat
  flushing : Option Nat
  /-- Lowest corner-turn block not yet emitted (R588). -/
  ctNext   : Nat
  /-- What an accepted SINK_BIND of a corner turn holds until its input list has come: its command ring, the set-up (R36, R42). -/
  claim    : Option (Nat × SinkPar)
  deriving DecidableEq, Repr

def Sink.reset : Sink :=
  { gen := 1, alloc := false, storage := false, bound := false, par := .blank, moving := false, halted := false, cause := 0
    next := 0, last := none, cur := none, buf := none, confirm := none, gapDue := false, faultFirst := 0
    faultSeq := 0, faultPrev := none, draining := none, issued := 0, dupUpTo := none, queues := [], stRegion := none, stTurn := 0, stNext := 0
    flushing := none, ctNext := 0, claim := none }

/-- A DMA channel (R572, R600). -/
structure Dma where
  sink  : Option Nat
  cls   : Nat
  cause : Nat
  kib   : Nat
  bytes : Nat
  deriving DecidableEq, Repr

def Dma.reset : Dma := ⟨none, 0, 0, 0, 0⟩

/-- A record being written through a storage queue: sequence number, first LBA, commands, one failed, rewritten once (R592, R593). -/
structure StoreRec where
  seq   : Nat
  lba   : Nat
  /-- Staging offset in the region. -/
  off   : Nat
  /-- Commands in all, submitted, and completed. -/
  cmds  : Nat
  sent  : Nat
  done  : Nat
  failed : Bool
  again : Bool
  flush : Bool
  tm    : Nat
  len   : Nat
  /-- Its sink has been unbound since: the commands end without a delivery (R599). -/
  gone  : Bool
  deriving DecidableEq, Repr

/-- A storage queue pair (R589–R593). -/
structure StoreQ where
  attached : Bool
  spare    : Bool
  failed   : Bool
  full     : Bool
  sink     : Nat
  par      : BitVec 384
  nextLba  : Nat
  tail     : Nat
  head     : Nat
  phase    : Bool
  outstanding : Nat
  recs     : List StoreRec
  deriving DecidableEq, Repr

def StoreQ.reset : StoreQ := ⟨false, false, false, false, 0, 0, 0, 0, 0, true, 0, []⟩

end Sys2Proof.Machine
end

