-- ==== Sys2Proof/Parts/Sys.lean ====
section
/-! DEFINITION. State of power admission and the power states, Thimble, the pair, security, start-up, the boot flash and the monitor. -/

namespace Sys2Proof.Machine

/-- What a PAU request is for (R602). -/
inductive Need where
  | stack (s : Fin 4) | lanes (n : Nat) | seam | chan (i : Nat) | sweep (u : Nat) | plane (p : Nat) | session (k : Nat) | mp (c : Nat) | darner
  deriving DecidableEq, Repr

/-- A request at the PAU (R606): its need, cost in mW, the ring that waits for it, when it was queued or, for a
spaced one, when its grant is due (ns), whether it waits only for the spacing of R610, and when it joined its queue if it did. -/
structure PowerReq where
  need   : Need
  cost   : Nat
  ring   : Option (Fin 16)
  handle : Handle
  since  : Nat
  spaced : Bool
  queued : Option Nat
  deriving DecidableEq, Repr

/-- The power admission unit, AVS and thermal response (R601–R621, R629–R634). -/
structure Pau where
  budget    : Nat
  /-- A POWER_BUDGET has completed OK since start-up (R630). -/
  budgetSet : Bool
  budgetDef : Word
  queueMs   : Nat
  q0        : List PowerReq
  q1        : List PowerReq
  q2        : List PowerReq
  lastLarge : Option Nat
  /-- Effective budget fixed at entry of the limit state (R618). -/
  limitFix  : Option Nat
  temps     : Vector Int 8
  critSince : Option Nat
  shedAt    : Option Nat
  therm     : Word
  avsCfg    : Word
  avsFault  : Bool
  setpoint  : Nat
  avsFails  : Nat
  avsMoving : Bool
  seamGrant : Nat
  /-- Sealing grants by session, mW (R602). -/
  sealGrant : Vector Nat 16
  stackGrant : Vector Nat 4
  deriving DecidableEq, Repr

def Pau.reset : Pau :=
  { budget := 250000, budgetSet := false, budgetDef := 250000#32, queueMs := 10000, q0 := [], q1 := [], q2 := [], lastLarge := none
    limitFix := none, temps := Vector.replicate 8 0, critSince := none, shedAt := none
    therm := 0x64680300#32, avsCfg := 0x80000040#32, avsFault := false, setpoint := 800, avsFails := 0
    avsMoving := false, seamGrant := 0, sealGrant := Vector.replicate 16 0, stackGrant := Vector.replicate 4 0 }

/-- The power states (R622). -/
inductive PwrSt where
  | active | idle | retain | dormant
  deriving DecidableEq, Repr

/-- Power state, sleep and wake (R622–R632). -/
structure Pwr where
  st        : PwrSt
  entering  : Option PwrSt
  enteredAt : Nat
  l2Timeout : Bool
  wakeCause : BitVec 3
  wakeMask  : BitVec 6
  wakeSec   : BitVec 40
  /-- A SLEEP has taken the device out of ACTIVE since: PLL_S is off while it is IDLE (log entry 16). -/
  slept     : Bool
  deriving DecidableEq, Repr

def Pwr.reset : Pwr := ⟨.idle, none, 0, false, 0, 0, 0, false⟩

/-- State of a Thimble rule (R651). -/
inductive RuleSt where
  | clear | pending (since : Nat) | active
  deriving DecidableEq, Repr

/-- A loaded rule: its 16 bytes, state and count (R651, R658). -/
structure Rule where
  raw   : BitVec 128
  st    : RuleSt
  count : Nat
  deriving DecidableEq, Repr

/-- A Thimble log entry (R656). -/
structure ThimEntry where
  time  : BitVec 64
  kind  : Nat
  rule  : Nat
  input : Nat
  value : BitVec 16
  lost  : Nat
  deriving DecidableEq, Repr

/-- The filter of one monitor input (R647, R648). -/
structure Filt where
  med   : List Int
  iir   : Option Int
  sum   : Int
  cnt   : Nat
  fill  : Nat
  last  : Option Int
  deriving DecidableEq, Repr

def Filt.reset : Filt := ⟨[], none, 0, 0, 0, none⟩

/-- Thimble (R635–R665). -/
structure Thim where
  cfg      : Word
  table    : Vector Word 64
  scan     : Vector Word 5
  gain     : Vector Word 9
  filt     : Vector Word 144
  cmp      : Vector Word 8
  alarmCfg : Word
  wdtCfg   : Word
  rtcTrim  : Word
  /-- RTC, in units of the time base (R661). -/
  rtc      : Nat
  /-- RTC_FRAC as latched by the last read of RTC_SEC (R787). -/
  rtcLatch : Option Word
  wdt1     : Nat
  wdt2     : Nat
  wdtStage : Nat
  /-- Sequencer: entry (or input in scan-mask mode), conversions done of it. -/
  pos      : Nat
  rep      : Nat
  prevInput : Option Nat
  prevGain : Option Nat
  /-- Conversions still to be tagged SETTLING (R648). -/
  settle   : Nat
  restart  : Bool
  /-- Input and gain of the sequenced conversion in progress or next, and the ns at which it starts (R638–R642). -/
  cur      : Nat × Nat
  convAt   : Nat
  /-- Urgent requests that wait, by input (R645), and the one that runs. -/
  urgent   : List Nat
  urgRun   : Option Nat
  repeatDue : Bool
  tripped  : Vector Bool 8
  filters  : Vector Filt 144
  buf      : List Word
  bufWp    : BitVec 16
  rules    : List Rule
  log      : List ThimEntry
  logPending : Nat
  logLost  : Nat
  lostBefore : Nat
  logRegion : Option Nat
  /-- Command ring and log region of each AON_RULES that waits for its buffer (R36, R100). -/
  claims  : List (Nat × Nat)
  urgDrop  : Nat
  rxDrop   : Nat
  rx       : List Byte
  /-- A character was dropped; line ends that are in the FIFO before the line it belonged to (R740). -/
  rxCut    : Option Nat
  aonHours : Nat
  actHours : Nat
  degh     : Int
  above85  : Nat
  above105 : Nat
  cycles   : Vector Nat 6
  age      : Int
  /-- Thermal-cycle detector: last minimum, maximum reached since (R665). -/
  cycMin   : Int
  cycMax   : Option Int
  deriving DecidableEq, Repr

def Thim.reset : Thim :=
  { cfg := 0, table := Vector.replicate 64 0, scan := Vector.replicate 5 0, gain := Vector.replicate 9 0
    filt := Vector.replicate 144 0, cmp := Vector.replicate 8 0, alarmCfg := 0, wdtCfg := 1000#32, rtcTrim := 0
    rtc := 0, rtcLatch := none, wdt1 := 0, wdt2 := 0, wdtStage := 0, pos := 0, rep := 0
    prevInput := none, prevGain := none, settle := 0, restart := false, cur := (0, 0), convAt := 0, urgent := [], urgRun := none
    repeatDue := false, tripped := Vector.replicate 8 false, filters := Vector.replicate 144 .reset
    buf := List.replicate 2048 0, bufWp := 0, rules := [], log := [], logPending := 0, logLost := 0, lostBefore := 0
    logRegion := none, claims := [], urgDrop := 0, rxDrop := 0, rx := [], rxCut := none, aonHours := 0, actHours := 0, degh := 0, above85 := 0
    above105 := 0, cycles := Vector.replicate 6 0, age := 0, cycMin := 0, cycMax := none }

/-- Pair roles (R669). -/
inductive Role where
  | solo | primary | secondary | fenced
  deriving DecidableEq, Repr

/-- State mirrored from the primary (R675). -/
structure Mirror where
  doorbell  : Vector Word 160
  evtRes    : Vector (Option Word) 16
  evtWr     : Vector (Option Word) 16
  bufRes    : Vector (Option Nat) 128
  bufConf   : Vector (Option Nat) 128
  issued    : Vector (Option Nat) 128
  delivered : Vector (Option Nat) 128
  /-- Channels RUNNING and streams open on the primary, with the commands that made them so, kept by a warm secondary (R684). -/
  running   : List (Nat × Desc)
  opened    : List (Nat × Desc)
  /-- Mirrored commands whose ring still carries an earlier one. -/
  late      : List (Op × Desc × List Byte × Handle)
  /-- Commands whose power the secondary still waits for (R674). -/
  waiting   : List (Op × Desc × Handle)
  /-- CMD_DONE records of commands executed with the primary, not confirmed by it, with their event rings (R682). -/
  done      : List (Fin 16 × EvtRecord)
  deriving DecidableEq, Repr

def Mirror.reset : Mirror :=
  { doorbell := Vector.replicate 160 0, evtRes := Vector.replicate 16 none, evtWr := Vector.replicate 16 none
    bufRes := Vector.replicate 128 none, bufConf := Vector.replicate 128 none, issued := Vector.replicate 128 none
    delivered := Vector.replicate 128 none, running := [], opened := [], late := [], waiting := [], done := [] }

/-- The redundant pair (R666–R688). -/
structure Pair where
  role      : Role
  warm      : Bool
  rate      : Bool
  arbWait   : Nat
  peer      : BitVec 64
  width     : Nat
  arb       : Bool
  peerOk    : Bool
  waitArb   : Option Nat
  missed    : Nat
  missedTotal : Nat
  missedRun : Nat
  takeovers : Nat
  authErr   : Nat
  retry     : Nat
  unshadowed : List Handle
  divTag    : BitVec 16
  divOp     : Byte
  divSt     : Byte
  diverged  : Bool
  longest   : Nat
  offsetPs  : Int
  mirror    : Mirror
  lastBeat  : Nat
  trained   : Bool
  /-- The peer's offer agrees with ours (R670). -/
  agreed    : Bool
  /-- Index that a mirrored command must claim, while it runs (R672). -/
  want      : Option Nat
  /-- Channels that have passed an epoch since the join (R686). -/
  passed    : BitVec 128
  /-- Second of the time base at which the offset was sent last (R675). -/
  offsetSec : Nat
  deriving DecidableEq, Repr

def Pair.reset : Pair :=
  { role := .solo, warm := false, rate := false, arbWait := 0, peer := 0, width := 0, arb := false, peerOk := false
    waitArb := none, missed := 0, missedTotal := 0, missedRun := 0, takeovers := 0, authErr := 0
    retry := 0, unshadowed := [], divTag := 0, divOp := 0, divSt := 0, diverged := false, longest := 0, offsetPs := 0
    mirror := .reset, lastBeat := 0, trained := false, agreed := false, want := none, passed := 0, offsetSec := 0 }

/-- Lifecycle (R691). -/
inductive Life where
  | manufacture | unowned | owned | decommissioned
  deriving DecidableEq, Repr

/-- An owner slot (R691). -/
inductive Owner where
  | blank | key (digest : BitVec 384) | void
  deriving DecidableEq, Repr

/-- A journal entry, 80 bytes (R700). -/
structure Journal where
  index  : Nat
  source : Nat
  opcode : Byte
  tag    : BitVec 16
  time   : BitVec 64
  handle : Handle
  digest : BitVec 384
  deriving DecidableEq, Repr

/-- A checkpoint cut and not yet written (R705): kind, time of the cut, first index covered, records since the last, C, the ring that waits. -/
structure Cut where
  kind   : Nat
  time   : BitVec 64
  first  : Nat
  count  : Nat
  chain  : BitVec 384
  ring   : Option (Fin 16)
  deriving DecidableEq, Repr

/-- A seal session (R701–R713). -/
structure Session where
  gen     : Nat
  isOpen  : Bool
  key     : List Byte
  salt    : BitVec 32
  chain   : BitVec 384
  next    : Nat
  enc     : Bool
  region  : Nat
  n       : Nat
  t       : Nat
  rate    : Nat
  number  : Nat
  since   : Nat
  cutAt   : Nat
  cuts    : List Cut
  /-- Checkpoints that fall due while a record is being sealed: they are cut after it (R705). -/
  due     : List (Nat × Option (Fin 16))
  jNext   : Nat
  eph     : List Byte
  recip   : BitVec 384
  sink    : Option Nat
  closing : Bool
  /-- Held by a former secondary that has taken over (R708). -/
  paired  : Bool
  /-- The command ring whose SEAL_OPEN holds the index until its recipient block has come (R64). -/
  claim   : Option Nat
  deriving DecidableEq, Repr

def Session.reset : Session :=
  { gen := 1, isOpen := false, key := [], salt := 0, chain := 0, next := 0, enc := false, region := 0, n := 0, t := 0
    rate := 0, number := 0, since := 0, cutAt := 0, cuts := [], due := [], jNext := 0, eph := [], recip := 0, sink := none
    closing := false, paired := false, claim := none }

/-- The security unit (R689–R717). -/
structure Sec where
  life     : Life
  owners   : Vector Owner 8
  step     : Nat
  sessions : Vector Session 16
  journal  : List Journal
  head     : BitVec 384
  jNext    : Nat
  /-- Register writes that coalesce into one entry: offsets and new values, and the ns of the last (R699). -/
  jRegs    : List (Nat × Word)
  jRegAt   : Nat
  /-- A token's grant: permission mask and expiry, ns (R715). -/
  debugTok : Option (Byte × Nat)
  /-- Challenges issued and not used, with the ns of issue (R692, R746). -/
  challenges : List (BitVec 256 × Nat)
  monBlock : Option Nat
  draws    : Nat
  deriving DecidableEq, Repr

def Sec.reset : Sec :=
  { life := .unowned, owners := Vector.replicate 8 .blank, step := 0, sessions := Vector.replicate 16 .reset
    journal := [], head := 0, jNext := 0, jRegs := [], jRegAt := 0, debugTok := none, challenges := [], monBlock := none, draws := 0 }

/-- Whether the logic die runs (R721, R722, R731, R146). -/
inductive Die where
  | held | booting | serving
  deriving DecidableEq, Repr

/-- Start-up (R718–R736). -/
structure Boot where
  die        : Die
  ready      : Bool
  image      : Bool
  fallback   : Bool
  storeDisc  : Bool
  committed  : Bool
  attempts   : Nat
  hbmFailed  : BitVec 4
  bootMs     : BitVec 16
  failed     : Nat
  tryOther   : Bool
  porLow     : Bool
  xtal32     : Bool
  /-- The crystal monitor finds the 50 MHz crystal running (R146). -/
  xtal50     : Bool
  /-- The safe state is in force (R146), entered by heat (R621). -/
  safe       : Bool
  safeByHeat : Bool
  /-- Keep the error log across this restart (R551). -/
  keepLog    : Bool
  /-- Calibration sets restored at this start-up (R735). -/
  calSets    : List StoredCal
  deriving DecidableEq, Repr

def Boot.reset : Boot :=
  { die := .booting, ready := false, image := false, fallback := false, storeDisc := false, committed := false
    attempts := 0, hbmFailed := 0, bootMs := 0, failed := 0, tryOther := false, porLow := false, xtal32 := true, xtal50 := true
    safe := false, safeByHeat := false, keepLog := false, calSets := [] }

/-- A boot-flash descriptor copy (R729). -/
structure FlashDesc where
  valid  : Bool
  slotB  : Bool
  count  : Word
  deriving DecidableEq, Repr

/-- The boot flash and its block (R727–R732, R788). -/
structure Flash where
  /-- Programmed bits: each byte as its complement, so that an erased byte (0xFF) is not listed; canonical as the HBM's. -/
  mem    : List Host.Cell
  desc0  : FlashDesc
  desc1  : FlashDesc
  op     : BitVec 3
  addr   : Word
  buf    : Vector Word 64
  busy   : Bool
  denied : Bool
  err    : Bool
  /-- The operation in progress: 1–3 as OP, 4 a descriptor write, with its address or, for a descriptor, its slot. -/
  run    : Option (Nat × Nat)
  /-- The page that a program in progress writes, as FLASH_BUF held it at GO. -/
  page   : Vector Word 64
  deriving DecidableEq, Repr

def Flash.reset : Flash :=
  { mem := [], desc0 := ⟨true, false, 0⟩, desc1 := ⟨false, false, 0⟩, op := 0, addr := 0, buf := Vector.replicate 64 0
    busy := false, denied := false, err := false, run := none, page := Vector.replicate 64 0 }

/-- The serial monitor (R737–R747). -/
structure Mon where
  cfg     : Word
  line    : List Byte
  tooLong : Bool
  token   : Option (List Byte)
  deriving DecidableEq, Repr

def Mon.reset : Mon := ⟨0xC0000000#32, [], false, none⟩

/-- Identity (Set-up registers, Identity; fused). -/
structure Ident where
  /-- TL7064-HB (R2, R3). -/
  small    : Bool
  stepping : Byte
  serial   : BitVec 64
  fw       : Word
  secVer   : Nat
  deriving DecidableEq, Repr

def Ident.reset : Ident := ⟨false, 0, 0, 0, 0⟩

/-- REG_ERR (R778, R779, R805). -/
structure RegErr where
  badWidth : Bool
  unmapped : Bool
  badValue : Bool
  offset   : BitVec 24
  deriving DecidableEq, Repr

def RegErr.reset : RegErr := ⟨false, false, false, 0⟩

end Sys2Proof.Machine
end

