-- ==== Sys2Proof/Machine/State.lean ====
section
/-! DEFINITION. The machine state: everything the manual gives the block, the queue of commands that wait, and the reset state. -/

namespace Sys2Proof.Machine

/-- The state of the TL7128. `pending` is the queue of commands, first in, first out; `free` counts the free values already
taken and `now` the ns since reset (the model's own fields, log entries 2 and 3). -/
structure State where
  pending : List Instr
  free    : Nat
  now     : Nat
  io      : Io
  ident   : Ident
  boot    : Boot
  regErr  : RegErr
  pins    : Pins
  clk     : Clk
  time    : TimeBase
  lanes   : Vector Lane 64
  eye     : Eye
  streams : Vector Stream 32
  chans   : Vector Chan 128
  /-- Channels created so far (R620). -/
  created : Nat
  planes  : Vector Plane 8
  drives  : Vector Drive 4
  groups  : Vector Group 64
  sweeps  : Vector Sweep 2
  acqs    : Vector Acq 128
  mps     : Vector Mp 16
  hbm     : Hbm
  regions : Vector Region 256
  integ   : Integ
  store   : Store
  sinks   : Vector Sink 128
  dma     : Vector Dma 64
  storeQ  : Vector StoreQ 32
  pau     : Pau
  pwr     : Pwr
  thim    : Thim
  pair    : Pair
  sec     : Sec
  flash   : Flash
  mon     : Mon
  deriving DecidableEq, Repr

/-- The machine right after reset: the logic die is starting, nothing is served yet (R731, R733), and every field is at the value the
manual states for reset or the assumption log names. -/
def State.reset : State :=
  { pending := [], free := 0, now := 0, io := .reset, ident := .reset, boot := .reset, regErr := .reset, pins := .reset
    clk := .reset, time := .reset, lanes := Vector.replicate 64 .reset, eye := .reset
    streams := Vector.replicate 32 .reset, chans := Vector.replicate 128 .reset, created := 0
    planes := Vector.replicate 8 .reset, drives := Vector.replicate 4 .reset, groups := Vector.replicate 64 .reset
    sweeps := Vector.replicate 2 .reset, acqs := Vector.replicate 128 .reset, mps := Vector.replicate 16 .reset
    hbm := .reset, regions := Vector.replicate 256 .reset, integ := .reset, store := .reset
    sinks := Vector.replicate 128 .reset, dma := Vector.replicate 64 .reset, storeQ := Vector.replicate 32 .reset
    pau := .reset, pwr := .reset, thim := .reset, pair := .reset, sec := .reset, flash := .reset, mon := .reset }

/-- Why a step stops with a fault. -/
inductive Fault where
  /-- Raised by a meaning given operands that no instance of the event can carry (see WellFormed): an opcode of the table in
  BAD_OPCODE, say. Safe: no hardware event is cut off. -/
  | illFormed
  deriving DecidableEq, Repr

/-- Why a step is refused. -/
inductive Refusal where
  /-- Answered by the dispatcher for a row without a meaning. Safe. -/
  | notModelled (mnemonic : String)
  deriving DecidableEq, Repr

end Sys2Proof.Machine
end

