-- ==== Sys2Proof/Machine/Ops.lean ====
section
/-! DEFINITION. The shared operations: outputs, event records and moderation, handles, the journal, HBM bytes, accepting and
completing commands (manual chapter Rings, doorbells and handles; R699, R700; R514–R525). -/

namespace Sys2Proof.Machine

/-- Status codes of CMD_DONE (R106). -/
inductive Status where
  | ok | badOpcode | badHandle | badParam | resourceBusy | noCapacity | powerDenied | powerQueued | wrongState | notStopped
  | authFailed | pairFenced | memFault | pinNotAssigned | timeout | internal
  deriving DecidableEq, Repr

def Status.code : Status → Nat
  | .ok => 0 | .badOpcode => 1 | .badHandle => 2 | .badParam => 3 | .resourceBusy => 4 | .noCapacity => 5
  | .powerDenied => 6 | .powerQueued => 7 | .wrongState => 8 | .notStopped => 9 | .authFailed => 10
  | .pairFenced => 11 | .memFault => 12 | .pinNotAssigned => 13 | .timeout => 14 | .internal => 15

def statusTable : List Status :=
  [.ok, .badOpcode, .badHandle, .badParam, .resourceBusy, .noCapacity, .powerDenied, .powerQueued, .wrongState,
   .notStopped, .authFailed, .pairFenced, .memFault, .pinNotAssigned, .timeout, .internal]

def Status.ofCode (c : Nat) : Status := (statusTable[c]?).getD .internal

/-! ### Free values -/

/-- A free value (log entry 2): the next one, and the state that has taken it. -/
def State.freeTake (s : State) : BitVec 64 × State := (Config.freeValue s.free, { s with free := s.free + 1 })

/-! ### Time and outputs -/

/-- PLL_S is locked or coasting (R804). -/
def State.pllOk (s : State) : Bool := s.clk.lock || s.clk.coast

/-- Time of the time base in the format of R74. -/
def State.time74 (s : State) : BitVec 64 := timeR74 s.time.tb

/-- The count of the clock over n ns at a frequency `ppb` off nominal. -/
def TimeBase.step (t : TimeBase) (n : Nat) (ppb : Int) : TimeBase :=
  let due := n * unitNs * (1000000000 + ppb).toNat + t.frac
  let u := due / 1000000000
  { t with tb := t.tb + u, run := t.run + u, frac := due % 1000000000 }

/-- Units that the RTC counts in n ns: its crystal at nominal, corrected by RTC_TRIM in 0.1 ppb (R661, log entry 90). -/
def Thim.rtcRun (t : Thim) (n : Nat) : Nat := n * unitNs * (10000000000 + sx 32 t.rtcTrim.toNat).toNat / 10000000000

/-- n ns pass on the time base, at the actual PLL_S frequency, and on the RTC (R803, R661). -/
def State.pass (s : State) (n : Nat) : State :=
  { s with
    now := s.now + n, time := s.time.step n s.clk.ratePpb
    thim := { s.thim with rtc := s.thim.rtc + s.thim.rtcRun n } }

def State.emit (s : State) (e : Emission) : State := { s with io := { s.io with out := s.io.out ++ [e] } }

def Io.emit (io : Io) (e : Emission) : Io := { io with out := io.out ++ [e] }

/-- Traffic takes a port's link out of L1 (R569). -/
def Io.leaveL1 (io : Io) (port : Nat) : Io := { io with ports := upd io.ports port fun p => { p with l1 := false } }

/-- A write through a port: sent, or waiting while the link is down (R799). -/
def Io.write (io : Io) (port : Nat) (addr : Nat) (bytes : List Byte) (relaxed : Bool) : Io :=
  let e := Emission.hostWrite (Fin.ofNat 2 port) addr bytes relaxed
  if (nth io.ports port .reset).linkUp then (io.leaveL1 port).emit e
  else { io with ports := upd io.ports port fun p => { p with waiting := p.waiting ++ [.write e] } }

/-! ### Event records (R74, R79–R81, R84, R85) -/

/-- The 32 bytes of a record with count i in a ring of 2^k entries (R50, R74, R75). -/
def evtBytes (k : Nat) (i : Nat) (r : EvtRecord) : List Byte :=
  pack [(2, r.code.toNat), (1, r.sev.toNat + 128 * b2n r.lost), (1, r.cls.toNat), (4, r.handle.toNat), (8, r.time.toNat),
        (12, r.data.toNat), (4, i % 2 ^ 31 + 2 ^ 31 * (1 - i / 2 ^ k % 2))]

/-- Send a vector's message, or set its pending bit while it is masked (R785). -/
def Io.message (io : Io) (port : Fin 2) (v : Nat) : Io :=
  let e := nth (nth io.ports port.val .reset).msix v 0
  if e.getLsbD 96 then { io with ports := upd io.ports port.val fun p => { p with pba := setBit p.pba v true } }
  else io.emit (.msix port v (e.setWidth 64) ((e >>> 64).setWidth 32))

/-- Signal an event ring's vector: send its message, or hold it while the link is down, one for each vector (R84, R785, R799). -/
def Io.signal (io : Io) (n : Nat) : Io :=
  let r := nth io.evt n .reset
  let io := { io with evt := upd io.evt n fun r => { r with unsig := 0 } }
  if !(nth io.ports r.port.val .reset).linkUp then
    { io with ports := upd io.ports r.port.val fun p =>
        { p with heldMsi := setBit p.heldMsi r.vector.toNat true } }
  else io.message r.port r.vector.toNat

/-- Records of an event ring that moderation must signal now (R84). -/
def EvtRing.signals (r : EvtRing) : Bool := 0 < r.unsig && (r.timer = 0 || decide (r.count.toNat ≤ r.unsig))

/-- Write a record to its ring: the host write, the counts, LOST, the last 16, and interrupt moderation. -/
def Io.evtWrite (io : Io) (n : Nat) (rec : EvtRecord) : Io :=
  let r := nth io.evt n .reset
  let rec' := { rec with lost := rec.lost || r.lostNext }
  let i := r.written.toNat
  let io := io.leaveL1 r.port.val
  let io := if io.mirrors then io.emit (.seam (.evtReserved (Fin.ofNat 16 n) r.written)) else io
  let io := io.emit (.hostWrite r.port (r.base.toNat + 32 * (i % 2 ^ r.size)) (evtBytes r.size i rec') false)
  let io := if io.mirrors then io.emit (.seam (.evtWritten (Fin.ofNat 16 n) r.written)) else io
  let io := { io with evt := upd io.evt n fun r =>
    { r with written := r.written + 1, lostNext := false, unsig := r.unsig + 1
             recent := (r.recent ++ [rec']).drop ((r.recent.length + 1) - 16) } }
  if (nth io.evt n .reset).signals || rec.sev.toNat ≥ 3 then io.signal n else io

/-- A ring has room for a record: enabled, link up, i − q < size (R79, R799). -/
def Io.evtRoom (io : Io) (n : Nat) : Bool :=
  let r := nth io.evt n .reset
  r.en && (nth io.ports r.port.val .reset).linkUp && (r.written - r.consumed).toNat < 2 ^ r.size

/-- Write waiting records while there is room (R59, R79). -/
def Io.evtDrain : (fuel : Nat) → (io : Io) → (n : Nat) → Io
  | 0, io, _ => io
  | k + 1, io, n =>
    match (nth io.evt n .reset).held with
    | [] => io
    | rec :: rest =>
      if io.evtRoom n then
        Io.evtDrain k ({ io with evt := upd io.evt n fun r => { r with held := rest } }.evtWrite n rec) n
      else io

/-- Entries of a holding queue neither occupied nor reserved (R80). -/
def EvtRing.free (r : EvtRing) : Nat := 64 - (r.held.length + r.reserved)

/-- Post an event other than CMD_DONE to a ring: write it, hold it, or drop and count it (R79, R81, R784). -/
def Io.evtPost (io : Io) (n : Nat) (rec : EvtRecord) : Io :=
  let r := nth io.evt n .reset
  if r.held = [] && io.evtRoom n then io.evtWrite n rec
  else if r.en && 0 < r.free then { io with evt := upd io.evt n fun r => { r with held := r.held ++ [rec] } }
  else { io with evt := upd io.evt n fun r => { r with lost := satN 65535 (r.lost + 1), lostNext := true } }

/-- Post a CMD_DONE: write it, or let it occupy the entry reserved for it (R80). -/
def Io.donePost (io : Io) (n : Nat) (rec : EvtRecord) : Io :=
  let r := nth io.evt n .reset
  let io := { io with evt := upd io.evt n fun r => { r with reserved := r.reserved - 1 } }
  if r.held = [] && io.evtRoom n then io.evtWrite n rec
  else { io with evt := upd io.evt n fun r => { r with held := r.held ++ [rec] } }

/-- Event data bytes 0x10–0x1B from its fields. -/
def evtData (l : List (Nat × Nat)) : BitVec 96 := BitVec.ofNat 96 (leNat (pack l))

/-- The device serves its rings: firmware runs and the power state is ACTIVE or IDLE (R622, R734). -/
def State.serving (s : State) : Bool :=
  s.boot.ready && s.boot.die == .serving && (s.pwr.st == .active || s.pwr.st == .idle)

/-- Debug access is open (R715, R717). -/
def State.debugOpen (s : State) : Bool :=
  match s.sec.life with
  | .unowned | .decommissioned => true
  | .owned => s.sec.debugTok.isSome
  | .manufacture => false

/-- A secondary that shadows its primary (R669, R677). -/
def State.hotSecondary (s : State) : Bool := s.pair.role == .secondary && !s.pair.warm

/-- No TRIG_IO output is driven: a hot secondary, a FENCED device (R677, R681). -/
def State.muted (s : State) : Bool := s.hotSecondary || s.pair.role == .fenced

/-- The record of an event. -/
def evtRecord (code cls sev : Nat) (h : Handle) (time : BitVec 64) (data : List (Nat × Nat)) : EvtRecord :=
  { code := BitVec.ofNat 16 code, sev := BitVec.ofNat 3 sev, lost := false, cls := BitVec.ofNat 8 cls, handle := h
    time := time, data := evtData data }

/-- Raise an event of a class: routed by EVT_ROUTE (R78). A hot secondary writes none (R677); a device that serves no rings raises none (R655). -/
def State.raise (s : State) (code cls sev : Nat) (h : Handle) (time : BitVec 64) (data : List (Nat × Nat)) : State :=
  if s.serving && !s.hotSecondary then
    { s with io := s.io.evtPost (nth s.io.route cls 0).val (evtRecord code cls sev h time data) }
  else s

/-- Post an event that follows the writes waiting for port p (R88): on a ring of p it comes after them in any case; on a ring of the other port
it waits with them. -/
def Io.evtAfter (io : Io) (p n : Nat) (r : EvtRecord) : Io :=
  let x := nth io.ports p .reset
  if x.linkUp || x.waiting.isEmpty || (nth io.evt n .reset).port.val = p then io.evtPost n r
  else { io with ports := upd io.ports p fun x => { x with waiting := x.waiting ++ [.event (Fin.ofNat 16 n) r] } }

/-- Raise an event that describes a write through port p, at the present time. -/
def State.raiseAfter (s : State) (p code cls sev : Nat) (h : Handle) (data : List (Nat × Nat)) : State :=
  if s.serving && !s.hotSecondary then
    { s with io := s.io.evtAfter p (nth s.io.route cls 0).val (evtRecord code cls sev h s.time74 data) }
  else s

/-- A port of the part (R3). -/
def State.hasPort (s : State) (p : Nat) : Bool := p = 0 || !s.ident.small

/-- Raise an event at the present time. -/
def State.event (s : State) (code cls sev : Nat) (h : Handle) (data : List (Nat × Nat)) : State :=
  s.raise code cls sev h s.time74 data

/-! ### Handles (R91–R93) -/

def mkHandle (kind gen idx : Nat) : Handle := BitVec.ofNat 32 (kind * 2 ^ 24 + gen % 2 ^ 16 * 2 ^ 8 + idx % 256)

/-- The next generation of a freed index (R92). -/
def nextGen (g : Nat) : Nat := if g ≥ 65535 then 1 else g + 1

def hIdx (h : Handle) : Nat := h.toNat % 256

/-- Kind, generation and allocation of an index: what R93 compares. Indices beyond the part (R91) are not there. -/
def State.objGen (s : State) (kind idx : Nat) : Option Nat :=
  match kind with
  | 1 => if idx < 32 then let x := nth s.streams idx .reset; if x.st = .free then none else some x.gen else none
  | 2 => if idx < (if s.ident.small then 64 else 128) then
           let x := nth s.chans idx .reset; if x.st = .empty then none else some x.gen else none
  | 3 => if idx < 256 then let x := nth s.regions idx .reset; if x.alloc then some x.gen else none else none
  | 4 => if idx < 128 then let x := nth s.sinks idx .reset; if x.alloc then some x.gen else none else none
  | 5 => if idx < 64 then let x := nth s.groups idx .reset; if x.alloc then some x.gen else none else none
  | 6 => if idx < (if s.ident.small then 1 else 2) then
           let x := nth s.sweeps idx .reset; if x.claimed then some x.gen else none else none
  | 7 => if idx < 16 then let x := nth s.mps idx .reset; if x.st = .empty then none else some x.gen else none
  | 8 => if idx < 16 then let x := nth s.sec.sessions idx .reset; if x.isOpen then some x.gen else none else none
  | _ => none

/-- A handle passes R93 for a kind. -/
def State.valid (s : State) (kind : Nat) (h : Handle) : Bool :=
  match s.objGen kind (hIdx h) with
  | some g => h == mkHandle kind g (hIdx h)
  | none => false

/-- The present handle of an index. -/
def State.handleOf (s : State) (kind idx : Nat) : Handle :=
  let g := match kind with
    | 1 => (nth s.streams idx .reset).gen
    | 2 => (nth s.chans idx .reset).gen
    | 3 => (nth s.regions idx .reset).gen
    | 4 => (nth s.sinks idx .reset).gen
    | 5 => (nth s.groups idx .reset).gen
    | 6 => (nth s.sweeps idx .reset).gen
    | 7 => (nth s.mps idx .reset).gen
    | _ => (nth s.sec.sessions idx .reset).gen
  mkHandle kind g idx

/-- The handle field passes R64 and R93. -/
def State.handleOk (s : State) (op : Op) (h : Handle) : Bool :=
  match op.handleRule with
  | .zero | .alloc => h == 0
  | .kind k => s.valid k h
  | .allocOr k => h == 0 || s.valid k h

/-- The first index that a test allows, in ascending order. -/
def firstIdx (n : Nat) (p : Nat → Bool) : Option Nat := (List.range n).find? p

/-- The index an allocating command claims: the lowest free one; for a mirrored command the primary's (R91, R672). -/
def State.claimIdx (s : State) (n : Nat) (p : Nat → Bool) : Option Nat :=
  match s.pair.want with
  | some i => if i < n && p i then some i else none
  | none => firstIdx n p

/-! ### The configuration journal (R699, R700) -/

def Journal.bytes (e : Journal) : List Byte :=
  pack [(4, e.index), (1, e.source), (1, e.opcode.toNat), (2, e.tag.toNat), (8, e.time.toNat), (4, e.handle.toNat), (4, 0),
        (48, e.digest.toNat), (8, 0)]

/-- Append an entry. -/
def State.journalAdd (s : State) (source : Nat) (opcode : Byte) (tag : BitVec 16) (h : Handle) (digest : BitVec 384) : State :=
  let e : Journal := ⟨s.sec.jNext, source, opcode, tag, s.time74, h, digest⟩
  { s with sec := { s.sec with
      journal := (s.sec.journal ++ [e]).drop ((s.sec.journal.length + 1) - 65536)
      head := Config.sha384 ((if s.sec.jNext = 0 then [] else le 48 s.sec.head.toNat) ++ e.bytes)
      jNext := s.sec.jNext + 1 } }

/-- The entry of the register writes that have come within 1 ms of each other is due 1 ms after the last (R699). -/
def State.journalRegs (s : State) : State :=
  if s.sec.jRegs.isEmpty || s.now < s.sec.jRegAt + 1000000 then s
  else
    let s := s.journalAdd 1 0xFF 0 0 (Config.sha384 (s.sec.jRegs.flatMap fun w => le 4 w.2.toNat))
    { s with sec := { s.sec with jRegs := [] } }

/-- A register write to journal (R699). -/
def State.journalReg (s : State) (off : Nat) (v : Word) : State :=
  let s := s.journalRegs
  { s with sec := { s.sec with jRegs := s.sec.jRegs ++ [(off, v)], jRegAt := s.now } }

/-- Journal an entry, after the one of earlier register writes that is due. -/
def State.journal (s : State) (source : Nat) (opcode : Byte) (tag : BitVec 16) (h : Handle) (digest : BitVec 384) : State :=
  s.journalRegs.journalAdd source opcode tag h digest

/-! ### HBM bytes (R514–R525) -/

namespace Mem

/-- Read a byte: what is listed, else 0 (log entry 10). -/
def read : List Host.Cell → Nat → Byte
  | [], _ => 0
  | (a, b) :: r, x => if a = x then b else read r x

/-- Write a byte, keeping addresses rising and no listed zero. -/
def write : List Host.Cell → Nat → Byte → List Host.Cell
  | [], x, v => if v = 0 then [] else [(x, v)]
  | (a, b) :: r, x, v =>
    if x < a then (if v = 0 then (a, b) :: r else (x, v) :: (a, b) :: r)
    else if x = a then (if v = 0 then r else (a, v) :: r)
    else (a, b) :: write r x v

/-- The canonical form: addresses strictly rising, no zero byte listed. -/
def wf : List Host.Cell → Bool
  | [] => true
  | (a, b) :: r => b != 0 && (match r with | [] => true | (a', _) :: _ => decide (a < a')) && wf r

/-- Write bytes at consecutive addresses. -/
def writes : List Host.Cell → Nat → List Byte → List Host.Cell
  | m, _, [] => m
  | m, x, b :: bs => writes (write m x b) (x + 1) bs

def reads (m : List Host.Cell) (x n : Nat) : List Byte := (List.range n).map fun i => read m (x + i)

/-- Remove every byte of [lo, hi): zeroed memory (R520). -/
def clear (m : List Host.Cell) (lo hi : Nat) : List Host.Cell := m.filter fun c => c.1 < lo || hi ≤ c.1

end Mem

def granuleBytes : Nat := 2 ^ 21

/-- Device byte address of a region's byte offset (R514, Regions). -/
def Region.addr (r : Region) (o : Nat) : Nat :=
  (r.granules[o / granuleBytes]?).getD 0 * granuleBytes + o % granuleBytes

def Region.bytes (r : Region) : Nat := r.granules.length * granuleBytes

/-- Write bytes at a region offset, byte by byte through the granule list; a stack out of service discards them (R535). -/
def writeRegion (failed : BitVec 4) (r : Region) : (m : List Host.Cell) → (o : Nat) → List Byte → List Host.Cell
  | m, _, [] => m
  | m, o, b :: bs =>
    let x := r.addr o
    writeRegion failed r (if failed.getLsbD (x / granuleBytes / 12288) then m else Mem.write m x b) (o + 1) bs

def readRegion (m : List Host.Cell) (r : Region) (o n : Nat) : List Byte :=
  (List.range n).map fun i => Mem.read m (r.addr (o + i))

/-- Codeword index of a device byte address (R540, R544). -/
def codeword (x : Nat) : Nat := x / 32

/-- Poisoned codewords among n bytes of a region (R542). -/
def poisonedIn (s : State) (r : Region) (o n : Nat) : List Nat :=
  s.integ.poison.filter fun c => (List.range (ceilDiv (n + 31) 32 + 1)).any fun i =>
    decide (o + 32 * i < o + n + 32) && c == codeword (r.addr (min (o + 32 * i) (o + n - 1)))

/-! ### Accepting and completing commands (R63–R73, R80, R93, R671) -/

def State.cmdRing (s : State) (r : Nat) : CmdRing := nth s.io.cmd r .reset

def State.setInflight (s : State) (r : Nat) (f : Option Inflight → Option Inflight) : State :=
  { s with io := { s.io with cmd := upd s.io.cmd r fun c => { c with inflight := f c.inflight } } }

/-- The port of the command in flight on a ring (R62). -/
def State.flightPort (s : State) (r : Nat) : Fin 2 := ((s.cmdRing r).inflight.map fun f => f.port).getD (s.cmdRing r).port

/-- Some command ring has a command whose final completion is due. -/
def State.anyInflight (s : State) : Bool := s.io.cmd.toList.any fun c => c.inflight.isSome

/-- Commands each device executes from its own rings (R671). -/
def unmirrored (s : State) (op : Op) (d : Desc) : Bool :=
  match op with
  | .nop | .devInfo | .powerQuery | .logRead | .logClear | .memRetire | .storeQueueAttach | .pairJoin | .pairRole | .pairStatus => true
  | .sinkBind => d.u 0x0C 1 == 1 && (nth s.sinks (hIdx d.handle) .reset).storage
  | _ => false

/-- Firmware can accept the ring's next descriptor (R69, R70, R80, R546, R723). -/
def State.canAccept (s : State) (r : Nat) (op : Op) (d : Desc) : Bool :=
  let c := s.cmdRing r
  s.serving && c.en && c.inflight.isNone &&
  decide (2 ≤ (nth s.io.evt c.evt.val .reset).free) &&
  (match s.io.fence with | none => true | some f => f.ring.val == r) &&
  (!d.fence || !s.anyInflight) &&
  (!(s.pair.role == .primary && !unmirrored s op d) ||
    !(s.io.cmd.toList.any fun c => match c.inflight with | some f => f.stage == .mirror | none => false))

/-- Acceptance: the two reserved entries, the fence, the order of acceptance, the ring's turn (R69, R72, R80). -/
def State.accept (s : State) (r : Nat) (op : Op) (d : Desc) : State :=
  let c := s.cmdRing r
  let f : Inflight :=
    { op := op, d := d, stage := .point, handle := d.handle, interim := false, owed := 2, since := s.now, buffer := [], asks := (0, 0)
      order := s.io.accepted, evt := c.evt, port := c.port, wb := c.wb, back := true }
  { s with io := { s.io with
      rr := Fin.ofNat 16 r
      cmd := upd s.io.cmd r fun c => { c with inflight := some f }
      evt := upd s.io.evt c.evt.val fun e => { e with reserved := e.reserved + 2 }
      accepted := s.io.accepted + 1
      fence := if d.fence then some ⟨Fin.ofNat 16 r, s.io.accepted⟩ else s.io.fence } }

/-- A mirrored command in execution on a secondary: no entries are reserved for it, nothing is written for it (R672, R677). -/
def shadowed (op : Op) (d : Desc) (h : Handle) (stage : Stage) (data : List Byte) (s : State) : Inflight :=
  let c := s.cmdRing d.ring.val
  { op := op, d := d, stage := stage, handle := h, interim := true, owed := 0, since := s.now, buffer := data, asks := (0, 0), order := 0
    evt := c.evt, port := c.port, wb := c.wb, back := true }

/-- The event data of CMD_DONE (R77). -/
def doneRecord (r : Nat) (op : Op) (d : Desc) (st : Status) (a b : Nat) (h : Handle) (t : BitVec 64) : EvtRecord :=
  { code := 1, sev := if st = .ok || st = .powerQueued then 0 else 2, lost := false, cls := 0, handle := h, time := t
    data := evtData [(2, d.tag.toNat), (1, op.code.toNat), (1, st.code), (1, r), (1, 0), (2, a % 65536), (4, b % 2 ^ 32)] }

/-- The interim completion POWER_QUEUED (R68, R73). -/
def State.interim (s : State) (r : Nat) : State :=
  match (s.cmdRing r).inflight with
  | none => s
  | some f =>
    if f.interim then s else
    let s := s.setInflight r fun _ => some { f with interim := true, owed := f.owed - 1 }
    if f.owed = 0 then s else
    { s with io := s.io.donePost f.evt.val (doneRecord r f.op f.d .powerQueued 0 0 f.handle s.time74) }

/-- The final completion: the consumer count and its write-back (R55), CMD_DONE where R73 asks for it (a mirrored command of a secondary keeps
it for a takeover, R682), the end of the reservation, the journal entry of an OK command (R699), the end of a FENCE (R69). A ring disabled
since still writes its count back; a ring enabled anew since counts from 0 and does not (log entry 58). The word goes out before the record:
DEDUCED from R88 (log entry 59). -/
def State.complete (s : State) (r : Nat) (st : Status) (a b : Nat) (h : Handle) : State :=
  match (s.cmdRing r).inflight with
  | none => s
  | some f =>
    let c := s.cmdRing r
    let post := f.d.eventOnDone || (st != .ok && st != .powerQueued) || f.interim
    let mine := f.owed != 0
    let rec' := doneRecord r f.op f.d st a b h s.time74
    let io := if f.back && mine && !c.old then s.io.write f.port.val f.wb.toNat (le 4 (c.cons + 1).toNat) false else s.io
    let io := if post && mine then io.donePost f.evt.val rec' else io
    let io := { io with
      evt := upd io.evt f.evt.val fun e => { e with reserved := e.reserved - (f.owed - b2n post) }
      cmd := upd io.cmd r fun c => { c with inflight := none, old := false, cons := if c.old then c.cons else c.cons + 1 }
      fence := match io.fence with | some x => if x.ring.val = r then none else io.fence | none => none }
    let s := { s with io := io }
    let s := if post && !mine then
        { s with pair := { s.pair with mirror := { s.pair.mirror with done := s.pair.mirror.done ++ [(f.evt, rec')] } } }
      else s
    if st = .ok && !f.op.unjournalled then
      let read := if f.op = .sealOpen then f.buffer.take (f.d.u 0x10 4) else f.buffer
      s.journal 0 f.op.code f.d.tag h (Config.sha384 (le 64 (encodeDesc f.op f.d).toNat ++ read))
    else s

/-- What a command's body decides. `done` carries the state with the command's effect (used when the status is OK); `wait` leaves the final
completion to a later event; `need` asks the PAU and goes on with `k` when the grant is made at once. -/
inductive Verdict where
  | done (st : Status) (a b : Nat) (h : Handle) (s : State)
  | wait (stage : Stage) (h : Handle) (s : State)
  | need (n : Need) (cls cost : Nat) (h : Handle) (s : State) (k : State → Verdict)

/-- A completion with a status other than OK: no effect (R72). -/
def fail (st : Status) (d : Desc) (s : State) : Verdict := .done st 0 0 d.handle s

/-- Checks before a command's own (R67, R93, R669, R671). -/
def precheck (op : Op) (d : Desc) (s : State) : Option Status :=
  match op with
  | .bad _ => some .badOpcode
  | _ =>
    if s.pair.role = .fenced && !unmirrored s op d then some .pairFenced
    else if s.pair.role = .secondary && !unmirrored s op d then some .wrongState
    else if !s.handleOk op d.handle then some .badHandle
    else none

end Sys2Proof.Machine
end

