-- ==== Sys2Proof/Machine/Operands.lean ====
section
/-! DEFINITION. Operand forms: fields of a descriptor with their ranges, host buffers and result blocks, and the record header
(R16, R65, R66, R459, R464). -/

namespace Sys2Proof.Machine

/-- A signed field of n bytes at descriptor offset o. -/
def dInt (d : Desc) (o n : Nat) : Int := sx (8 * n) (d.u o n)

/-- A bit of the byte at o. -/
def dBit (d : Desc) (o i : Nat) : Bool := bit (d.u o 1) i

/-- A bus address with its length: aligned to `k`, and not past 2^64 (R66). -/
def addrOk (a len k : Nat) : Bool := a % k == 0 && a + len ≤ 2 ^ 64

/-- v in [lo, hi]. -/
def inR (v lo hi : Nat) : Bool := lo ≤ v && v ≤ hi

def inZ (v lo hi : Int) : Bool := lo ≤ v && v ≤ hi

/-- Send the read request for the host buffer of the command in flight on a ring; with the link down it goes out when the link returns
(R65, R799). -/
def State.askBuffer (s : State) (r : Nat) : State :=
  let p := s.flightPort r
  match (s.cmdRing r).inflight with
  | some f =>
    if (nth s.io.ports p.val .reset).linkUp then { s with io := (s.io.leaveL1 p.val).emit (.hostRead p f.asks.1 f.asks.2) } else s
  | none => s

/-- Ask for a command's host buffer through its ring's port (R65). -/
def readBuffer (d : Desc) (addr len : Nat) (s : State) : Verdict :=
  .wait .hostRead d.handle
    ((s.setInflight d.ring.val (Option.map fun f => { f with asks := (addr, len) })).askBuffer d.ring.val)

/-- Write a result block through the ring's port and complete OK (R66); with the link down the command waits, and writes its block when
the link returns (R799). -/
def result (d : Desc) (addr : Nat) (bytes : List Byte) (a b : Nat) (s : State) : Verdict :=
  let p := (s.flightPort d.ring.val).val
  if (nth s.io.ports p .reset).linkUp then .done .ok a b d.handle { s with io := s.io.write p addr bytes false }
  else .wait .linkDown d.handle s

/-! ### The record (R459–R465) -/

/-- What a record's header holds, but for what the formatter adds. `time` is in 2^-32 s of TAI. -/
structure Hdr where
  source  : Handle
  kind    : Nat
  fmt     : Nat
  seg     : Nat
  time    : Nat
  idx     : Nat
  flags   : Flags
  trig    : Option Nat
  cause   : BitVec 32
  pre     : Nat
  cgen    : Nat
  fgen    : Nat
  journal : Nat
  level   : Nat
  log2d   : Nat
  exp     : Nat
  hop     : Nat
  nco     : Int
  fs      : Nat
  unit    : Nat
  mode    : Nat
  ignored : Nat
  deriving DecidableEq, Repr

/-- The header of an object's record that has no sample stamps: untriggered, no unit, no mode. -/
def Hdr.plain (source : Handle) (kind fmt time : Nat) : Hdr :=
  { source := source, kind := kind, fmt := fmt, seg := 0, time := time, idx := 0, flags := 0, trig := none
    cause := causeMask 0 false true 0, pre := 0, cgen := 0, fgen := 0, journal := 0, level := 0, log2d := 0, exp := 0
    hop := 0, nco := 0, fs := 0, unit := 255, mode := 255, ignored := 0 }

/-- The 128 header bytes of a record with sequence number `seq` and payload length `len`; the seal fields 0x70–0x7F are zero. -/
def Hdr.bytes (h : Hdr) (seq len : Nat) : List Byte :=
  pack [(4, 0x43524C54), (2, 1), (2, 128), (4, h.source.toNat), (1, h.kind), (1, h.fmt), (2, h.seg), (8, seq),
    (8, h.time / 2 ^ 32 % 2 ^ 40), (8, h.idx), (4, h.time % 2 ^ 32), (4, h.flags.toNat), (8, h.trig.getD (2 ^ 64 - 1)),
    (4, h.cause.toNat), (4, h.pre), (8, len), (2, h.cgen), (2, h.fgen), (4, h.journal), (1, h.level), (1, h.log2d),
    (2, h.exp), (4, h.hop), (8, twos 64 h.nco), (8, h.fs), (1, h.unit), (1, h.mode), (2, 0), (4, satN (2 ^ 32 - 1) h.ignored),
    (4, 0), (4, 0), (8, 0)]

/-- Header, payload and trailer of a record (R459, R464). -/
def recordBytes (h : Hdr) (seq : Nat) (payload : List Byte) : List Byte :=
  let p := padTo 8 payload
  let hp := h.bytes seq p.length ++ p
  hp ++ pack [(4, (crc32c hp).toNat), (4, p.length)]

/-- Slot length of a payload: header, payload, trailer and seal tag (R444), rounded up to 64 bytes. -/
def slotBytes (payload : Nat) : Nat := ceilDiv (128 + payload + 8 + 16) 64 * 64

end Sys2Proof.Machine
end

