-- ==== Sys2Proof/Machine/ThimLog.lean ====
section
/-! DEFINITION. The Thimble log and the discipline of its RTC (R656, R661, R662). -/

namespace Sys2Proof.Machine

def State.setThim (s : State) (f : Thim → Thim) : State := { s with thim := f s.thim }

/-- Write a log entry (R656): in a full circle it replaces the oldest undelivered one. -/
def Thim.logEntry (t : Thim) (kind rule input value : Nat) : Thim :=
  let full := decide (256 ≤ t.logPending)
  let lost := if full then satN 65535 (t.lostBefore + 1) else t.lostBefore
  let e : ThimEntry := { time := timeR74 t.rtc, kind := kind, rule := rule, input := input, value := BitVec.ofNat 16 value, lost := lost }
  { t with
    log := (t.log ++ [e]).drop ((t.log.length + 1) - 256), logPending := min 256 (t.logPending + 1)
    logLost := if full then satN 255 (t.logLost + 1) else t.logLost, lostBefore := lost }

def State.thimLog (s : State) (kind rule input value : Nat) : State := s.setThim fun t => t.logEntry kind rule input value

/-- The 16 bytes of an entry. -/
def ThimEntry.bytes (e : ThimEntry) : List Byte :=
  pack [(8, e.time.toNat), (1, e.kind), (1, e.rule), (1, e.input), (1, 0), (2, e.value.toNat), (2, e.lost)]

/-- Discipline the RTC at a valid PPS edge, `span` units after the edge before it (R662): within 500 µs its fraction goes to 0 and RTC_TRIM
moves by e over the interval, at most 2 ppm for each of its seconds; else its second boundary steps to the edge and an entry says so. -/
def Thim.discipline (t : Thim) (span : Nat) : Thim :=
  let sec := (2 * t.rtc + unitS) / (2 * unitS)
  let e : Int := (t.rtc : Int) - (sec * unitS : Nat)
  if e.natAbs ≤ 500000 * unitNs then
    let most : Int := (20000 * span / unitS : Nat)
    let move := max (-most) (min most (e * 10000000000 / (span : Int)))
    { t with rtc := sec * unitS, rtcTrim := BitVec.ofInt 32 (sx 32 t.rtcTrim.toNat + move) }
  else ({ t with rtc := sec * unitS }).logEntry 5 255 255 0

end Sys2Proof.Machine
end

