-- ==== Sys2Proof/Machine/Power.lean ====
section
/-! DEFINITION. The power admission unit: charges, grants, admission and its queues; leaving IDLE (manual chapter Power admission
and sleep). -/

namespace Sys2Proof.Machine

/-- Let time pass until `t` ns; nothing when it has passed already. -/
def State.until (s : State) (t : Nat) : State := s.pass (max s.now t - s.now)

/-- Let time pass until an instant of the time base, in whole ns. -/
def State.untilTb (s : State) (t : Nat) : State :=
  s.until (s.now + ceilDiv ((t - s.time.tb) * 1000000000 - s.time.frac) (unitNs * max 1 (1000000000 + s.clk.ratePpb).toNat))

/-- Let time pass until the RTC reads `due`. -/
def State.untilRtc (s : State) (due : Nat) : State :=
  s.pass (ceilDiv ((due - s.thim.rtc) * 10000000000) (unitNs * (10000000000 + sx 32 s.thim.rtcTrim.toNat).toNat))

/-! ### Charges (R601–R605) -/

def Pau.hottest (p : Pau) : Int := p.temps.toList.foldl max (nth p.temps 0 0)

/-- The sensor that reads hottest, the lowest-numbered on a tie. -/
def Pau.hottestAt (p : Pau) : Nat := (p.temps.toList.findIdx? (· == p.hottest)).getD 0

/-- Leakage charge, mW (R601). -/
def leakage (t : Int) : Nat :=
  if t ≤ 25 then 12000 else if t ≤ 40 then 16000 else if t ≤ 55 then 22000 else if t ≤ 70 then 30000
  else if t ≤ 85 then 41000 else if t ≤ 95 then 52000 else 67000

/-- Static charge, mW: counted while the device is ACTIVE (R601). -/
def State.static (s : State) : Nat := if s.pwr.st = .active then 23000 + leakage s.pau.hottest else 0

/-- Grants held, mW: the sum over the objects that hold them. -/
def State.granted (s : State) : Nat :=
  sumN (s.streams.toList.map (·.grant)) + sumN (s.chans.toList.map (·.grant)) + sumN (s.sweeps.toList.map (·.grant)) +
  sumN (s.planes.toList.map (·.grant)) + sumN (s.mps.toList.map (·.grant)) + s.pau.seamGrant +
  sumN s.pau.sealGrant.toList + sumN s.pau.stackGrant.toList + s.integ.patrolGrant

/-- Effective budget (R605, R618). -/
def State.effective (s : State) : Nat := s.pau.limitFix.getD s.pau.budget

/-- Available power, mW; negative when more is charged than the effective budget. -/
def State.available (s : State) : Int := (s.effective : Int) - s.static - s.granted

/-! ### Requests (R602, R606–R612) -/

def Pau.queue (p : Pau) : Nat → List PowerReq
  | 0 => p.q0 | 1 => p.q1 | _ => p.q2

def Pau.setQueue (p : Pau) (c : Nat) (q : List PowerReq) : Pau :=
  match c with
  | 0 => { p with q0 := q } | 1 => { p with q1 := q } | _ => { p with q2 := q }

/-- Requests of a class that wait for power (those that only wait for spacing count as granted, R610). -/
def Pau.waiting (p : Pau) (c : Nat) : List PowerReq := (p.queue c).filter fun r => !r.spaced

/-- Hold a grant for an object (0 releases it). Lanes that a reopened stream adds come on top of the grant it holds (R195). -/
def State.setGrant (s : State) (n : Need) (cost : Nat) : State :=
  match n with
  | .stack k => { s with
      pau := { s.pau with stackGrant := upd s.pau.stackGrant k.val fun _ => cost }
      hbm := { s.hbm with wake := setBit s.hbm.wake k.val (cost != 0), wakeQueued := setBit s.hbm.wakeQueued k.val false } }
  | .lanes i => { s with streams := upd s.streams i fun x => { x with grant := if cost = 0 then 0 else x.grant + cost } }
  | .seam => { s with pau := { s.pau with seamGrant := cost } }
  | .chan i => { s with chans := upd s.chans i fun x => { x with grant := cost } }
  | .sweep u => { s with sweeps := upd s.sweeps u fun x => { x with grant := cost } }
  | .plane p => { s with planes := upd s.planes p fun x => { x with grant := cost } }
  | .session k => { s with pau := { s.pau with sealGrant := upd s.pau.sealGrant k fun _ => cost } }
  | .mp c => { s with mps := upd s.mps c fun x => { x with grant := cost } }
  | .darner => { s with integ := { s.integ with patrolGrant := cost } }

/-- Take back a grant of `cost`: lanes that a reopened stream was to add leave it what it held (R195). -/
def State.dropGrant (s : State) (n : Need) (cost : Nat) : State :=
  match n with
  | .lanes i => { s with streams := upd s.streams i fun x => { x with grant := x.grant - cost } }
  | n => s.setGrant n 0

/-- How the PAU decides a request. -/
inductive Admission where
  | granted | spaced (due : Nat) | queued | denied
  deriving DecidableEq, Repr

/-- Grants above 5 W are held back (R615, R616). -/
def Pau.noLarge (p : Pau) : Bool := p.avsMoving || p.avsFault

/-- A CUT of a target is in force: some ACTIVE rule carries it (R652). -/
def Thim.cutting (t : Thim) (target : Nat) : Bool :=
  t.rules.any fun r => r.st == .active && bit (bits r.raw.toNat 23 16) 3 && bits r.raw.toNat 111 104 == target

/-- An ACTIVE rule carries REFUSE_SLEEP (R652). -/
def Thim.refusesSleep (t : Thim) : Bool := t.rules.any fun r => r.st == .active && bit (bits r.raw.toNat 23 16) 4

/-- A request can never fit (R606 step 1). -/
def State.neverFits (s : State) (cost : Nat) : Bool := decide (s.pau.budget < cost + s.static)

/-- A cost fits now. While a rule's CUT of target 0 is ACTIVE nothing does (R652). -/
def State.fits (s : State) (cost : Nat) : Bool :=
  !s.thim.cutting 0 && decide ((cost : Int) ≤ s.available) && !(decide (5000 < cost) && s.pau.noLarge)

/-- Spacing of a large grant (R610): the instant at which it may be issued, when that lies ahead. -/
def State.spacing (s : State) (cost : Nat) : Option Nat :=
  if 5000 < cost then
    match s.pau.lastLarge with
    | some t => if s.now < t + 20000 then some (t + 20000) else none
    | none => none
  else none

/-- The decision of R606 and R607. -/
def State.powerAnswer (s : State) (cls cost : Nat) (wait : Bool) : Admission :=
  if s.neverFits cost then .denied
  else if (List.range (cls + 1)).all (fun c => s.pau.waiting c = []) && s.fits cost then
    match s.spacing cost with
    | some due => .spaced due
    | none => .granted
  else if wait && (s.pau.waiting cls).length < 64 then .queued
  else .denied

/-- Record a grant: the object holds it; a large one sets the spacing. `t` is the instant of issue. -/
def State.charge (s : State) (n : Need) (cost t : Nat) : State :=
  let s := s.setGrant n cost
  if 5000 < cost then { s with pau := { s.pau with lastLarge := some t } } else s

/-- Put a request in its class queue. -/
def State.enqueue (s : State) (cls : Nat) (r : PowerReq) : State :=
  { s with pau := s.pau.setQueue cls (s.pau.queue cls ++ [r]) }

/-- Remove the requests of a need from the queues. -/
def State.dequeue (s : State) (n : Need) : State :=
  { s with pau := { s.pau with
      q0 := s.pau.q0.filter (·.need != n), q1 := s.pau.q1.filter (·.need != n), q2 := s.pau.q2.filter (·.need != n) } }

/-! ### Leaving IDLE (R622, R626–R628, R148) -/

/-- The time base restarts from the Thimble RTC's second (R148, R626). -/
def State.restartTime (s : State) : State :=
  { s with
    time := { TimeBase.reset with tb := s.thim.rtc / unitS * unitS, run := s.time.run, afterLoss := s.time.afterLoss } }

/-- Stacks with an allocated granule. -/
def State.stacksUsed (s : State) : BitVec 4 :=
  s.regions.toList.foldl (fun m r => if r.alloc then r.granules.foldl (fun m g => setBit m (g / 12288) true) m else m) 0

/-- IDLE → ACTIVE; a command that needs a grant also ends an entry to IDLE that is under way. The fabric PLLs run again; the stacks
that hold granules leave self-refresh again and are charged for. The time base restarts (R626), unless PLL_S has locked since start-up (log
entry 16). -/
def State.toActive (s : State) : State :=
  if s.pwr.st = .idle then
    let used := s.stacksUsed
    let s := if s.clk.lock || s.clk.coast then s else s.restartTime
    { s with
      pwr := { s.pwr with st := .active, entering := none, enteredAt := s.now, slept := false }
      pau := { s.pau with stackGrant := Vector.ofFn fun k => if used.getLsbD k.val then 13000 else 0 }
      hbm := { s.hbm with wake := used }
      clk := { s.clk with f0Lock := true, f1Lock := true } }
  else if s.pwr.entering = some .idle then { s with pwr := { s.pwr with entering := none } }
  else s

/-- A wake source of R627 fires in IDLE: its bit of the wake mask moves the device to ACTIVE and names the cause; Thimble logs it (R656). -/
def State.wakeIdle (s : State) (src : Nat) : State :=
  if s.pwr.st = .idle && s.pwr.wakeMask.getLsbD src then
    let s := s.toActive
    ({ s with pwr := { s.pwr with wakeCause := BitVec.ofNat 3 src } }).thimLog 5 src 255 0
  else s

/-! ### Settling a command's verdict (R68, R72, R606) -/

/-- The handle of the command in flight on ring r: its descriptor's, or the one that it has claimed (R64). -/
def State.flightHandle (s : State) (r : Nat) : Handle := ((s.cmdRing r).inflight.map fun f => f.handle).getD 0

/-- A handle that a command claimed and did not keep is freed: the generation of its index advances (R64, R92). -/
def State.handBack (s : State) (h : Handle) : State :=
  let i := hIdx h
  match h.toNat / 2 ^ 24 with
  | 1 => { s with streams := upd s.streams i fun x => { x with gen := nextGen x.gen } }
  | 2 => { s with chans := upd s.chans i fun x => { x with gen := nextGen x.gen } }
  | 3 => { s with regions := upd s.regions i fun x => { x with gen := nextGen x.gen } }
  | 5 => { s with groups := upd s.groups i fun x => { x with gen := nextGen x.gen } }
  | 6 => { s with sweeps := upd s.sweeps i fun x => { x with gen := nextGen x.gen } }
  | 4 => { s with sinks := upd s.sinks i fun x => { x with gen := nextGen x.gen } }
  | 7 => { s with mps := upd s.mps i fun x => { x with gen := nextGen x.gen } }
  | 8 => { s with sec := { s.sec with sessions := upd s.sec.sessions i fun x => { x with gen := nextGen x.gen } } }
  | _ => s

/-- The channel writes region i: as its working store, as its detectors' region, now or once a command that claims it has ended (R35, R100). -/
def Chan.storesIn (c : Chan) (i : Nat) : Bool :=
  (c.sp :: c.claims.map (·.sp)).any fun p => p.type != 0 && decide (17 ≤ p.l) && hIdx p.region == i
def Chan.detectsIn (c : Chan) (i : Nat) : Bool :=
  (c.fe.detRegion :: c.claims.map (·.det)).any fun h => h != 0 && hIdx h == i

/-- Bring the regions' writers to what channel ch now holds. -/
def State.syncWriters (s : State) (ch : Nat) : State :=
  let c := nth s.chans ch .reset
  { s with regions := s.regions.mapIdx fun i r =>
      let free : Writer := if r.writer = .working ch ∨ r.writer = .detector ch then .none else r.writer
      { r with writer := if c.storesIn i then .working ch else if c.detectsIn i then .detector ch else free } }

/-- Bring the regions' writers to what the Thimble log holds: its region, and those that AON_RULES commands claim. -/
def State.syncLog (s : State) : State :=
  let mine := s.thim.logRegion.toList ++ s.thim.claims.map (·.2)
  { s with regions := s.regions.mapIdx fun i x =>
      { x with writer := if mine.contains i then .thimble else if x.writer = .thimble then .none else x.writer } }

/-- The command on ring r holds claims beyond its handle: a channel's pipes and regions, a sink's DMA channel, ring and regions, a session, the
Thimble log's region. -/
def State.claiming (s : State) (r : Nat) : Bool :=
  (s.chans.toList.any fun c => c.claims.any fun k => k.ring == r) || (s.sinks.toList.any fun x : Sink => x.claim.any fun p => p.1 == r) ||
  (s.sec.sessions.toList.any fun x : Session => x.claim == some r) || s.thim.claims.any fun k => k.1 == r

/-- Those claims go (R72). -/
def State.dropClaims (s : State) (r : Nat) : State :=
  if !s.claiming r then s
  else
    let s := (List.range 128).foldl (fun s ch =>
      if ((nth s.chans ch .reset).claims.any fun k => k.ring == r) then
        State.syncWriters { s with chans := upd s.chans ch fun c => { c with claims := c.claims.filter fun k => k.ring != r } } ch
      else s) s
    let mine : Writer → Bool := fun w => match w with
      | .staging k => (nth s.sinks k .reset).claim.any fun p => p.1 == r
      | .session k => (nth s.sec.sessions k .reset).claim == some r
      | _ => false
    let s := State.syncLog { s with thim := { s.thim with claims := s.thim.claims.filter fun k => k.1 != r } }
    let unclaimed := fun (x : Session) => if x.claim = some r then { x with claim := none, rate := 0 } else x
    { s with
      regions := s.regions.map fun x : Region => if mine x.writer then { x with writer := .none } else x
      sinks := s.sinks.map fun x : Sink => if (x.claim.any fun p => p.1 == r) then { x with claim := none } else x
      sec := { s.sec with sessions := s.sec.sessions.map unclaimed } }

/-- The command in flight on ring r ends without its claims and without h, the handle it held: one that it had claimed goes back (R64, R72). -/
def State.unclaim (s : State) (r : Nat) (h : Handle) : State :=
  let s := s.dropClaims r
  if (s.cmdRing r).inflight.any (fun f => f.d.handle == h) then s else s.handBack h

/-- Carry out what a body decided for the command in flight on ring r. `s0` is the state without the command's effect; a handle that
the command has claimed is freed when it fails (R64). -/
def settle (r : Nat) (s0 : State) : Verdict → State
  | .done st a b h s => if st = .ok then s.complete r st a b h else (s0.unclaim r (s.flightHandle r)).complete r st a b h
  | .wait stage h s => s.setInflight r (Option.map fun f => { f with stage := stage, handle := h })
  | .need n cls cost h s k =>
    let s := s.toActive
    match s.powerAnswer cls cost ((s.cmdRing r).inflight.any fun f => f.d.waitForPower) with
    | .granted => settle r s0 (k (s.charge n cost s.now))
    | .spaced due =>
      let s := (s.charge n cost due).enqueue cls ⟨n, cost, some (Fin.ofNat 16 r), h, due, true, none⟩
      s.setInflight r (Option.map fun f => { f with stage := .power, handle := h })
    | .queued =>
      let s := s.enqueue cls ⟨n, cost, some (Fin.ofNat 16 r), h, s.now, false, some s.now⟩
      (s.setInflight r (Option.map fun f => { f with stage := .power, handle := h })).interim r
    | .denied => (s0.unclaim r h).complete r .powerDenied 0 0 (((s0.cmdRing r).inflight.map fun f => f.d.handle).getD h)

end Sys2Proof.Machine
end

