-- ==== Sys2Proof/Machine/Events.lean ====
section
/-! DEFINITION. The event table (R76, R107). -/

namespace Sys2Proof.Machine

/-- The events other than CMD_DONE. -/
inductive Ev where
  | trigger | trigEarly | trigHoldoff | trigOverlap | sweepCandidate | recordDone | rateStep | calSwap
  | streamUp | streamDown | laneFault | clockCoast | clockRestored | timeBreak | clockLoss | fabricPllSwitch
  | eccCorrected | eccUncorrectable | hardFaultSuspect | poisonWrite | dmaHalt
  | powerGrant | powerShed | thermal | pairFailover | pairLost | sealCheckpoint | mpTrap
  deriving DecidableEq, Repr

/-- Code, class and severity. -/
def Ev.row : Ev → Nat × Nat × Nat
  | .trigger => (0x0100, 4, 0) | .trigEarly => (0x0101, 5, 1) | .trigHoldoff => (0x0102, 5, 1)
  | .trigOverlap => (0x0103, 5, 1) | .sweepCandidate => (0x0110, 4, 0) | .recordDone => (0x0120, 5, 0)
  | .rateStep => (0x0121, 5, 2) | .calSwap => (0x0130, 3, 0) | .streamUp => (0x0200, 2, 0)
  | .streamDown => (0x0201, 2, 3) | .laneFault => (0x0202, 2, 2) | .clockCoast => (0x0300, 1, 2)
  | .clockRestored => (0x0301, 1, 1) | .timeBreak => (0x0302, 1, 3) | .clockLoss => (0x0303, 1, 4)
  | .fabricPllSwitch => (0x0304, 1, 2) | .eccCorrected => (0x0400, 6, 0) | .eccUncorrectable => (0x0401, 6, 3)
  | .hardFaultSuspect => (0x0402, 6, 3) | .poisonWrite => (0x0403, 6, 2) | .dmaHalt => (0x0410, 7, 3)
  | .powerGrant => (0x0500, 8, 0) | .powerShed => (0x0501, 8, 3) | .thermal => (0x0502, 8, 2)
  | .pairFailover => (0x0600, 9, 4) | .pairLost => (0x0601, 9, 4) | .sealCheckpoint => (0x0800, 11, 0)
  | .mpTrap => (0x0900, 12, 3)

/-- Raise an event of the table now; `data` gives bytes 0x10–0x1B as (bytes, value). -/
def State.note (s : State) (e : Ev) (h : Handle) (data : List (Nat × Nat)) : State :=
  s.event e.row.1 e.row.2.1 e.row.2.2 h data

/-- Raise an event of the table now, after the writes through port p that it describes (R88). -/
def State.noteAfter (s : State) (p : Nat) (e : Ev) (h : Handle) (data : List (Nat × Nat)) : State :=
  s.raiseAfter p e.row.1 e.row.2.1 e.row.2.2 h data

/-- A register write refused for a value out of range or reserved (R805). -/
def State.badValue (s : State) (off : Nat) : State := { s with regErr := { s.regErr with badValue := true, offset := BitVec.ofNat 24 off } }

/-- Raise an event of the table with the time of what it reports. -/
def State.noteAt (s : State) (e : Ev) (h : Handle) (tb : Nat) (data : List (Nat × Nat)) : State :=
  s.raise e.row.1 e.row.2.1 e.row.2.2 h (timeR74 tb) data

end Sys2Proof.Machine
end

