-- ==== Sys2Proof/Machine/Accept.lean ====
section
/-! DEFINITION. Running a command that firmware reads from a ring: waiting its turn, acceptance, the checks before its own, mirroring
(R41, R57–R73, R669–R672). -/

namespace Sys2Proof.Machine

/-- The handle a verdict names. -/
def Verdict.handle : Verdict → Handle
  | .done _ _ _ h _ | .wait _ h _ | .need _ _ _ h _ _ => h

/-- The device is a primary and mirrors the command (R671, R672). -/
def State.mirrors (s : State) (op : Op) (d : Desc) : Bool := s.pair.role == .primary && !unmirrored s op d

/-- What the primary adds to the block for its secondary (R708). -/
def State.sealSecrets (s : State) (k : Nat) : List Byte :=
  let x := nth s.sec.sessions k .reset
  le 4 x.salt.toNat ++ le 48 x.chain.toNat ++ x.key

/-- A primary's command waits for the secondary's status; its descriptor and data go to the peer (R672). -/
def State.sendMirror (s0 : State) (r : Nat) (op : Op) (d : Desc) (data : List Byte) (v : Verdict) : State :=
  let data := match v with
    | .need (.session k) _ _ _ s _ => data ++ s.sealSecrets k
    | _ => data
  (s0.emit (.seam (.command op d data v.handle))).setInflight r
    (Option.map fun f => { f with stage := .mirror, buffer := data, handle := v.handle, since := s0.now })

/-- What the command on ring r does with its host data, on a primary once the secondary agrees (R672). -/
def mirrorOr (r : Nat) (op : Op) (d : Desc) (data : List Byte) (s0 : State) (v : Verdict) : State :=
  match v with
  | .done st _ _ _ _ => if s0.mirrors op d && st == .ok then s0.sendMirror r op d data v else settle r s0 v
  | _ => if s0.mirrors op d then s0.sendMirror r op d data v else settle r s0 v

/-! ### Firmware's turn (R69, R70, R72) -/

/-- A ring's next descriptor carries FENCE, firmware reads it, and earlier commands are still in execution (R69). -/
def State.fenceWaits (s : State) (r : Nat) (d : Desc) : Bool :=
  let c := s.cmdRing r
  d.fence && s.serving && c.inflight.isNone && s.io.fence.isNone && decide (2 ≤ (nth s.io.evt c.evt.val .reset).free)

/-- The descriptor that firmware takes from a ring in its turn; none from a ring that it passes over. -/
def State.takes (s : State) (r : Nat) : Option (Nat × Op × Desc) :=
  match (s.cmdRing r).backlog with
  | (op, d) :: _ => if s.canAccept r op d || s.fenceWaits r d then some (r, op, d) else none
  | [] => none

/-- The rings in round-robin order, the one after the ring taken last first. -/
def State.turns (s : State) : List Nat := (List.range 16).map fun i => (s.io.rr.val + 1 + i) % 16

/-- The next ring in round-robin order from which firmware takes a descriptor, with it. After reset ring 0 is looked at first: the manual
gives the order only (DESIGN CHOICE, log entry 57). -/
def State.nextCmd (s : State) : Option (Nat × Op × Desc) := s.turns.findSome? s.takes

/-- No ring comes before ring r in round-robin order with a descriptor that firmware takes. -/
def State.turnOf (s : State) (r : Nat) : Bool := (s.turns.takeWhile (· != r)).all fun q => (s.takes q).isNone

/-- A descriptor that must wait joins its ring's backlog; one with FENCE that firmware has read holds every ring (R69). -/
def State.park (s : State) (op : Op) (d : Desc) : State :=
  let r := d.ring.val
  let head := (s.cmdRing r).backlog.isEmpty && s.turnOf r && s.fenceWaits r d
  { s with io := { s.io with
      cmd := upd s.io.cmd r fun c => { c with backlog := c.backlog ++ [(op, d)] }
      fence := if head then some ⟨d.ring, s.io.accepted⟩ else s.io.fence } }

/-- Count i is below the producer count p of a ring with consumer count c, modulo 2^32 (R53). -/
def below (c i p : Word) : Bool := decide ((i - c).toNat < (p - c).toNat)

/-- The slot that the next answered read brings, and the reads that are left. -/
def popSlot : List (Word × Nat) → Option (Word × List (Word × Nat))
  | [] => none
  | (a, n) :: rest => some (a, if n ≤ 1 then rest else (a + 1, n - 1) :: rest)

/-- The reads left once the slot with count i has come; a slot that was not asked for leaves them. -/
def dropSlot (i : Word) (reads : List (Word × Nat)) : List (Word × Nat) :=
  match popSlot reads with
  | some (a, rest) => if a = i then rest else reads
  | none => reads

/-- The device has fetched the ring's next descriptor, which the host has placed and rung the doorbell for; the command wakes an IDLE
device whose wake mask says so (R41, R58, R627). -/
def State.fetched (s : State) (r : Nat) : State :=
  State.wakeIdle { s with io := { s.io with cmd := upd s.io.cmd r fun c =>
    { c with
      prod := if below c.cons c.fetched c.prod then c.prod else c.fetched + 1, fetched := c.fetched + 1
      asked := if c.asked = c.fetched then c.fetched + 1 else c.asked, reads := dropSlot c.fetched c.reads, parked := false } } } 0

/-- Final completion of a command in flight from a later event. -/
def State.finish (s : State) (r : Nat) (st : Status) (a b : Nat) : State :=
  match (s.cmdRing r).inflight with
  | some f => s.complete r st a b f.handle
  | none => s

/-- The command in flight on a ring waits at a stage. -/
def State.waitsAt (s : State) (r : Nat) (stage : Stage) : Option Inflight :=
  match (s.cmdRing r).inflight with
  | some f => if f.stage = stage then some f else none
  | none => none

/-- Rings whose command in flight satisfies a test. -/
def State.ringsWaiting (s : State) (p : Inflight → Bool) : List Nat :=
  (List.range 16).filter fun r => (s.cmdRing r).inflight.any p

/-- A power request is withdrawn, and the commands that wait for it complete with a status (R95, R99). -/
def State.withdrawNeed (s : State) (n : Need) (st : Status) (mine : Inflight → Bool) : State :=
  (s.ringsWaiting fun f => f.stage == .power && mine f).foldl (fun s r => s.finish r st 0 0) ((s.dequeue n).setGrant n 0)

end Sys2Proof.Machine
end

