-- ==== Sys2Proof/Machine/Regions.lean ====
section
/-! DEFINITION. Regions and records in HBM: granules, the BAR4 map, self-refresh, placing a record in a region (manual chapters HBM
memory; Acquisition and records, R459–R464). -/

namespace Sys2Proof.Machine

/-! ### Granules and the BAR4 map (R514–R523) -/

def stacksFitted (s : State) : Nat := if s.ident.small then 2 else 4

/-- Stacks in service. -/
def stacksServing (s : State) : List Nat := (List.range (stacksFitted s)).filter fun k => !s.hbm.failed.getLsbD k

/-- Granules that no region can be given: allocated or retired. -/
def granulesTaken (s : State) : List Nat :=
  s.regions.toList.flatMap (fun r => if r.alloc then r.granules else []) ++ s.integ.retired ++ s.store.retired

/-- Free granules of a stack, rising (R518). -/
def freeGranules (s : State) (k : Nat) : List Nat :=
  let taken := (granulesTaken s).filter fun g => g / 12288 == k
  ((List.range 12288).map (· + 12288 * k)).filter fun g => !taken.contains g

/-- Take a granule for place `turn` of the cycle: the stack at that place, or the next with a free granule (R518). -/
def takeOne (turn : Nat) (free : List (List Nat)) : Option (Nat × List (List Nat)) :=
  ((List.range free.length).findSome? fun k =>
    let j := (turn + k) % free.length
    match (free[j]?).getD [] with
    | [] => none
    | g :: rest => some (g, free.set j rest))

/-- The granules of a region of n granules, in region order. -/
def takeGranules : (n turn : Nat) → List (List Nat) → Option (List Nat)
  | 0, _, _ => some []
  | n + 1, turn, free =>
    match takeOne turn free with
    | none => none
    | some (g, free') => (takeGranules n (turn + 1) free').map (g :: ·)

/-- Place of the list with most entries, the first on a tie. -/
def mostFree (free : List (List Nat)) : Nat :=
  let m := (free.map List.length).foldl max 0
  (free.findIdx? fun l => l.length == m).getD 0

/-- Lowest BAR4 granule offset with room for n granules (R519). -/
def windowFor (s : State) (n : Nat) : Option Nat :=
  let used := s.regions.toList.filterMap fun r => if r.alloc then r.window.map fun w => (w, r.granules.length) else none
  let fits := fun w => decide (w + n ≤ 32768) && used.all fun (a, l) => decide (w + n ≤ a) || decide (a + l ≤ w)
  ((0 :: used.map fun (a, l) => a + l).filter fits).foldl
    (fun m w => match m with | none => some w | some x => some (min x w)) none

/-- The region and byte offset behind a BAR4 byte address (R519, R524). -/
def bar4Region (s : State) (a : Nat) : Option (Nat × Nat) :=
  (List.range 256).findSome? fun i =>
    let r := nth s.regions i .reset
    match r.alloc, r.window with
    | true, some w => if w * granuleBytes ≤ a && a < (w + r.granules.length) * granuleBytes then some (i, a - w * granuleBytes) else none
    | _, _ => none

/-- A stack that holds no allocated granule enters self-refresh in ACTIVE; its wake grant ends and its owed refreshes run (R536, R537). -/
def State.restStacks (s : State) : State :=
  if s.pwr.st = .active then
    let used := s.stacksUsed
    let idle := ~~~used
    { s with
      hbm := { s.hbm with
        selfRef := s.hbm.selfRef ||| (idle &&& ~~~s.hbm.wakeQueued), wake := s.hbm.wake &&& used
        owed := Vector.ofFn fun p => if idle.getLsbD (p.val / 32) then 0 else nth s.hbm.owed p.val 0 }
      pau := { s.pau with stackGrant := Vector.ofFn fun k => if idle.getLsbD k.val then 0 else nth s.pau.stackGrant k.val 0 } }
  else s

/-- Return a region's granules and window and advance its generation (R92, R95, R523). -/
def State.freeRegion (s : State) (i : Nat) : State :=
  ({ s with regions := upd s.regions i fun r => { Region.reset with gen := nextGen r.gen } }).restStacks

/-! ### Reading and writing regions -/

def State.region (s : State) (i : Nat) : Region := nth s.regions i .reset

/-- A region handle's index when the handle passes R93. -/
def State.regionOf (s : State) (h : Handle) : Option Nat := if s.valid 3 h then some (hIdx h) else none

/-- A region already written by another object (R100). -/
def State.writerBusy (s : State) (i : Nat) (w : Writer) : Bool :=
  (s.region i).writer != .none && (s.region i).writer != w

/-- Bind a region as a write target, or release it. -/
def State.setWriter (s : State) (i : Nat) (w : Writer) : State :=
  { s with regions := upd s.regions i fun r => { r with writer := w } }

/-- Release every region an object writes. -/
def State.dropWriter (s : State) (w : Writer) : State :=
  { s with regions := s.regions.map fun r => if r.writer = w then { r with writer := .none } else r }

/-- Location of an HBM codeword, by its device-wide index (R544). -/
def locHbm (cw : Nat) : BitVec 64 := BitVec.ofNat 64 (cw / 65536 / 12288 * 2 ^ 56 + cw)

/-- Whole writes of codewords: they lose their poison and end their episodes without SCRUBBED (R542, R552). -/
def Integ.wholeWrite (g : Integ) (cws : List Nat) : Integ :=
  let locs := cws.map locHbm
  { g with
    poison := g.poison.filter fun c => !cws.contains c
    episodes := g.episodes.map fun e => if e.2.1 && locs.contains e.1 then (e.1, false, false, e.2.2.2) else e
    log := g.log.map fun e => if e.isOpen && locs.contains e.loc then { e with isOpen := false, scrubbed := false } else e }

/-- Write bytes at an offset of a region; whole codewords lose their poison (R542). -/
def State.putBytes (s : State) (i off : Nat) (bytes : List Byte) : State :=
  let r := s.region i
  let gone := (List.range (ceilDiv bytes.length 32)).map fun k => codeword (r.addr (off + 32 * k))
  { s with
    hbm := { s.hbm with mem := writeRegion s.hbm.failed r s.hbm.mem off bytes }
    integ := s.integ.wholeWrite gone }

/-- Whether a record's place [off, off + len) is free: no undelivered record there while a sink is bound (R446). -/
def Region.roomAt (r : Region) (off len : Nat) : Bool :=
  decide (off + len ≤ r.bytes) &&
  (r.sink = none || r.recs.all fun x => x.delivered || decide (x.off + x.len ≤ off) || decide (off + len ≤ x.off))

/-- Where the next record of a circle of records goes: after the last, or at 0 when it would pass the end (R444). -/
def Region.circle (r : Region) (woff len lo hi : Nat) : Option Nat :=
  let o := if woff + len ≤ hi then woff else lo
  if o + len ≤ hi && r.roomAt o len then some o else none

/-- Copy of a record for every RUNNING measurement processor that takes its region (R495). -/
def State.copyToMps (s : State) (i seq : Nat) (hdr payload : List Byte) : State :=
  { s with mps := s.mps.map fun m =>
      if m.st = .running && hIdx m.inReg == i then
        { m with arriving := m.arriving ++ [{ hdr := hdr, payload := (words32 payload).map (BitVec.ofNat 32), seq := seq }] }
      else m }

/-- A record lies outside the place [lo, hi). -/
def Rec.outside (x : Rec) (lo hi : Nat) : Bool := decide (x.off + x.len ≤ lo) || decide (hi ≤ x.off)

/-- Format a record with the region's next sequence number and write it at an offset (R459–R464). Overwritten records leave the list. -/
def State.putRecord (s : State) (i off : Nat) (ready : Bool) (h : Hdr) (payload : List Byte) : State :=
  let r := s.region i
  let h := { h with flags := h.flags ||| fIf s.debugOpen fDebug }
  let bytes := recordBytes h r.nextSeq payload
  let len := bytes.length
  let s := s.putBytes i off bytes
  let x : Rec := { seq := r.nextSeq, off := off, len := len, kind := h.kind, fmt := h.fmt, delivered := false, ready := ready
                   tm := s.now, sealInfo := none }
  let s := { s with regions := upd s.regions i fun r =>
    { r with nextSeq := r.nextSeq + 1
             recs := (r.recs.filter fun y : Rec => y.outside off (off + slotBytes payload.length)) ++ [x] } }
  s.copyToMps i r.nextSeq (h.bytes r.nextSeq (padTo 8 payload).length) (padTo 8 payload)

/-- Bytes of a region not yet delivered (R456). -/
def Region.undelivered (r : Region) : Nat := sumN (r.recs.map fun x => if x.delivered then 0 else x.len)

/-- Fill of a region in 1/256 (R456). -/
def Region.fill (r : Region) : Nat := if r.bytes = 0 then 0 else min 255 (r.undelivered * 256 / r.bytes)

/-- Where the next record of a payload length goes in a circle over a whole region, at the end of the last one written. -/
def Region.appendAt (r : Region) (payload : Nat) : Option Nat :=
  let woff := match r.recs.getLast? with | some x => ceilDiv (x.off + x.len + 16) 64 * 64 | none => 0
  r.circle woff (slotBytes payload) 0 r.bytes

/-- Append a record to a circle over a whole region, at the end of the last one written; none when there is no room. -/
def State.appendRecord (s : State) (i : Nat) (h : Hdr) (payload : List Byte) : Option State :=
  ((s.region i).appendAt (padTo 8 payload).length).map fun o => s.putRecord i o true h payload

end Sys2Proof.Machine
end

