-- ==== Sys2Proof/Machine/Integ.lean ====
section
/-! DEFINITION. Errors in memories: the error log, episodes, counters, ECC events (R540–R558). -/

namespace Sys2Proof.Machine

/-- Location of an SRAM codeword: memory ID, instance, index (R544). -/
def locSram (mem inst idx : Nat) : BitVec 64 := BitVec.ofNat 64 (mem * 2 ^ 56 + inst % 256 * 2 ^ 48 + idx % 2 ^ 48)

def locMem (loc : BitVec 64) : Nat := loc.toNat / 2 ^ 56
def locIdx (loc : BitVec 64) : Nat := loc.toNat % 2 ^ 48

/-! ### The log (R548, R549) -/

/-- Position of the oldest entry that is not STICKY. -/
def oldestFree (log : List LogEntry) : Option Nat :=
  let m := (log.filter fun e => !e.sticky).foldl (fun m e => match m with | none => some e.first.toNat | some t => some (min t e.first.toNat)) none
  m.bind fun t => log.findIdx? fun e => !e.sticky && e.first.toNat == t

/-- Episode data of a location: open, last ended with SCRUBBED, episodes. -/
def Integ.episode (g : Integ) (loc : BitVec 64) : Bool × Bool × Nat :=
  match g.episodes.find? fun e => e.1 == loc with
  | some e => e.2
  | none => (false, false, 0)

/-- Record an error of a class at a location. -/
def Integ.record (g : Integ) (loc : BitVec 64) (cls src : Nat) (t : BitVec 64) : Integ :=
  let bump := fun (e : LogEntry) => { e with
    cls := max e.cls cls, src := src, last := t
    corr := if cls = 0 ∨ cls = 3 then satN 65535 (e.corr + 1) else e.corr
    uncorr := if cls = 1 ∨ cls = 2 ∨ cls = 4 then satN 65535 (e.uncorr + 1) else e.uncorr }
  let new := bump ⟨loc, cls, false, (g.episode loc).1, false, g.retired.contains (locIdx loc / 65536) && decide (locMem loc < 4), 0, 0, src, 0, t, t⟩
  if g.log.any fun e => e.loc == loc then { g with log := g.log.map fun e => if e.loc = loc then bump e else e }
  else if g.log.length < 32 then { g with log := g.log ++ [new] }
  else match oldestFree g.log with
  | some i => { g with log := (g.log.eraseIdx i) ++ [new], overflow := satN 65535 (g.overflow + 1) }
  | none => { g with overflow := satN 65535 (g.overflow + 1) }

/-- Apply a change to a location's entry. -/
def Integ.onEntry (g : Integ) (loc : BitVec 64) (f : LogEntry → LogEntry) : Integ :=
  { g with log := g.log.map fun e => if e.loc = loc then f e else e }

def Integ.setEpisode (g : Integ) (loc : BitVec 64) (v : Bool × Bool × Nat) : Integ :=
  { g with episodes := (g.episodes.filter fun e => e.1 != loc) ++ [(loc, v)] }

/-- End a location's episode (R552). -/
def Integ.endEpisode (g : Integ) (loc : BitVec 64) (scrubbed : Bool) : Integ :=
  let (isOpen, _, n) := g.episode loc
  if isOpen then (g.setEpisode loc (false, scrubbed, n)).onEntry loc fun e => { e with isOpen := false, scrubbed := scrubbed }
  else g

def State.setInteg (s : State) (f : Integ → Integ) : State := { s with integ := f s.integ }

/-- Handle of the region that holds a location; 0 outside every region (R550). -/
def State.locHandle (s : State) (loc : BitVec 64) : Handle :=
  match (List.range 256).find? fun i => let r := s.region i; r.alloc && decide (locMem loc < 4) && r.granules.contains (locIdx loc / 65536) with
  | some i => s.handleOf 3 i
  | none => 0

/-- Event data of the ECC events (R550). -/
def eccData (loc : BitVec 64) (cls src n : Nat) : List (Nat × Nat) := [(8, loc.toNat), (1, cls), (1, src), (2, satN 65535 n)]

/-! ### Corrections (R550, R552–R554) -/

/-- A new episode begins: STICKY after a scrubbed one or at the third. -/
def State.beginEpisode (s : State) (loc : BitVec 64) (src : Nat) : State :=
  let (_, scrubbed, n) := s.integ.episode loc
  let hard := scrubbed || 3 ≤ n + 1
  let fresh := s.integ.log.any fun e => e.loc == loc && !e.sticky
  let s := s.setInteg fun g => (g.setEpisode loc (true, false, n + 1)).onEntry loc fun e =>
    { e with isOpen := true, scrubbed := false, episodes := satN 255 (e.episodes + 1), sticky := e.sticky || hard }
  if hard && fresh then s.note .hardFaultSuspect (s.locHandle loc) (eccData loc 0 src 0) else s

/-- Raise ECC_CORRECTED, at most once a second per memory ID. -/
def State.correctedEvent (s : State) (loc : BitVec 64) (src : Nat) : State :=
  let m := locMem loc
  let held := s.integ.lastCorr.find? fun x => x.1 == m
  let due := held.all fun x => decide (x.2.1 + 1000000000 ≤ s.now)
  let n := (held.map fun x => x.2.2).getD 0
  let put := fun (x : Nat × Nat × Nat) => s.setInteg fun g => { g with lastCorr := (g.lastCorr.filter fun y => y.1 != m) ++ [x] }
  if due then (put (m, s.now, 0)).note .eccCorrected (s.locHandle loc) (eccData loc 0 src n)
  else put (m, (held.map fun x => x.2.1).getD 0, n + 1)

/-- A read corrects one symbol. An SRAM array writes its correction back, which ends the episode as a scrub does (R553, R555). -/
def State.corrected (s : State) (loc : BitVec 64) (src : Nat) : State :=
  let m := locMem loc
  let s := s.setInteg fun g => (g.record loc 0 src s.time74)
  let s := s.setInteg fun g =>
    if m < 4 then { g with corr := upd g.corr m fun n => satN (2 ^ 32 - 1) (n + 1) } else { g with sramCorr := satN 65535 (g.sramCorr + 1) }
  let s := if (s.integ.episode loc).1 then s else s.beginEpisode loc src
  let s := s.correctedEvent loc src
  if m < 4 then s else s.setInteg fun g => g.endEpisode loc true

/-! ### Uncorrectable and poisoned reads (R546, R547) -/

/-- Raise ECC_UNCORRECTABLE, at most 1,000 a second. -/
def State.uncorrectableEvent (s : State) (loc : BitVec 64) (cls src : Nat) : State :=
  let fresh := decide (s.integ.uncorrSec + 1000000000 ≤ s.now)
  let s := if fresh then s.setInteg fun g => { g with uncorrSec := s.now, uncorrCnt := 0 } else s
  if s.integ.uncorrCnt < 1000 then
    let n := s.integ.uncorrSkip
    (s.setInteg fun g => { g with uncorrCnt := g.uncorrCnt + 1, uncorrSkip := 0 }).note .eccUncorrectable (s.locHandle loc) (eccData loc cls src n)
  else s.setInteg fun g => { g with uncorrSkip := g.uncorrSkip + 1 }

/-- A read meets an uncorrectable (class 1) or poisoned (class 2) codeword. -/
def State.uncorrectable (s : State) (loc : BitVec 64) (cls src : Nat) : State :=
  let m := locMem loc
  let s := s.setInteg fun g => g.record loc cls src s.time74
  let s := s.setInteg fun g =>
    if m < 4 then
      if cls = 2 then { g with poisonCnt := upd g.poisonCnt m fun n => satN 65535 (n + 1) }
      else { g with uncorr := upd g.uncorr m fun n => satN 65535 (n + 1) }
    else { g with sramUncorr := satN 65535 (g.sramUncorr + 1) }
  s.uncorrectableEvent loc cls src

/-- What a read met, logged; nothing for a good read. -/
def State.readErr (s : State) (loc : BitVec 64) (e : MemErr) (src : Nat) : State :=
  match e with
  | .none => s
  | .corrected => s.corrected loc src
  | .uncorrectable => s.uncorrectable loc 1 src
  | .poison => s.uncorrectable loc 2 src

/-- An uncorrectable error in an SRAM array; which codeword it was is open, a free value (log entry 2). -/
def State.sramFault (s : State) (mem inst : Nat) : State :=
  let (v, s) := s.freeTake
  s.uncorrectable (locSram mem inst v.toNat) 1 255

/-- A firmware fault's entry in the error log, class INTERNAL (R106, R545); the codeword it names is open, a free value (log entry 2). -/
def State.internalFault (s : State) : State :=
  let (v, s) := s.freeTake
  s.setInteg fun g => g.record (locSram 0x16 0 v.toNat) 6 255 s.time74

/-- One uncorrectable read of an SRAM array for each entry of a list. -/
def State.sramFaults {α : Type} (s : State) (mem inst : Nat) (lost : List α) : State := lost.foldl (fun s _ => s.sramFault mem inst) s

/-- Codeword behind a byte of a region. -/
def State.cwAt (s : State) (i off : Nat) : Nat := codeword ((s.region i).addr off)

/-- Uncorrectable reads in a region whose inner layout the manual leaves open: the codewords are free values (log entry 2). -/
def State.regionFaults {α : Type} (s : State) (i src : Nat) (lost : List α) : State :=
  lost.foldl (fun s _ =>
    let (v, s) := s.freeTake
    s.uncorrectable (locHbm (s.cwAt i (v.toNat % max 1 (s.region i).bytes))) 1 src) s

/-- Uncorrectable reads of codewords of a region, each logged at its place (R281). -/
def State.storeFaults (s : State) (i src : Nat) (lost : List Nat) : State :=
  lost.foldl (fun s w => s.uncorrectable (locHbm (s.cwAt i (32 * w))) 1 src) s

/-- What a read of n bytes of a region meets: a stack out of service (R535), poison held in the state, or the error of the read itself. -/
def State.readMeets (s : State) (i off n : Nat) (e : MemErr) : Option (BitVec 64 × MemErr) :=
  let dead := (List.range (n / 32 + 1)).find? fun k => s.hbm.failed.getLsbD (s.cwAt i (off + 32 * k) / 65536 / 12288)
  match dead.map fun k => s.cwAt i (off + 32 * k), poisonedIn s (s.region i) off n with
  | some c, _ => some (locHbm c, .uncorrectable)
  | none, c :: _ => some (locHbm c, .poison)
  | none, [] => if e = .none then none else some (locHbm (s.cwAt i off), e)

end Sys2Proof.Machine
end

