-- ==== Sys2Proof/Machine/Measure.lean ====
section
/-! DEFINITION. The per-record measurements (R458). -/

namespace Sys2Proof.Machine

def maxI (l : List Int) : Int := l.foldl max (l.headD 0)
def minI (l : List Int) : Int := l.foldl min (l.headD 0)

/-- Place of the first largest value. -/
def argMax (l : List Int) : Nat := let m := maxI l; (l.findIdx? (· == m)).getD 0

/-- Rising crossings of `hi`, each followed by a fall below `lo`: their places. `open?` is a crossing not yet followed by a fall. -/
def crossings (hi lo : Int) : (l : List Int) → (i : Nat) → (prev : Int) → (open? : Option Nat) → List Nat
  | [], _, _, _ => []
  | x :: r, i, prev, none => crossings hi lo r (i + 1) x (if prev < hi && hi ≤ x then some i else none)
  | x :: r, i, _, some k => if x < lo then k :: crossings hi lo r (i + 1) x none else crossings hi lo r (i + 1) x (some k)

/-- Period in 1/256 output (R458). -/
def periodOf (h : Nat) (iv : List Int) : Nat :=
  let mean := sumI iv / iv.length
  let c := match iv with | [] => [] | x :: r => crossings (mean + h) (mean - h) r 1 x none
  if c.length < 2 then 0 else 256 * (c.getLastD 0 - c.headD 0) / (c.length - 1)

/-- Last place before `e` that a test accepts. -/
def lastBefore (l : List Nat) (e : Nat) (p : Nat → Bool) : Option Nat :=
  ((List.range e).reverse).find? fun i => p ((l[i]?).getD 0)

/-- First place at or after `b` that a test accepts. -/
def firstFrom (l : List Nat) (b : Nat) (p : Nat → Bool) : Option Nat :=
  ((List.range l.length).drop b).find? fun i => p ((l[i]?).getD 0)

/-- Rise, fall and pulse width of amplitudes (R458). -/
def edgesOf (a : List Nat) : Nat × Nat × Nat :=
  let lo := a.foldl min (a.headD 0)
  let hi := a.foldl max 0
  let alo := lo + (hi - lo) / 10
  let ahi := lo + 9 * (hi - lo) / 10
  let a50 := lo + (hi - lo) / 2
  let peak := (a.findIdx? (· == hi)).getD 0
  let rise := match firstFrom a 0 (fun x => decide (ahi ≤ x)) with
    | none => 0
    | some t => match lastBefore a t (fun x => decide (x ≤ alo)) with | none => 0 | some f => t - f
  let fall := match lastBefore a a.length (fun x => decide (ahi ≤ x)) with
    | none => 0
    | some f => match firstFrom a (max f peak) (fun x => decide (x ≤ alo)) with | none => 0 | some t => t - f
  let width := match firstFrom a 0 (fun x => decide (a50 ≤ x)) with
    | none => 0
    | some f => match firstFrom a f (fun x => decide (x < a50)) with | none => 0 | some t => t - f
  (rise, fall, width)

/-- First bin at which the cumulative power reaches a threshold. -/
def cumReach (l : List Int) (thr : Int) : Nat :=
  let rec go : List Int → Int → Nat → Nat
    | [], _, i => i - 1
    | x :: r, acc, i => if acc + x ≥ thr then i else go r (acc + x) (i + 1)
  go l 0 0

/-- A measure's 32-bit field; a value it cannot hold is free (R458 states none). -/
def fit32 (k v : Nat) : Nat := if v < 2 ^ 32 then v else (Config.measureOver k v).toNat

/-- The 80-byte measurement block (R458) of a record of channel samples (`spec` false: I and Q per item) or of a power spectrum
(`spec` true: P per bin in `iv`). `fnum / fden` is the output rate in Hz and `pre` the items of the pre-trigger part. -/
def measureBlock (seq : Nat) (mask : BitVec 9) (spec : Bool) (iv qv : List Int) (pre h fnum fden : Nat) : List Byte :=
  let on := fun i => mask.getLsbD i
  let n := iv.length
  let m := if spec then iv else List.zipWith (fun i q => i * i + q * q) iv qv
  let sum := sumI m
  let time := !spec
  let k0 := if on 0 then (if spec then [(4, twos 32 (sum / n)), (4, 0)] else [(4, twos 32 (sumI iv / n)), (4, twos 32 (sumI qv / n))]) else [(8, 0)]
  let k1 := [(4, if on 1 then isqrt (sum / n).toNat else 0)]
  let k2 := if on 2 then [(4, twos 32 (maxI m)), (4, argMax m)] else [(8, 0)]
  let k3 := if on 3 && time then [(2, twos 16 (minI iv)), (2, twos 16 (maxI iv)), (2, twos 16 (minI qv)), (2, twos 16 (maxI qv))] else [(8, 0)]
  let per := periodOf h iv
  let k4 := if on 4 && time then [(4, fit32 4 per), (4, if per = 0 then 0 else fit32 4 (256 * fnum / (fden * per)))] else [(8, 0)]
  let e := edgesOf (m.map fun x => isqrt x.toNat)
  let k5 := if on 5 && time then [(2, min 65535 e.1), (2, min 65535 e.2.1)] else [(4, 0)]
  let k6 := [(4, if on 6 && time then fit32 6 e.2.2 else 0)]
  let preSum := sumI (m.take pre)
  let k7 := [(4, if on 7 && time && pre != 0 && preSum != 0 then fit32 7 (65536 * (maxI (m.drop pre)) * pre / preSum).toNat else 0)]
  let lo := cumReach iv (sum / 200)
  let hi := cumReach iv (sum - sum / 200)
  let k8 := if on 8 && spec then [(4, hi - lo + 1), (4, lo)] else [(8, 0)]
  let present := if spec then mask.toNat &&& 0x107 else mask.toNat &&& 0xFF
  pack ([(8, seq), (2, present), (2, 0), (4, n)] ++ k0 ++ k1 ++ k2 ++ k3 ++ k4 ++ k5 ++ k6 ++ k7 ++ k8 ++ [(8, 0)])

end Sys2Proof.Machine
end

