-- ==== Sys2Proof/Machine/Acquire.lean ====
section
/-! DEFINITION. Acquisition units: items, triggers, captures, chunks and the records they write (R438–R465). -/

namespace Sys2Proof.Machine

/-! ### Sample times (R150) and slots (R216) -/

/-- Time of sample k of a stream in units of the time base. -/
def Stream.timeOf (x : Stream) (k : Nat) : Nat := x.t0 + k * unitS / max 1 x.par.fs

/-- Smallest index of a stream whose time is at or after t. -/
def Stream.indexAt (x : Stream) (t : Nat) : Nat := ceilDiv ((t - x.t0) * x.par.fs) unitS

/-- The 16-bit form of a sample slot (R216): the N most significant bits of the N' received. -/
def StreamPar.comp (p : StreamPar) (slot : Nat) : Int := sx p.n (slot / 2 ^ (p.n' - p.n)) * 2 ^ (16 - p.n)

/-- N'-bit slots packed most significant bit first (R465). -/
def packSlots (w : Nat) (slots : List Nat) : List Byte :=
  let bitsL := slots.flatMap fun v => ((List.range w).map fun i => bit v (w - 1 - i))
  let n := ceilDiv bitsL.length 8
  (List.range n).map fun k =>
    BitVec.ofNat 8 ((List.range 8).foldl (fun a i => 2 * a + b2n ((bitsL[8 * k + i]?).getD false)) 0)

/-! ### A unit's source -/

def State.acq (s : State) (u : Nat) : Acq := nth s.acqs u .reset
def State.chan (s : State) (c : Nat) : Chan := nth s.chans c .reset
def State.stream (s : State) (i : Nat) : Stream := nth s.streams i .reset
def State.setAcq (s : State) (u : Nat) (f : Acq → Acq) : State := { s with acqs := upd s.acqs u f }
def State.setChan (s : State) (c : Nat) (f : Chan → Chan) : State := { s with chans := upd s.chans c f }
def State.setStream (s : State) (i : Nat) (f : Stream → Stream) : State := { s with streams := upd s.streams i f }

/-- The stream a unit's source lies on. -/
def State.acqStream (s : State) (a : Acq) : Nat := if a.par.source = 1 then a.par.srcIdx else (s.chan a.par.srcIdx).stream

/-- Stream indices from one item of a unit to the next (R439). -/
def State.acqPitch (s : State) (a : Acq) : Nat :=
  let c := s.chan a.par.srcIdx
  match a.par.source with
  | 1 => 1
  | 2 => c.fe.d
  | _ => c.sp.h * c.fe.d

/-- TIME_SUSPECT of a stream's records (R136, R137, R148, R165, R202, R803). -/
def State.suspectFlag (s : State) (stream : Nat) : Flags :=
  let x := s.stream stream
  fIf (nth s.time.groupSuspect x.par.group.val false || x.suspect || s.clk.slewing || !s.pllOk) fSuspect

/-- The flags of an item of sync group g formed now: COAST (R133) and TIME_SUSPECT (R136, R137, R148, R202). -/
def State.timeFlags (s : State) (stream : Nat) : Flags := fIf s.clk.coast fCoast ||| s.suspectFlag stream

/-- Reduction interval at a level (R455). -/
def AcqPar.interval (p : AcqPar) (level : Nat) : Nat :=
  if 2 ≤ p.i0 then p.i0 * 2 ^ level else if level = 0 then 1 else 2 ^ (level + 1)

/-- Payload bytes of n time-source items at an interval (R454, R465). -/
def State.timeBytes (s : State) (a : Acq) (n ik : Nat) : Nat :=
  let x := s.stream (s.acqStream a)
  if a.par.source = 1 then
    if ik = 1 then ceilDiv (n * x.par.m * x.par.n') 8 else ceilDiv n ik * 4 * x.par.m
  else if ik = 1 then 4 * n else 8 * ceilDiv n ik

/-- Bytes an output bin takes in a product record (R294). -/
def codeBytes : Nat → Nat
  | 3 => 8 | 6 => 16 | 7 => 32 | _ => 4

/-- Payload bytes of a product record: prefix, bins and, for spectral kurtosis, the flag bitmap (R294, R314, R317). -/
def productBytes (pr : ProdSet) (code : Nat) : Nat :=
  let n := pr.bins / 2 ^ pr.b
  ceilDiv (32 + n * codeBytes code) 8 * 8 + (if code = 8 then ceilDiv n 64 * 8 else 0)

/-- Bytes a unit's item takes in its history circle (R445): a spectrum is kept as its record payload. -/
def State.itemBytes (s : State) (a : Acq) : Nat :=
  let x := s.stream (s.acqStream a)
  match a.par.source with
  | 1 => ceilDiv (x.par.m * x.par.n') 8
  | 2 => 4
  | _ => productBytes (s.chan a.par.srcIdx).pr a.par.code

/-- Records of a set-up at a level are measured (R458): channel samples in full, or power spectra. -/
def AcqPar.measures (p : AcqPar) (level : Nat) : Bool :=
  bit p.flags.toNat 5 && ((p.source == 2 && p.interval level == 1) || (p.source == 3 && p.code == 2))

/-- Room for a measurement block after a record (R458): the block is a record of its own. -/
def AcqPar.measureRoom (p : AcqPar) (level : Nat) : Nat := if p.measures level then slotBytes 80 else 0

/-- Record slot of modes 0–2: one record of P + Q items, or one record for each of P + Q spectra (R439, R444). -/
def State.slotOf (s : State) (a : Acq) : Nat :=
  if a.par.source = 3 then (a.par.p + a.par.q) * (slotBytes (s.itemBytes a) + a.par.measureRoom 0)
  else slotBytes (ceilDiv (s.timeBytes a (a.par.p + a.par.q) (a.par.interval 0)) 8 * 8) + a.par.measureRoom 0

/-- Items the history circle holds (R445). -/
def State.circleItems (s : State) (a : Acq) : Nat :=
  ((s.region a.region).bytes - 2 * s.slotOf a) * 8 /
    max 1 (if a.par.source = 1 then (s.stream (s.acqStream a)).par.m * (s.stream (s.acqStream a)).par.n' else 8 * s.itemBytes a)

/-- Chunk slot of modes 3 and 4 at a level. -/
def State.chunkSlot (s : State) (a : Acq) : Nat := slotBytes (ceilDiv (s.timeBytes a a.par.c (a.par.interval 0)) 8 * 8)

/-- Chunk slots below the last 1 MiB (R444). -/
def State.chunkSlots (s : State) (a : Acq) : Nat := ((s.region a.region).bytes - 2 ^ 20) / max 1 (s.chunkSlot a)

/-- Item number of the item that a unit's source gives next, when it is known. Outputs that SUPPRESS_FILL withholds are no items (R806). -/
def State.nextItem (s : State) (a : Acq) : Option Nat :=
  let c := s.chan a.par.srcIdx
  match a.par.source with
  | 1 => (s.stream a.par.srcIdx).next
  | 2 => if c.st = .running || c.st = .draining then some (c.nextOut + if c.supFill then c.fillLeft else 0) else none
  | _ => if c.st = .running || c.st = .draining then some c.nextSpec else none

/-- The first item that a unit takes: the next one of its source, or with an arm index the first at or after it (R468). -/
def State.firstItem (s : State) (a : Acq) : Option Nat :=
  match a.firstNo with
  | some n => some n
  | none => (s.nextItem a).map fun n => max n (ceilDiv (a.armIdx.getD 0) (max 1 (s.acqPitch a)))

/-! ### Events (R450, R471) -/

/-- Count an ignored trigger and raise its event at most once a millisecond; the event carries the triggers ignored without an
event of their own since the last (R450, log entry 17). `k` is 0 early, 1 hold-off, 2 overlap. -/
def State.acqIgnored (s : State) (u k xt line cause : Nat) : State :=
  let s := s.setAcq u fun a => { a with
    early := if k = 0 then satN 255 (a.early + 1) else a.early
    hold := if k = 1 then satN 255 (a.hold + 1) else a.hold
    overlap := if k = 2 then satN 255 (a.overlap + 1) else a.overlap
    ignored := a.ignored + 1 }
  let a := s.acq u
  let due := match nth a.lastEvt k none with | some t => decide (t + 1000000 ≤ s.now) | none => true
  if !bit a.par.flags.toNat k then s
  else if due then
    let s := s.setAcq u fun a =>
      { a with evtCount := upd a.evtCount k fun _ => 0, lastEvt := upd a.lastEvt k fun _ => some s.now }
    s.note (if k = 0 then .trigEarly else if k = 1 then .trigHoldoff else .trigOverlap) (s.handleOf 3 a.region)
      [(8, xt), (1, line), (1, cause), (2, satN 65535 (nth a.evtCount k 0))]
  else s.setAcq u fun a => { a with evtCount := upd a.evtCount k (· + 1) }

/-- RECORD_DONE of the region's last record, when EV_DONE asks for it (R471). -/
def State.recordDone (s : State) (u : Nat) (flags : Flags) : State :=
  let a := s.acq u
  let r := s.region a.region
  match bit a.par.flags.toNat 3, r.recs.getLast? with
  | true, some x => s.note .recordDone (s.handleOf 3 a.region) [(8, x.seq), (1, x.kind), (1, x.fmt), (2, flags.toNat % 65536)]
  | _, _ => s

/-! ### Records of a unit (R454, R458, R459, R465) -/

/-- Items grouped by reduction interval, in order. -/
def groupItems (ik : Nat) : List Item → List (List Item)
  | [] => []
  | x :: r =>
    match groupItems ik r with
    | [] => [[x]]
    | g :: gs => if (g.head?.map fun y => y.no / ik) = some (x.no / ik) then (x :: g) :: gs else [x] :: g :: gs

/-- Min and max of each component over an interval, 16-bit each (R454). -/
def minMax (comps : List (List Int)) : List Byte :=
  let w := (comps.map List.length).foldl max 0
  (List.range w).flatMap fun k =>
    let c := comps.map fun v => (v[k]?).getD 0
    pack [(2, twos 16 (minI c)), (2, twos 16 (maxI c))]

/-- Payload of time-source items at a level. -/
def State.timePayload (s : State) (a : Acq) (level : Nat) (items : List Item) : List Byte :=
  let p := (s.stream (s.acqStream a)).par
  let ik := a.par.interval level
  if a.par.source = 1 then
    if ik = 1 then padTo 8 (packSlots p.n' (items.flatMap fun x => x.vals.map Int.toNat))
    else (groupItems ik items).flatMap fun g => minMax (g.map fun x => x.vals.map fun v => p.comp v.toNat)
  else if ik = 1 then items.flatMap fun x => pack (x.vals.map fun v => (2, twos 16 v))
  else (groupItems ik items).flatMap fun g => minMax (g.map fun x => x.vals)

/-- The capture a record belongs to, as the header shows it. -/
structure AcqMark where
  trig  : Option Nat
  cause : BitVec 32
  pre   : Nat
  seg   : Nat
  deriving DecidableEq, Repr

def AcqMark.untriggered : AcqMark := ⟨none, causeMask 0 false true 0, 0, 0⟩

/-- Header of a unit's record whose first item is `x`. -/
def State.acqHdr (s : State) (u : Nat) (level : Nat) (x : Item) (flags : Flags) (m : AcqMark) : Hdr :=
  let a := s.acq u
  let c := s.chan a.par.srcIdx
  let time := a.par.source != 3
  let kind := if a.par.source = 3 then x.kind else if a.par.interval level ≠ 1 then 0x09 else a.par.source
  let fmt := if a.par.source = 3 then x.fmt else if a.par.interval level ≠ 1 && a.par.source = 1 then 2 else 1
  { source := if a.par.source = 1 then s.handleOf 1 a.par.srcIdx else s.handleOf 2 a.par.srcIdx
    kind := kind, fmt := fmt, seg := m.seg, time := x.stamp.time, idx := x.stamp.idx, flags := flags ||| fLevel level
    trig := m.trig, cause := m.cause, pre := m.pre, cgen := x.stamp.cgen, fgen := x.stamp.fgen, journal := x.stamp.journal
    level := level, log2d := if a.par.source = 1 then 0 else Nat.log2 (max 1 c.fe.d), exp := x.stamp.exp
    hop := if time then 0 else c.sp.h, nco := if a.par.source = 1 then 0 else x.stamp.nco
    fs := (s.stream (s.acqStream a)).par.fs, unit := u, mode := a.par.mode, ignored := a.ignored }

/-- Measurement block of a record just written (R458). -/
def State.measure (s : State) (u off : Nat) (ready : Bool) (h : Hdr) (items : List Item) (pre : Nat) : State :=
  let a := s.acq u
  let spec := h.kind == 4 && h.fmt == 1
  let seq := (s.region a.region).nextSeq - 1
  let iv := if spec then (match items with | x :: _ => ((words32 (x.vals.map fun v => BitVec.ofNat 8 v.toNat)).drop 8).map Int.ofNat | [] => [])
    else items.map fun x => x.vals.headD 0
  let qv := if spec then [] else items.map fun x => (x.vals[1]?).getD 0
  let d := (s.chan a.par.srcIdx).fe.d
  let block := measureBlock seq a.par.meas spec iv qv pre a.par.hyst (s.stream (s.acqStream a)).par.fs d
  (s.putRecord a.region off ready { h with kind := 0x0A, fmt := 0x02, exp := 0, ignored := 0 } block).recordDone u
    (h.flags ||| fIf s.debugOpen fDebug)

/-- Write a unit's record, and its measurement block, at an offset; the count of ignored triggers starts again (R450). -/
def State.acqRecord (s : State) (u off level : Nat) (ready : Bool) (items : List Item) (flags : Flags) (m : AcqMark) (preItems : Nat) : State :=
  match items with
  | [] => s
  | x :: _ =>
    let a := s.acq u
    let f := orAll (items.map (·.flags)) ||| flags ||| fIf a.gapNext fGap
    let level := if a.par.source = 3 then x.stamp.level else level
    let h := s.acqHdr u level x f m
    let payload := if a.par.source = 3 then x.vals.map fun v => BitVec.ofNat 8 v.toNat else s.timePayload a level items
    let s := s.putRecord a.region off ready h payload
    let s := s.setAcq u fun a => { a with ignored := 0, gapNext := false }
    let s := if a.par.mode = 4 then s else s.recordDone u (h.flags ||| fIf s.debugOpen fDebug)
    if a.par.measures level then
      s.measure u (off + slotBytes (padTo 8 payload).length) ready h items preItems
    else s

/-- A record slot of modes 0–2 is free (R446). -/
def State.slotFree (s : State) (u k : Nat) : Bool :=
  let a := s.acq u
  (s.region a.region).roomAt (k * s.slotOf a) (s.slotOf a)

/-- Count a dropped record (R461, R529); the next one carries STREAM_GAP. -/
def State.acqDrop (s : State) (u : Nat) : State :=
  s.setAcq u fun a => { a with dropped := satN 255 (a.dropped + 1), gapNext := true }

/-- Count an overrun of an HBM port (R529). -/
def State.overrun (s : State) (port n : Nat) : State :=
  { s with hbm := { s.hbm with overrun := upd s.hbm.overrun port fun c => satN 65535 (c + n) } }

/-- Items that met a full port buffer leave the record, which carries STREAM_GAP (R529). -/
def State.acqLost (s : State) (u : Nat) (lost : List Nat) (items : List Item) : State × List Item × Flags :=
  let keep := items.filter fun x => !lost.contains x.no
  if keep.length = items.length then (s, items, 0)
  else (s.overrun (if (s.acq u).par.source = 1 then 0 else 1) 1, keep, fGap)

/-- Codewords of the history circle read as zero: `zeroed` names them as (item, codeword within the item) (R546). -/
def State.acqZeroed (s : State) (u : Nat) (zeroed : List (Nat × Nat)) (items : List Item) : State × List Item :=
  let hit := fun (x : Item) => zeroed.any fun (z : Nat × Nat) => z.1 == x.no
  let src := if (s.acq u).par.source = 1 then 0 else 1
  (s.regionFaults (s.acq u).region src zeroed, items.map fun x =>
    if hit x then { x with
      vals := x.vals.mapIdx fun j v => if (s.acq u).par.source ≠ 3 ∨ zeroed.contains (x.no, j / 32) then 0 else v
      flags := x.flags ||| fPoison }
    else x)

/-! ### Completing a capture, hold-off, disarm (R441, R449, R469) -/

/-- The unit is IDLE: nothing is held of its source, and every ACQ_DISARM that waits completes. -/
def State.acqIdle (s : State) (u : Nat) : State :=
  (s.acq u).disarm.foldl (fun (s : State) r => s.complete r.val .ok 0 0 (s.handleOf 3 (s.acq u).region))
    (s.setAcq u fun a => { a with disarm := [], st := .idle, cap := none, hist := [], firstNo := none, armIdx := none })

/-- After a triggered record whose last item's time is `tEnd` (units): DONE, the next segment, or the hold-off, which counts from that time whatever
state the unit is in meanwhile. -/
def State.afterRecord (s : State) (u tEnd : Nat) : State :=
  let a := s.acq u
  let rearm := fun (a : Acq) =>
    if bit a.par.flags.toNat 4 then { a with st := .holdoff, holdLeft := a.par.hold, cap := none }
    else if a.par.hold = 0 then { a with st := .armed, holdEnd := tEnd, cap := none }
    else { a with st := .holdoff, holdEnd := tEnd + a.par.hold * unitNs, cap := none }
  let s := s.setAcq u fun a =>
    match a.par.mode with
    | 0 => { a with st := .done, cap := none }
    | 2 => if a.segment + 1 ≥ a.par.s then { a with st := .done, cap := none, segment := a.segment + 1 }
           else rearm { a with segment := a.segment + 1 }
    | _ => rearm a
  if a.disarm.isEmpty then s else s.acqIdle u

/-- Write the records of spectra of a capture one after another in its slot. -/
def State.acqSpectra (s : State) (u level off : Nat) (flags : Flags) (m : AcqMark) (c : Capture) : List Item → State
  | [] => s
  | x :: r =>
    let step := slotBytes (s.itemBytes (s.acq u)) + (s.acq u).par.measureRoom 0
    (s.acqRecord u off level true [x] flags m (b2n (x.no < c.trigNo))).acqSpectra u level (off + step) flags m c r

/-- Close a capture of modes 0–2: its items up to `upTo` go to a free slot. A capture without an item writes nothing (log entry 17). -/
def State.closeCapture (s : State) (u upTo : Nat) (extra : Flags) (lost : List Nat) (zeroed : List (Nat × Nat)) : State :=
  let a := s.acq u
  match a.cap with
  | none => s
  | some c =>
    let last := min upTo c.toNo
    let items := a.hist.filter fun x => decide (c.fromNo ≤ x.no) && decide (x.no ≤ last)
    let (s, items, gap) := s.acqLost u lost items
    let (s, items) := s.acqZeroed u zeroed items
    let early := decide (last < c.toNo)
    let flags := fIf (c.trunc || early) fTruncated ||| fIf c.overlap fOverlap ||| gap ||| extra
    let m : AcqMark := ⟨some c.xt, c.cause, c.trigNo - c.fromNo, if a.par.mode = 2 then a.segment else 0⟩
    let slot := if s.slotFree u (a.nextSlot % 2) then a.nextSlot % 2 else (a.nextSlot + 1) % 2
    let s := if a.par.source = 3 then s.acqSpectra u a.level (slot * s.slotOf a) flags m c items
      else s.acqRecord u (slot * s.slotOf a) a.level true items flags m (c.trigNo - c.fromNo)
    let tEnd := match items.getLast? with
      | some x => (s.stream (s.acqStream a)).timeOf x.stamp.idx
      | none => s.time.tb
    (s.setAcq u fun a => { a with nextSlot := slot + 1 }).afterRecord u tEnd

/-! ### Chunks (R441, R451–R453, R457) -/

/-- Index of the first item of the chunk that is open, else of the next one. -/
def State.chunkFrom (s : State) (a : Acq) : Nat :=
  (match a.hist with | x :: _ => x.no | [] => (s.nextItem a).getD 0) * s.acqPitch a

/-- Level that the next chunk takes (R457), with the unit's event already raised at the step; on a hot secondary the chunk that begins at its
primary's item (R676). -/
def State.newLevel (s : State) (u : Nat) : State :=
  let from_ := s.chunkFrom (s.acq u)
  s.setAcq u fun a => match a.newLevel with
    | some l => if a.levelFrom ≤ from_ then { a with level := l, newLevel := none, levelFrom := 0 } else a
    | none => a

/-- A chunk is held for a dump until the bound sink has delivered it (R446, R453). -/
def State.chunkHeld (s : State) (u : Nat) (c : Chunk) : Bool :=
  let r := s.region (s.acq u).region
  c.held && r.sink.isSome && r.recs.any fun x : Rec => x.seq == c.seq && !x.delivered

/-- A chunk slot that the writer may take (R451). -/
def State.ringSlotFree (s : State) (u k : Nat) : Bool := !(s.acq u).ring.any fun c => c.slot == k && s.chunkHeld u c

/-- Next slot in circular order that is not held. -/
def State.nextRingSlot (s : State) (u : Nat) : Option Nat :=
  let a := s.acq u
  let n := s.chunkSlots a
  ((List.range n).map fun i => (a.nextChunk + i) % n).find? (s.ringSlotFree u)

/-- A chunk of a range of numbers, taken since the last discontinuity. -/
def Acq.inRange (a : Acq) (lo hi : Nat) (c : Chunk) : Bool := decide (lo ≤ c.no) && decide (c.no ≤ hi) && decide (a.firstNo.getD 0 ≤ c.first)

/-- The chunks of a range in the ring, in index order. -/
def Acq.chunks (a : Acq) (lo hi : Nat) : List Chunk := a.ring.filter (a.inRange lo hi)

/-- Hold the chunks of a range and hand them to the sink; one that an earlier dump has released goes out again (R452, R453). -/
def State.holdChunks (s : State) (u lo hi : Nat) : State :=
  let a := s.acq u
  let seqs := ((a.chunks lo hi).filter fun c => !s.chunkHeld u c).map (·.seq)
  let s := s.setAcq u fun a => { a with ring := a.ring.map fun c => if a.inRange lo hi c then { c with held := true } else c }
  let low := seqs.foldl min (seqs.headD 0)
  { s with
    regions := upd s.regions a.region fun r =>
      { r with recs := r.recs.map fun x : Rec => if seqs.contains x.seq then { x with ready := true, delivered := false } else x }
    sinks := match (s.region a.region).sink, seqs with
      | some k, _ :: _ => upd s.sinks k fun x : Sink => { x with next := min x.next low }
      | _, _ => s.sinks }

/-- Write the dump summary (kind 0x01 format 0x02) to the summary circle (R453). -/
def State.dumpSummary (s : State) (u : Nat) (c : Capture) (extra : Flags) : State :=
  let a := s.acq u
  let ch := a.chunks c.fromNo c.toNo
  let r := s.region a.region
  let payload := pack ([(8, (ch.head?.map (·.first)).getD 0), (8, (ch.getLast?.map fun x => x.last + 1).getD 0), (4, ch.length),
    (4, c.lost), (8, 0)] ++ ch.map fun x => (8, x.seq))
  let first := (ch.head?.map (·.first)).getD 0
  let len := slotBytes payload.length
  let lo := r.bytes - 2 ^ 20
  match r.circle (lo + a.woff) len lo r.bytes with
  | none => s.acqDrop u
  | some off =>
    let x := s.stream a.par.srcIdx
    let h := { Hdr.plain (s.handleOf 1 a.par.srcIdx) 1 2 (x.timeOf first / unitF) with
      idx := first, trig := some c.xt, cause := c.cause, pre := (ch.filter fun k => decide (k.no < c.trigNo)).length
      flags := fIf (c.trunc || decide (0 < c.lost)) fTruncated ||| fIf c.overlap fOverlap ||| s.suspectFlag a.par.srcIdx ||| extra, journal := (ch.head?.map (·.journal)).getD (s.sec.jNext - 1)
      fs := x.par.fs, unit := u, mode := a.par.mode, ignored := a.ignored, level := a.level }
    let s := s.putRecord a.region off true h payload
    let s := s.setAcq u fun a => { a with woff := off + len - lo, ignored := 0 }
    s.recordDone u h.flags

/-- A dump completes when its last chunk closes: summary, then hold-off (R449, R452). -/
def State.dumpDone (s : State) (u : Nat) (extra : Flags) : State :=
  let a := s.acq u
  match a.cap with
  | none => s
  | some c =>
    let tEnd := match (a.chunks c.fromNo c.toNo).getLast? with
      | some k => (s.stream a.par.srcIdx).timeOf k.last
      | none => s.time.tb
    (s.dumpSummary u c extra).afterRecord u tEnd

/-- Dropped items are a discontinuity of a raw ring (R448, R451): a dump ends with what it has, and the unit fills again. -/
def State.ringDrop (s : State) (u : Nat) : State :=
  let s := s.acqDrop u
  let s := if (s.acq u).cap.isSome then
      (s.setAcq u fun a => { a with cap := a.cap.map fun c => { c with trunc := true } }).dumpDone u 0
    else s
  s.setAcq u fun a => { a with
    firstNo := none, st := if a.st = .armed || a.st = .capture || a.st = .holdoff then .filling else a.st }

/-- Write a chunk of items: in mode 3 to the circle, in mode 4 to the next slot that is not held (R441, R451). -/
def State.putChunk (s : State) (u : Nat) (items : List Item) (flags : Flags) : State :=
  match items with
  | [] => s
  | x :: _ =>
    let a := s.acq u
    let lastNo := (items.getLast?.map (·.no)).getD x.no
    if a.par.mode = 4 then
      match s.nextRingSlot u with
      | none => s.ringDrop u
      | some k =>
        let seq := (s.region a.region).nextSeq
        let no := x.no / a.par.c
        let hold := match a.cap with | some c => c.fromNo ≤ no && no ≤ c.toNo | none => false
        let s := s.acqRecord u (k * s.chunkSlot a) a.level hold items flags .untriggered 0
        let s := s.setAcq u fun a => { a with
          ring := (a.ring.filter fun c => c.slot != k) ++ [⟨no, k, seq, x.no, lastNo, hold, x.stamp.journal⟩], nextChunk := k + 1 }
        match a.cap with
        | some c => if c.toNo ≤ no then s.dumpDone u 0 else s
        | none => s
    else
      let r := s.region a.region
      let pay := padTo 8 (s.timePayload a a.level items)
      let len := slotBytes pay.length + a.par.measureRoom a.level
      match r.circle a.woff len 0 r.bytes with
      | none => s.acqDrop u
      | some off => (s.acqRecord u off a.level true items flags .untriggered 0).setAcq u fun a => { a with woff := off + len }

/-- Close the open chunk before its boundary (R448, R469): TRUNCATED. -/
def State.cutChunk (s : State) (u : Nat) (extra : Flags) : State :=
  let items := (s.acq u).hist
  ((s.putChunk u items (fTruncated ||| extra)).setAcq u fun a => { a with hist := [] }).newLevel u

/-! ### Discontinuities (R448) -/

/-- The unit takes items. -/
def Acq.live (a : Acq) : Bool :=
  a.st = .filling || a.st = .armed || a.st = .capture || a.st = .holdoff || a.st = .streaming

/-- Close what is open at its last item and start filling again. -/
def State.acqBreak (s : State) (u : Nat) (extra : Flags) : State :=
  let a := s.acq u
  let lastNo := (a.hist.getLast?.map (·.no)).getD 0
  let s :=
    if !a.live then s
    else if a.par.mode ≤ 2 then (if a.cap.isSome && !a.hist.isEmpty then s.closeCapture u lastNo extra [] [] else s.setAcq u fun a => { a with cap := none })
    else if a.par.source = 3 then s
    else
      let s := s.cutChunk u extra
      if a.par.mode = 4 && (s.acq u).cap.isSome then
        (s.setAcq u fun a => { a with cap := a.cap.map fun c => { c with trunc := true } }).dumpDone u extra
      else s
  let s := s.setAcq u fun a => { a with
    hist := [], firstNo := none
    st := if a.st = .armed || a.st = .capture || a.st = .filling || a.st = .holdoff then .filling else a.st }
  if !(s.acq u).disarm.isEmpty && (s.acq u).st = .filling then s.acqIdle u else s

/-! ### Items -/

/-- A product record goes to its continuous unit as it is formed (R439, R441, R461). -/
def State.acqProduct (s : State) (u : Nat) (it : Item) : State :=
  let a := s.acq u
  let r := s.region a.region
  let len := slotBytes (ceilDiv it.vals.length 8 * 8) + a.par.measureRoom 0
  match r.circle a.woff len 0 r.bytes with
  | none => s.acqDrop u
  | some off => (s.acqRecord u off a.level true [it] 0 .untriggered 0).setAcq u fun a => { a with woff := off + len }

/-- An item reaches a unit that takes its source. -/
def State.acqItem (s : State) (u : Nat) (it : Item) : State :=
  let a := s.acq u
  if !a.live then s
  else if a.armIdx.any fun i => decide (it.stamp.idx < i) then s
  else
    let s := s.setAcq u fun a => { a with armIdx := none }
    if a.par.source = 3 && a.par.mode = 3 then s.acqProduct u it
    else
      let s := match a.hist.getLast? with
        | some l => if l.no + 1 = it.no then s else s.acqBreak u 0
        | none => s
      let s := s.setAcq u fun a => { a with hist := a.hist ++ [it], firstNo := some (a.firstNo.getD it.no) }
      if a.par.mode ≤ 2 then
        let n := s.circleItems a
        s.setAcq u fun a =>
          let old := a.hist.length - n
          let hist := (a.hist.take old).filter (fun x => a.cap.any fun c => decide (c.fromNo ≤ x.no)) ++ a.hist.drop old
          { a with hist := hist, st := if a.st = .filling && a.par.p ≤ hist.length then .armed else a.st }
      else s.setAcq u fun a => { a with st := if a.st = .filling then
          (if (a.ring.filter fun c => decide (a.firstNo.getD 0 ≤ c.first)).length ≥ a.par.p then .armed else .filling) else a.st }

/-- An item of a source reaches every unit that takes it, in unit order. -/
def State.feed (s : State) (source srcIdx code : Nat) (it : Item) : State :=
  (List.range 128).foldl (fun s u =>
    let a := s.acq u
    if a.st != .none && a.par.source = source && a.par.srcIdx = srcIdx && (source != 3 || a.par.code = code) then s.acqItem u it else s) s

/-- Units whose source is a channel or stream. -/
def State.acqsOf (s : State) (source srcIdx : Nat) : List Nat :=
  (List.range 128).filter fun u => let a := s.acq u; a.st != .none && a.par.source == source && a.par.srcIdx == srcIdx

/-- The items of a channel end (stop, halt, starve, destroy): its units close what is open (R448). -/
def State.closeChanRecords (s : State) (c : Nat) (extra : Flags) : State :=
  (s.acqsOf 2 c ++ s.acqsOf 3 c).foldl (fun s u => s.acqBreak u extra) s

/-! ### Triggers (R440, R447, R470) -/

/-- How a unit decides a trigger. -/
inductive Decision where
  | none | accepted | early | overlapping
  deriving DecidableEq, Repr

/-- The trigger item of a trigger index (R440); a chunk in ring-dump mode (R452). -/
def State.trigItem (s : State) (a : Acq) (xt : Nat) : Nat :=
  match a.par.source with
  | 1 => if a.par.mode = 4 then xt / max 1 a.par.c else xt
  | 2 => ceilDiv xt (s.acqPitch a)
  | _ => xt / max 1 (s.acqPitch a)

/-- Accept a trigger: the unit is in CAPTURE (R447 steps 6 and 7, R452). -/
def State.acqAccept (s : State) (u xt item oldest lost : Nat) (cause : BitVec 32) (line : Nat) : State :=
  let a := s.acq u
  let lo := item - a.par.p
  let c : Capture := { xt := xt, trigNo := item, fromNo := max lo oldest, toNo := item + a.par.q - 1, cause := cause, line := line
                       trunc := decide (lo < oldest) || decide (0 < lost), overlap := false, lost := lost }
  let s := s.setAcq u fun a => { a with st := .capture, cap := some c }
  if a.par.mode = 4 then
    let s := s.holdChunks u c.fromNo c.toNo
    if (s.acq u).ring.any fun k => decide (c.toNo ≤ k.no) then s.dumpDone u 0 else s
  else s

/-- A trigger on the trigger item of a capture: a sample, an output or a spectrum (R470). -/
def Capture.sameItem (c : Capture) (mode xt item : Nat) : Bool := if mode = 4 then c.xt == xt else c.trigNo == item

/-- The hold-off takes a trigger (R449). -/
def Acq.holds (a : Acq) (t : Nat) : Bool := if bit a.par.flags.toNat 4 then decide (0 < a.holdLeft) else decide (t < a.holdEnd)

/-- Test a trigger in the order of R447. `t` is its time in units. -/
def State.acqTrigger (s : State) (u xt t : Nat) (cause : BitVec 32) (line : Nat) (forced : Bool) : State × Decision :=
  let a := s.acq u
  let item := s.trigItem a xt
  if !(a.st = .filling || a.st = .armed || a.st = .capture || a.st = .holdoff) || a.par.mode = 3 || !a.disarm.isEmpty then (s, .none)
  else match a.st, a.cap with
  | .capture, some c =>
    if c.sameItem a.par.mode xt item && (forced || bit c.cause.toNat 16) then
      (s.setAcq u fun a => { a with cap := some { c with cause := c.cause ||| cause } }, .accepted)
    else
      ((s.setAcq u fun a => { a with cap := some { c with overlap := true } }).acqIgnored u 2 xt line 0, .overlapping)
  | _, _ =>
    if !forced && a.holds t then
      let s := s.setAcq u fun a =>
        let left := a.holdLeft - 1
        { a with holdLeft := left, st := if a.st = .holdoff && bit a.par.flags.toNat 4 && left = 0 then .armed else a.st }
      (s.acqIgnored u 1 xt line 0, .none)
    else if a.par.mode ≤ 2 && !s.slotFree u 0 && !s.slotFree u 1 then (s.acqIgnored u 2 xt line 1, .overlapping)
    else
      let first := s.firstItem a
      let lo := item - a.par.p
      if a.par.mode = 4 then
        let firstChunk := first.map fun n => n / max 1 a.par.c
        if item < a.par.p || (firstChunk.all fun n => decide (lo < n)) then (s.acqIgnored u 0 xt line 0, .early)
        else
          let closed := a.ring.filter fun c => decide (a.firstNo.getD 0 ≤ c.first)
          let until_ := match closed.getLast? with | some c => min (c.no + 1) (item + a.par.q) | none => lo
          let have_ := (a.chunks lo (item + a.par.q - 1)).length
          let oldest := match closed with | c :: _ => c.no | [] => lo
          (s.acqAccept u xt item oldest (until_ - lo - have_) cause line, .accepted)
      else if item < a.par.p || (first.all fun n => decide (lo < n)) then (s.acqIgnored u 0 xt line 0, .early)
      else
        let oldest := match a.hist with | x :: _ => x.no | [] => lo
        (s.acqAccept u xt item oldest 0 cause line, .accepted)

/-- A line trigger reaches its units in unit order (R440, R406). `stream` and `idx` are the deciding hit's. -/
def State.acqLine (s : State) (line t stream idx : Nat) (cause : Nat) : State :=
  (List.range 128).foldl (fun s u =>
    let a := s.acq u
    if a.st != .none && a.par.mode != 3 && a.par.line = line then
      let own := s.acqStream a
      let xt := if own = stream then idx else (s.stream own).indexAt t
      (s.acqTrigger u xt t (causeMask cause false false line) line false).1
    else s) s

end Sys2Proof.Machine
end

