-- ==== Sys2Proof/Machine/CornerTurn.lean ====
section
/-! DEFINITION. Corner-turning sinks: blocks from the inputs' records (R586–R588). -/

namespace Sys2Proof.Machine

def State.sink (s : State) (k : Nat) : Sink := nth s.sinks k .reset

def State.setSink (s : State) (k : Nat) (f : Sink → Sink) : State := { s with sinks := upd s.sinks k f }

/-- A step that an input record supplies (R587): its record, step, spectra per record. -/
structure CtStep where
  rec' : Rec
  step : Nat
  span : Nat
  deriving DecidableEq, Repr

/-- A record of spectra; a measurement block after one is none (R458, R586). -/
def Rec.spectra (r : Rec) : Bool := (r.kind == 3 || r.kind == 4) && r.fmt == 1

/-- Steps that input region i has supplied and no emitted block covers. -/
def State.ctSteps (s : State) (i : Nat) : List CtStep :=
  ((s.region i).recs.filter fun r : Rec => r.ready && !r.delivered && r.spectra).map fun r =>
    let p := readRegion s.hbm.mem (s.region i) (r.off + 128) 12
    let span := num p 8 4
    { rec' := r, step := num p 0 8 / max 1 span, span := span }

/-- The open block: the lowest not yet emitted that some input has begun. -/
def State.ctOpen (s : State) (k : Nat) : Option Nat :=
  let x := s.sink k
  let t := max 1 x.par.t
  let bs := x.par.inputs.flatMap fun i => ((s.ctSteps i).map fun c => c.step / t).filter fun b => decide (x.ctNext ≤ b)
  bs.foldl (fun m b => match m with | none => some b | some v => some (min v b)) none

/-- The step t of block b from input i. -/
def State.ctAt (s : State) (k i b t : Nat) : Option CtStep :=
  (s.ctSteps i).find? fun c => c.step == b * (s.sink k).par.t + t

/-- Every input has supplied all steps of a block (R588). -/
def State.ctFull (s : State) (k b : Nat) : Bool :=
  (s.sink k).par.inputs.all fun i => (List.range (s.sink k).par.t).all fun t => (s.ctAt k i b t).isSome

/-- Output bins B' of an input's records, with f's sum b: from their channel (R586). -/
def State.ctShape (s : State) (k : Nat) : Nat × Nat :=
  match (s.sink k).par.inputs with
  | i :: _ =>
    match (s.region i).writer with
    | .acq u => let p := (s.chan (s.acq u).par.srcIdx).pr; (p.bins / 2 ^ p.b, p.b)
    | _ => (0, 0)
  | [] => (0, 0)

/-- The payload of the record of bins [f0, f0 + n) of a block (R587). -/
def State.ctPayload (s : State) (k b f0 n : Nat) : List Byte :=
  let x := s.sink k
  let ins := x.par.inputs
  let ts := List.range x.par.t
  let cell := fun t i => s.ctAt k i b t
  let mask := ins.mapIdx fun j i => if ts.all fun t => (cell t i).isSome then 0 else 2 ^ j
  let span := (ins.findSome? fun i => ts.findSome? fun t => (cell t i).map fun c => c.span).getD 0
  let exps := ts.flatMap fun t => ins.flatMap fun i =>
    le 2 (match cell t i with | some c => num (readRegion s.hbm.mem (s.region i) (c.rec'.off + 82) 2) 0 2 | none => 0xFFFF)
  let vals := (List.range n).flatMap fun f => ts.flatMap fun t => ins.flatMap fun i =>
    match cell t i with
    | some c => readRegion s.hbm.mem (s.region i) (c.rec'.off + 160 + 4 * (f0 + f)) 4
    | none => [0, 0, 0, 0]
  pack [(8, b * x.par.t * span), (4, span), (2, x.par.t), (2, n), (2, f0), (1, ins.length - 1), (1, (s.ctShape k).2), (4, 0),
    (16, sumN mask), (24, 0)] ++ padTo 8 exps ++ vals

/-- The header of a block's records (R587): from input 0's first record of the block, with the flags of every contributing one. When
input 0 has none, its times, generations and NCO word are free values (log entry 2). -/
def State.ctHdr (s : State) (k b : Nat) (extra : Flags) : Hdr × State :=
  let x := s.sink k
  let cells := x.par.inputs.flatMap fun i => (List.range x.par.t).filterMap fun t => (s.ctAt k i b t).map fun c =>
    (readRegion s.hbm.mem (s.region i) c.rec'.off 128, (poisonedIn s (s.region i) c.rec'.off c.rec'.len).isEmpty)
  let flags := orAll (cells.map fun (h, good) => BitVec.ofNat 32 (num h 44 4) ||| fIf (!good) fPoison) ||| extra |||
    fIf (!s.ctFull k b) fGap
  let kind := ((cells.head?).map fun (h, _) => num h 12 1).getD 0
  let first := (x.par.inputs.head?).bind fun i => (List.range x.par.t).findSome? fun t => (s.ctAt k i b t).map fun c => (i, c)
  let base := { Hdr.plain (s.handleOf 4 k) kind 0x81 0 with flags := flags }
  match first with
  | some (i, c) =>
    let h := readRegion s.hbm.mem (s.region i) c.rec'.off 128
    ({ base with time := num h 24 8 % 2 ^ 40 * 2 ^ 32 + num h 40 4, idx := num h 32 8, cgen := num h 72 2, fgen := num h 74 2
                 journal := num h 76 4, level := num h 80 1, log2d := num h 81 1, hop := num h 84 4, nco := sx 64 (num h 88 8)
                 fs := num h 96 8 }, s)
  | none =>
    let (v, s) := s.freeTake
    ({ base with time := v.toNat, cgen := v.toNat % 65536, fgen := v.toNat / 65536 % 65536, nco := v.toInt }, s)

/-- The inputs' records that blocks up to b cover are delivered, with the measurement blocks that follow them. -/
def State.ctRelease (s : State) (k b : Nat) : State :=
  let x := s.sink k
  let covers := fun i seq => (s.ctSteps i).any fun c => c.rec'.seq == seq && decide (c.step / max 1 x.par.t ≤ b)
  let gone := fun i (y : Rec) => covers i (if y.spectra then y.seq else y.seq - 1)
  { s with regions := s.regions.mapFinIdx fun i r _ =>
      if x.par.inputs.contains i then { r with recs := r.recs.map fun y => if gone i y then { y with delivered := true } else y } else r }

/-- Emit a block into the staging region; none when its records find no room. -/
def State.ctEmit (s : State) (k b : Nat) (extra : Flags) : Option State :=
  let x := s.sink k
  let n := (s.ctShape k).1
  let (h, s1) := s.ctHdr k b extra
  let recs := (List.range (ceilDiv n (max 1 x.par.f))).map fun j => s.ctPayload k b (j * x.par.f) (min x.par.f (n - j * x.par.f))
  (recs.foldl (fun o p => o.bind fun s => s.appendRecord x.par.region h p) (some s1)).map fun s =>
    (s.ctRelease k b).setSink k fun x => { x with ctNext := b + 1 }

/-- An input's ARR level changes: the open block closes at once with TRUNCATED (R588). Steps are numbered anew. -/
def State.ctBreak (s : State) (region : Nat) : State :=
  (List.range 128).foldl (fun s k =>
    let x := s.sink k
    if x.bound && x.par.corner && x.par.inputs.contains region then
      let s := match s.ctOpen k with
        | some b => (s.ctEmit k b fTruncated).getD s
        | none => s
      s.setSink k fun x => { x with ctNext := 0 }
    else s) s

end Sys2Proof.Machine
end

