-- ==== Sys2Proof/Machine/Acquisition.lean ====
section
/-! DEFINITION. The commands and events of the acquisition units (R438–R472). -/

namespace Sys2Proof.Machine

/-- The unit of a region, when it has one (R438). -/
def State.unitOf (s : State) (h : Handle) : Option Nat :=
  match (s.region (hIdx h)).writer with
  | .acq u => some u
  | _ => none

/-- The ACQ_SET fields (R466), with the source's index; the product code without source 3 and the line in mode 3 are ignored (R801). -/
def acqPar (d : Desc) : AcqPar :=
  { source := d.u 0x08 1, mode := d.u 0x09 1, code := if d.u 0x08 1 = 3 then d.u 0x0A 1 else 0, flags := BitVec.ofNat 8 (d.u 0x0B 1)
    srcIdx := d.u 0x0C 1, p := d.u 0x10 4, q := d.u 0x14 4, c := d.u 0x18 4, hold := d.u 0x1C 4, s := d.u 0x20 2
    line := if d.u 0x09 1 = 3 then 255 else d.u 0x22 1, arrMax := d.u 0x23 1
    i0 := d.u 0x24 4, high := d.u 0x28 1, low := d.u 0x29 1, dwell := d.u 0x2A 2
    meas := BitVec.ofNat 9 (d.u 0x2C 2), hyst := d.u 0x2E 2 }

/-- Source handle of ACQ_SET. -/
def acqSource (d : Desc) : Handle := BitVec.ofNat 32 (d.u 0x0C 4)

def isPow2 (v : Nat) : Bool := v != 0 && 2 ^ Nat.log2 v == v

/-- A product of R318 that a channel has enabled, by record code (R294, R439). -/
def Chan.makes (c : Chan) (code : Nat) : Bool := code ≥ 1 && code ≤ 8 && c.pr.mask.getLsbD (code - 1)

/-- The reserved bytes and bits are 0 (R466). -/
def acqReserved (d : Desc) : Bool := d.clean [(0x08, 40)] && !dBit d 0x0B 7 && decide (d.u 0x2C 2 < 512)

/-- Fields in range (R442, R445, R455, R466, R467); fields that only another mode, source or flag uses are ignored (R801). -/
def acqParOk (s : State) (d : Desc) (i : Nat) : Bool :=
  let p := acqPar d
  let a : Acq := { Acq.reset with par := p, region := i }
  let fl := fun k => bit p.flags.toNat k
  let chunked := p.mode = 4 || (p.mode = 3 && p.source != 3)
  acqReserved d && inR p.source 1 3 && p.mode ≤ 4 &&
  (p.source != 3 || inR p.code 1 8) &&
  (p.mode != 4 || p.source == 1) && (p.source != 3 || p.code ≤ 2 || p.mode == 3) &&
  (p.mode == 3 || (1 ≤ p.q && p.line ≤ 63)) &&
  (!chunked || (isPow2 p.c && inR p.c (2 ^ 12) (2 ^ 24))) &&
  (p.mode == 0 || p.mode == 3 || !fl 4 || inR p.hold 1 65535) &&
  (p.mode != 2 || 1 ≤ p.s) &&
  (p.source == 3 || (isPow2 p.i0 && p.i0 ≤ 65536)) &&
  (!(fl 6 && p.mode == 3) || (p.arrMax ≤ 7 && p.low < p.high && 1 ≤ p.dwell)) &&
  (!(chunked) || p.source == 3 || p.i0 * 2 ^ ((if fl 6 && p.mode == 3 then p.arrMax else 0) + 1) ≤ p.c) &&
  (!fl 5 || p.mode == 3 || p.source == 3 || p.i0 == 1) &&
  (p.mode > 2 || (2 * s.slotOf a ≤ (s.region i).bytes && p.p + p.q ≤ s.circleItems a)) &&
  (p.mode != 4 || p.p + p.q + 2 ≤ s.chunkSlots a)

/-- Result B of ACQ_SET (R467). -/
def acqResultB (s : State) (a : Acq) : Nat :=
  if a.par.mode ≤ 2 then s.circleItems a
  else if a.par.mode = 3 then
    (s.region a.region).bytes / max 1 ((if a.par.source = 3 then slotBytes (s.itemBytes a) else s.chunkSlot a) + a.par.measureRoom 0)
  else s.chunkSlots a

/-- The ARR level of the channel whose products a unit takes, or took: the highest among the units that take them (R457). -/
def State.chanLevel (s : State) (a : Acq) : State :=
  if a.par.source = 3 then
    let top := ((s.acqsOf 3 a.par.srcIdx).map fun v => (s.acq v).level).foldl max 0
    s.setChan a.par.srcIdx fun c => { c with level := top }
  else s

/-- ACQ_SET (R438, R466, R467). -/
def acqSetBody (d : Desc) (s : State) : Verdict :=
  let i := hIdx d.handle
  let p := acqPar d
  let u? := s.unitOf d.handle
  let st := match u? with | some u => (s.acq u).st | none => .none
  if p.source = 0 then
    if st = .idle || st = .done then
      if acqReserved d then
        match u? with
        | some u => .done .ok u 0 d.handle (((s.setAcq u fun _ => .reset).chanLevel (s.acq u)).setWriter i .none)
        | none => fail .wrongState d s
      else fail .badParam d s
    else fail .wrongState d s
  else if (p.source = 1 && !s.valid 1 (acqSource d)) || ((p.source = 2 || p.source = 3) && !s.valid 2 (acqSource d)) then fail .badHandle d s
  else if !(st = .none || st = .idle || st = .done) || (p.source = 1 && (s.stream p.srcIdx).st = .held) ||
      (p.source = 3 && inR p.code 1 8 && !(s.chan p.srcIdx).makes p.code) then fail .wrongState d s
  else if !acqParOk s d i then fail .badParam d s
  else match u? with
  | some u =>
    let a : Acq := { Acq.reset with st := .idle, region := i, par := p, early := (s.acq u).early, hold := (s.acq u).hold
                                    overlap := (s.acq u).overlap, dropped := (s.acq u).dropped }
    .done .ok u (acqResultB s a) d.handle ((s.setAcq u fun _ => a).chanLevel (s.acq u))
  | none =>
    if (s.region i).writer != .none then fail .resourceBusy d s
    else match firstIdx 128 (fun u => (s.acq u).st == .none) with
      | none => fail .noCapacity d s
      | some u =>
        let a : Acq := { Acq.reset with st := .idle, region := i, par := p }
        .done .ok u (acqResultB s a) d.handle ((s.setAcq u fun _ => a).setWriter i (.acq u))

/-- ACQ_ARM (R446, R468). -/
def acqArmBody (d : Desc) (s : State) : Verdict :=
  match s.unitOf d.handle with
  | none => fail .wrongState d s
  | some u =>
    let a := s.acq u
    if !(a.st = .idle || a.st = .done) || (3 ≤ a.par.mode && (s.region a.region).sink.isNone) then fail .wrongState d s
    else if !d.clean [(0x08, 9)] || 2 ≤ d.u 0x10 1 then fail .badParam d s
    else
      let at? := if dBit d 0x10 0 then some (d.u 0x08 8) else none
      let s := if a.par.mode ≤ 2 then
          { s with regions := upd s.regions a.region fun r => { r with recs := r.recs.map fun x : Rec => { x with delivered := true } } }
        else s
      .done .ok 0 0 d.handle (s.setAcq u fun a =>
        { a with st := if a.par.mode = 3 then .streaming else .filling, armIdx := at?, hist := [], firstNo := none
                 cap := none, segment := 0, holdEnd := 0, holdLeft := 0 })

/-- ACQ_DISARM (R469). -/
def acqDisarmBody (d : Desc) (s : State) : Verdict :=
  if !d.clean [(0x08, 1)] || 2 ≤ d.u 0x08 1 then fail .badParam d s
  else match s.unitOf d.handle with
  | none => fail .wrongState d s
  | some u =>
    let a := s.acq u
    if a.st = .capture then
      if dBit d 0x08 0 then .done .ok 0 0 d.handle ((s.acqBreak u fTruncated).acqIdle u)
      else .wait .point d.handle (s.setAcq u fun a => { a with disarm := a.disarm ++ [d.ring] })
    else if a.st = .streaming && a.par.source != 3 then .done .ok 0 0 d.handle ((s.cutChunk u 0).acqIdle u)
    else .done .ok 0 0 d.handle (s.acqIdle u)

/-- ACQ_FORCE (R470): Result A 0 accepted, 1 early, 2 overlapping. -/
def acqForceBody (d : Desc) (s : State) : Verdict :=
  if !d.clean [(0x08, 9)] || 2 ≤ d.u 0x10 1 then fail .badParam d s
  else match s.unitOf d.handle with
  | none => fail .wrongState d s
  | some u =>
    let a := s.acq u
    if !(a.st = .filling || a.st = .armed || a.st = .capture || a.st = .holdoff) || a.par.mode = 3 || !a.disarm.isEmpty then
      fail .wrongState d s
    else
      let xt := if dBit d 0x10 0 then d.u 0x08 8 else ((s.nextItem a).getD 0) * s.acqPitch a
      let t := (s.stream (s.acqStream a)).timeOf xt
      match s.acqTrigger u xt t (causeMask 0 true false 0) a.par.line true with
      | (s, .early) => .done .ok 1 0 d.handle s
      | (s, .overlapping) => .done .ok 2 0 d.handle s
      | (s, _) => .done .ok 0 0 d.handle s

/-! ### Events of the units -/

/-- HOLDOFF_END (R449): a hold-off in ns whose end has come returns the unit to ARMED. -/
def execHoldoffEnd (u : Fin 128) (s : State) : Host.Outcome State Fault Refusal :=
  let a := s.acq u.val
  .next (if a.st = .holdoff && !bit a.par.flags.toNat 4 then
      (s.until (s.now + ceilDiv (a.holdEnd - s.time.tb) unitNs)).setAcq u.val fun a => { a with st := .armed }
    else s)

/-- CAPTURE_COMPLETE (R445): the post-trigger part is in the history circle. `lost` are items that met a full port buffer, `zeroed`
codewords that were uncorrectable. -/
def execCaptureComplete (u : Fin 128) (lost : List Nat) (zeroed : List (Nat × Nat)) (s : State) : Host.Outcome State Fault Refusal :=
  let a := s.acq u.val
  .next (match a.cap, a.hist.getLast? with
    | some c, some x => if a.par.mode ≤ 2 && c.toNo ≤ x.no then s.closeCapture u.val c.toNo 0 lost zeroed else s
    | _, _ => s)

/-- CHUNK_CLOSE (R441, R451, R457): the open chunk has reached a multiple of C. -/
def execChunkClose (u : Fin 128) (lost : List Nat) (zeroed : List (Nat × Nat)) (s : State) : Host.Outcome State Fault Refusal :=
  let a := s.acq u.val
  .next (match a.hist with
    | [] => s
    | x :: _ =>
      let bound := (x.no / max 1 a.par.c + 1) * a.par.c
      if 3 ≤ a.par.mode && a.par.source != 3 && (a.hist.getLast?.any fun l => decide (bound ≤ l.no + 1)) then
        let (now, later) := a.hist.partition fun x => decide (x.no < bound)
        let (s, items, gap) := s.acqLost u.val lost now
        let (s, items) := s.acqZeroed u.val zeroed items
        ((s.putChunk u.val items gap).setAcq u.val fun a => { a with hist := later }).newLevel u.val
      else s)

/-- A level step of R456: the channel of a product source follows the highest level of its units (R457). -/
def State.arrStep (s : State) (u new : Nat) : State :=
  let a := s.acq u
  let first := if a.par.source = 3 then 2 ^ 64 - 1
    else (match a.hist with | x :: _ => (x.no / max 1 a.par.c + 1) * a.par.c | [] => (s.nextItem a).getD 0) * s.acqPitch a
  let s := s.setAcq u fun a =>
    if a.par.source = 3 || a.hist.isEmpty then { a with level := new, newLevel := none, lastStep := s.now }
    else { a with newLevel := some new, lastStep := s.now }
  let s := s.chanLevel a
  let s := ((if a.par.source = 3 then s.acqsOf 3 a.par.srcIdx else [u]).map fun v => (s.acq v).region).foldl State.ctBreak s
  let s := s.note .rateStep (s.handleOf 3 a.region) [(8, first), (1, (a.newLevel.getD a.level)), (1, new), (1, (s.region a.region).fill), (1, 0)]
  if s.pair.role = .primary then s.emit (.seam (.arrStep (Fin.ofNat 128 u) first new)) else s

/-- The unit steps by itself: continuous with ARR (R456). -/
def Acq.arr (a : Acq) : Bool := a.st = .streaming && a.par.mode == 3 && bit a.par.flags.toNat 6

/-- ARR_STEP_UP (R456): fill at or above HIGH, 1 ms since the last step. A hot secondary steps with its primary (R676). -/
def execArrStepUp (u : Fin 128) (s : State) : Host.Outcome State Fault Refusal :=
  let a := s.acq u.val
  let level := a.newLevel.getD a.level
  .next (if a.arr && !(s.pair.role = .secondary) && a.par.high ≤ (s.region a.region).fill && level < a.par.arrMax &&
      (a.lastStep = 0 || a.lastStep + 1000000 ≤ s.now) then s.arrStep u.val (level + 1) else s)

/-- ARR_STEP_DOWN (R456): the fill has stayed at or below LOW for the down dwell. The step itself says that the dwell has passed. -/
def execArrStepDown (u : Fin 128) (s : State) : Host.Outcome State Fault Refusal :=
  let a := s.acq u.val
  let level := a.newLevel.getD a.level
  .next (if a.arr && !(s.pair.role = .secondary) && (s.region a.region).fill ≤ a.par.low && 0 < level &&
      (a.lastStep + a.par.dwell * 1000000 ≤ s.now) then s.arrStep u.val (level - 1) else s)

end Sys2Proof.Machine
end

