-- ==== Sys2Proof/Machine/Trigger.lean ====
section
/-! DEFINITION. Conditions, hits, trigger groups, trigger pins (R363–R383, R393–R401). -/

namespace Sys2Proof.Machine

/-! ### Conditions (R365–R369, R371–R376) -/

/-- One evaluation: the new condition and whether it hit (R365). -/
def Cond.step (c : Cond) (test rearm : Bool) : Cond × Bool :=
  if c.fired then
    if rearm then (if c.r ≤ c.cnt + 1 then ({ c with fired := false, cnt := 0 }, false) else ({ c with cnt := c.cnt + 1 }, false))
    else ({ c with cnt := 0 }, false)
  else if test then (if c.q ≤ c.cnt + 1 then ({ c with fired := true, cnt := 0 }, true) else ({ c with cnt := c.cnt + 1 }, false))
  else ({ c with cnt := 0 }, false)

/-- ARMED with its counts at zero (R369). -/
def Cond.rearm (c : Cond) : Cond := { c with fired := false, cnt := 0, hist := [] }

/-- A channel's conditions at a start, resume or epoch reset (R369). -/
def Chan.rearm (c : Chan) : Chan := { c with cond := c.cond.map Cond.rearm }

def Cond.below (c : Cond) : Bool := bit c.s1 7
def Cond.hi (c : Cond) : Int := sx 64 c.u1.toNat
def Cond.lo (c : Cond) : Int := sx 64 c.u2.toNat

/-- Test and re-arm test of a quantity (R371). -/
def Cond.level (c : Cond) (v : Int) : Bool × Bool :=
  if c.below then (decide (v ≤ c.hi), decide (c.lo < v)) else (decide (c.hi ≤ v), decide (v < c.lo))

/-- The channel emits: RUNNING or DRAINING (R368). -/
def Chan.emits (c : Chan) : Bool := c.st = .running || c.st = .draining

def condNo (ch letter : Nat) : Nat := 4 * ch + letter

/-! ### Hits and groups (R393–R400) -/

/-- A hit of time t (2^-32 s) reaches a group (R396, R400, R403). -/
def Group.hit (g : Group) (h : Hit) : Group :=
  if h.time ≤ g.since && g.since != 0 then g
  else if g.last.any fun l => decide (h.time < l) then { g with late := satN 255 (g.late + 1) }
  else if 256 ≤ g.hits.length then { g with dropped := satN 255 (g.dropped + 1) }
  else { g with hits := g.hits ++ [h] }

/-- A condition hits at an index of its channel's stream: every group that has it as an input takes the hit (R394). -/
def State.condHit (s : State) (ch letter idx : Nat) : State :=
  let st := (s.chan ch).stream
  let t := (s.stream st).timeOf idx / unitF
  let n := condNo ch letter
  { s with groups := s.groups.map fun g =>
      if g.alloc then
        match g.inputs.findIdx? (· == n) with
        | some i => g.hit { input := i, time := t, idx := idx, stream := st }
        | none => g
      else g }

/-- Evaluate condition `letter` of a channel of one of the given types; `v` gives test and re-arm test, none: skipped (R365, R367). -/
def State.evalCond (s : State) (ch letter idx : Nat) (v : Option (Bool × Bool)) : State :=
  match v with
  | none => s
  | some (t, r) =>
    let (c, hit) := (nth (s.chan ch).cond letter .off).step t r
    let s := s.setChan ch fun x => { x with cond := upd x.cond letter fun _ => c }
    if hit then s.condHit ch letter idx else s

/-- The plane that DENS_SET's parameters describe, zeroed (R325, R326). -/
def planeOf (d : BitVec 384) (ch grant slot : Nat) : Plane :=
  let u := fun o n => d.toNat / 2 ^ (8 * (o - 8)) % 2 ^ (8 * n)
  { Plane.reset with
    chan := some ch, grant := grant, incCal := bit (u 0x09 1) 1, c := u 0x0A 1, sl := u 0x0B 1, fd := u 0x0C 4, bd := u 0x10 4
    loff := sx 32 (u 0x14 4), f := u 0x18 4, s := u 0x1C 1, region := BitVec.ofNat 32 (u 0x20 4), period := u 0x24 2, slot := slot == 1 }

/-- The plane as it is bound to channel ch: with its binding in force or, before that, as it will be (R326). -/
def Plane.bound (p : Plane) (ch : Nat) : Option Plane :=
  if p.chan != some ch then none
  else if p.f ≠ 0 then some p
  else p.next.map fun n => { planeOf n.1 n.2 p.grant 0 with snaps := p.snaps }

/-- Earliest time (2^-32 s) at which an input can still hit; none: unbounded (R395, R429). -/
def State.horizon (s : State) (n : Nat) : Option Nat :=
  let ch := n / 4
  let c := s.chan ch
  let k := nth c.cond (n % 4) .off
  let x := s.stream c.stream
  let at? := fun idx => some (x.timeOf idx / unitF)
  let hd := c.sp.h * c.fe.d
  if !c.emits then none
  else match k.type with
  | 1 => if 3 ≤ k.s1 % 8 && c.fe.detK = 0 then none else at? (c.nextOut * c.fe.d)
  | 2 => if 3 ≤ k.s1 % 8 && c.fe.detK = 0 then none else at? (c.nextOut * c.fe.d)
  | 3 => if c.sp.type = 0 then none else at? (c.nextSpec * hd)
  | 4 =>
    let p := nth s.planes (k.s1 % 8) .reset
    if p.chan != some ch || p.f = 0 then none
    else at? ((if p.frame.any fun k => c.nextSpec / p.f != k then p.lastM else c.nextSpec) * hd)
  | 5 =>
    if !c.pr.mask.getLsbD 7 then none
    else at? ((match c.sk with | some a => if c.pr.skM ≤ a.added then a.lastM else c.nextSpec | none => c.nextSpec) * hd)
  | 6 =>
    let u := nth s.sweeps (hIdx (k.u1.setWidth 32)) .reset
    if !u.claimed || u.chan != ch || s.valid 6 (k.u1.setWidth 32) = false then none
    else if !u.run || (u.restart && u.lastM.isNone) then at? (c.nextSpec * hd)
    else at? (max u.s0 (u.undecided - 63) * hd)
  | 7 =>
    let cfg := nth s.pins.cfg k.s1 0
    some ((s.time.tb - cfg.toNat % 65536 * 100 * unitPs - 100 * unitNs) / unitF)
  | 8 => at? (c.nextOut * c.fe.d)
  | _ => none

/-- Every input's horizon is later than t (R396). -/
def State.horizonsPast (s : State) (g : Group) (t : Nat) : Bool :=
  g.inputs.all fun n => match s.horizon n with | some h => decide (t < h) | none => true

/-- x lies in [t − T, t], T in ns, times in 2^-32 s. -/
def within (T t x : Nat) : Bool := decide (x ≤ t) && decide ((t - x) * 1000000000 ≤ T * 2 ^ 32)

/-- The cause bits when a group fires at t (R397); none: it does not. -/
def Group.fires (g : Group) (t : Nat) : Option Nat :=
  let now := g.hits.filter fun h => h.time == t
  let all := g.hits ++ g.past
  let mask := fun (l : List Nat) => (l.eraseDups.map fun i => 2 ^ i).foldl (· + ·) 0
  match g.mode with
  | 1 => if now.isEmpty then none else some (mask (now.map (·.input)))
  | 2 =>
    if !now.isEmpty && (List.range g.inputs.length).all fun i => all.any fun h => h.input == i && within g.t t h.time then
      some (mask (List.range g.inputs.length)) else none
  | 3 =>
    let b := now.filter fun h => !g.aset.getLsbD h.input
    let a := all.filter fun h => g.aset.getLsbD h.input && decide (h.time < t) && within g.t t h.time
    if b.isEmpty || a.isEmpty then none else some (mask ((b ++ a).map (·.input)))
  | _ => none

/-! ### Trigger pins (R377–R383) -/

/-- Pin n is assigned as TRIG_IO output, or input. -/
def Pins.isTrigOut (p : Pins) (n : Nat) : Bool := nth p.func n 0 == 3
def Pins.isTrigIn (p : Pins) (n : Nat) : Bool := nth p.func n 0 == 2

/-- Drive a pin active for WIDTH from now (R379–R381). -/
def State.drivePin (s : State) (n : Nat) : State :=
  if s.muted then s else
  let cfg := nth s.pins.cfg n 0
  let s := { s with pins := { s.pins with
    pulseEnd := upd s.pins.pulseEnd n fun _ => some (s.time.tb + bits cfg.toNat 23 16 * 8 * unitNs) } }
  s.emit (.pin n (!cfg.getLsbD 31))

/-- A line's decision at trigger time t (2^-32 s) reaches one output pin. -/
def State.linePin (s : State) (n line t : Nat) : State :=
  let cfg := nth s.pins.cfg n 0
  if !s.pins.isTrigOut n || bits cfg.toNat 29 24 != line then s
  else if !cfg.getLsbD 30 then s.drivePin n
  else
    let due := t * unitF + cfg.toNat % 65536 * 8 * unitNs
    if due < s.time.tb then
      ({ s with pins := { s.pins with late := upd s.pins.late n fun c => satN 65535 (c + 1) } }).drivePin n
    else if due = s.time.tb then s.drivePin n
    else if 16 ≤ (nth s.pins.queue n []).length then
      { s with pins := { s.pins with late := upd s.pins.late n fun c => satN 65535 (c + 1) } }
    else { s with pins := { s.pins with queue := upd s.pins.queue n fun q => q ++ [due] } }

/-- A trigger of group g at time t: FIRED, units, pins, TRIGGER (R399, R406). -/
def State.trigger (s : State) (g t cause : Nat) : State :=
  let x := nth s.groups g .reset
  let now := x.hits.filter fun h => h.time == t
  let dec := now.foldl (fun m h => match m with | none => some h | some b => if h.input < b.input then some h else m) (none : Option Hit)
  match dec with
  | none => s
  | some d =>
    let s := { s with groups := upd s.groups g fun x => { x with fired := satN (2 ^ 32 - 1) (x.fired + 1) } }
    let s := s.acqLine g (t * unitF) d.stream d.idx cause
    let s := (List.range 16).foldl (fun s n => s.linePin n g t) s
    if x.event then
      s.noteAt .trigger (s.handleOf 5 g) (t * unitF) [(2, cause), (1, d.input), (1, x.mode), (8, d.idx)]
    else s

/-- Decide a group's earliest pending hits when every horizon has passed them (R396–R398). -/
def State.decideGroup (s : State) (g : Nat) : State :=
  let x := nth s.groups g .reset
  match x.hits.foldl (fun m h => match m with | none => some h.time | some t => some (min t h.time)) (none : Option Nat) with
  | none => s
  | some t =>
    if !x.alloc || !s.horizonsPast x t then s
    else match x.fires t with
    | some cause =>
      let s := s.trigger g t cause
      { s with groups := upd s.groups g fun x =>
          { x with hits := x.hits.filter (fun h => decide (t < h.time)), past := [], last := some t } }
    | none =>
      { s with groups := upd s.groups g fun x =>
          { x with hits := x.hits.filter (fun h => decide (t < h.time)), last := some t
                   past := (x.past ++ x.hits.filter fun h => h.time == t).filter fun h => within x.t t h.time } }

/-- Pending hits and open windows go when PLL_S lock is lost (R401). -/
def Group.forget (g : Group) : Group := { g with hits := [], past := [] }

end Sys2Proof.Machine
end

