-- ==== Sys2Proof/Machine/FrontEnd.lean ====
section
/-! DEFINITION. The channel front end: Lint filter, mixer, decimation, fractional delay, gain, scaling, detectors (R215–R244, R254). -/

namespace Sys2Proof.Machine

/-! ### Responses (R230, R232–R236) -/

/-- Taps of a response; a user bank has its own count. -/
def tapCount : Nat → Nat
  | 0x00 => 7 | 0x01 => 11 | 0x02 => 23 | 0x10 => 95 | 0x11 => 191 | 0x18 => 64 | 0x19 => 96
  | 0x20 => 8 | 0x21 => 16 | 0x22 => 32 | _ => 0

/-- log2 D. -/
def FeSet.dd (f : FeSet) : Nat := Nat.log2 (max 1 f.d)

/-- Stages of the cascade, first to last (R232); 0x3F is the user stage. -/
def stageIds (d shaping : Nat) : List Nat :=
  match d with
  | 0 => if shaping = 0x3F then [0x3F] else []
  | 1 => [shaping]
  | 2 => [0x02, shaping]
  | n + 3 => List.replicate n 0x00 ++ [0x01, 0x02, shaping]

def FeSet.stages (f : FeSet) : List Nat := stageIds f.dd f.shaping

def FeSet.tapsOf (f : FeSet) (id : Nat) : Nat := if id = 0x3F then f.bank.length else tapCount id

/-- Coefficients of a stage, h[0] on the newest sample. -/
def FeSet.coefs (f : FeSet) (id : Nat) : List Int :=
  if id = 0x3F then f.bank else (List.range (tapCount id)).map (Config.filterTap id)

/-- S − 1 (R233). -/
def FeSet.span1 (f : FeSet) : Nat := sumN (f.stages.mapIdx fun i id => (f.tapsOf id - 1) * 2 ^ i)

/-- S_L (R223, R229). -/
def FeSet.sl (f : FeSet) : Nat := if f.lintW = 0 then 0 else f.lintW - 1

/-- T_f, 0 with fractional delay off. -/
def FeSet.tf (f : FeSet) : Nat := if f.fdl = 0 then 0 else tapCount f.fdl

/-- FILL outputs of the cascade (R234). -/
def FeSet.cascadeFill (f : FeSet) : Nat := ceilDiv (f.span1 + f.sl) (max 1 f.d)

/-- FILL outputs after a start (R239, R247). -/
def FeSet.fillCount (f : FeSet) : Nat := f.cascadeFill + (f.tf - 1)

/-- S_u − 1 of the upper stages. -/
def FeSet.upper1 (f : FeSet) : Nat := sumN ((f.stages.dropLast).mapIdx fun i id => (f.tapsOf id - 1) * 2 ^ i)

/-- Group delay in 1/64 output sample, truncated to the unit; a user shaping stage counts as zero (R235, R334). -/
def FeSet.knownDelay (f : FeSet) : Nat :=
  let frac := if f.fdl = 0 then 0 else (f.tf / 2 - 1) * 64 + f.tau
  -- in 1/4 input samples
  let q := match f.shaping, f.dd with
    | _, 0 => 2 * f.sl
    | 0x18, n + 1 => 2 * f.upper1 + 39 * 2 ^ n + 2 * f.sl
    | 0x19, n + 1 => 2 * f.upper1 + 57 * 2 ^ n + 2 * f.sl
    | 0x3F, _ => 2 * (f.upper1 + f.sl)
    | _, _ => 2 * (f.span1 + f.sl)
  q * 16 / f.d + frac

/-- Group delay in 1/64 output sample (R235, R247): MPD responses at DC; all ones with USER. Truncated to the unit. -/
def FeSet.delay (f : FeSet) : Nat := if f.stages.contains 0x3F then 2 ^ 32 - 1 else f.knownDelay

/-! ### Arithmetic (R217–R219) -/

/-- Saturate both components; SATURATED when either was clamped. -/
def satSmp (b : Nat) (re im : Int) (flags : Flags) : Smp :=
  let r := sat b re
  let i := sat b im
  { re := r, im := i, flags := flags ||| fIf (r != re || i != im) fSaturated }

def lineFlags (l : List Smp) : Flags := orAll (l.map (·.flags))

def dot (h : List Int) (l : List Int) : Int := sumI (List.zipWith (· * ·) h l)

/-- Output of a decimation or delay stage over its line, newest first. -/
def firOut (h : List Int) (line : List Smp) : Smp :=
  let l := line.take h.length
  satSmp 18 (asr (dot h (l.map (·.re))) 17) (asr (dot h (l.map (·.im))) 17) (lineFlags l)

/-- Insert into a rising list. -/
def insertI (x : Int) : List Int → List Int
  | [] => [x]
  | y :: r => if x ≤ y then x :: y :: r else y :: insertI x r

def sortI (l : List Int) : List Int := l.foldr insertI []

/-- Rank filter over the newest w samples, I and Q each for itself (R228). -/
def lintOut (w r : Nat) (line : List Smp) : Smp :=
  let l := line.take w
  { re := ((sortI (l.map (·.re)))[r]?).getD 0, im := ((sortI (l.map (·.im)))[r]?).getD 0, flags := lineFlags l }

/-- Alternating power series: n terms from t on, each the one before it times x² (2^-60) over a(a + 1). -/
def trigSeries : (n a x2 t : Nat) → Int
  | 0, _, _, _ => 0
  | n + 1, a, x2, t => (t : Int) - trigSeries n (a + 2) x2 (t * x2 / 2 ^ 60 / (a * (a + 1)))

/-- cos and sin, 2^-60, of an angle of r/2^20 turn in the first octant. -/
def octant (r : Nat) : Int × Int :=
  let x := 2 * 3622009729038561421 * r / 2 ^ 20
  let x2 := x * x / 2 ^ 60
  (trigSeries 14 1 x2 (2 ^ 60), trigSeries 14 2 x2 x)

/-- cos and sin, 2^-60, of a 20-bit phase. -/
def cosSin (p : Nat) : Int × Int :=
  let r := p % 2 ^ 18
  let (c, s) := if r ≤ 2 ^ 17 then octant r else let (a, b) := octant (2 ^ 18 - r); (b, a)
  match p / 2 ^ 18 % 4 with
  | 0 => (c, s)
  | 1 => (-s, c)
  | 2 => (-c, -s)
  | _ => (s, -c)

/-- A table entry: 131,071 times the value, a whole number next to it; which of the two is a free value (R217, log entry 68). -/
def ncoEntry (v : Int) (up : Bool) : Int :=
  let w := v * 131071
  w / 2 ^ 60 + (if up && w % 2 ^ 60 != 0 then 1 else 0)

/-- The NCO table: cos and sin of a 20-bit phase, 18 bits, of magnitude at most 2^17 − 1 (R217). -/
def ncoTable (p : Nat) : Int × Int :=
  let (c, s) := cosSin p
  let up := Config.ncoRound p
  (ncoEntry c up.1, ncoEntry s up.2)

/-- Mixer (R217, R218): times cos − j·sin, truncated by 16. -/
def mix (phase : Nat) (x : Smp) : Smp :=
  let (c, s) := ncoTable (phase / 2 ^ 28 % 2 ^ 20)
  { x with re := asr (x.re * c + x.im * s) 16, im := asr (x.im * c - x.re * s) 16 }

/-- Run a sample with stage index k through the cascade; `dec` is false for the user stage at D = 1. -/
def cascade (dec : Bool) : (taps : List (List Int)) → (lines : List (List Smp)) → (k : Nat) → Smp → List (List Smp) × Option Smp
  | [], ls, _, x => (ls, some x)
  | h :: hs, ls, k, x =>
    let l := (x :: ls.headD []).take h.length
    if dec && k % 2 ≠ 0 then (l :: ls.tail, none)
    else
      let (ls', y) := cascade dec hs ls.tail (k / 2) (firOut h l)
      (l :: ls', y)

/-! ### One input sample -/

/-- A word for index kr takes effect at input k: its index has come, and the channel was RUNNING there (R227). -/
def Chan.tunes (c : Chan) (kr k : Nat) : Bool := decide (kr ≤ k) && (c.st != .draining || decide (kr < c.stopAt))

/-- The NCO word for input sample k: words whose index has come take effect, the pending AT_INDEX word last (R222, R226). -/
def Chan.retune (c : Chan) (k : Nat) : Chan :=
  let c := match (c.tuneQ.filter fun w => c.tunes w.2 k).getLast? with
    | none => c
    | some w => { c with nco := w.1, tuneQ := c.tuneQ.filter (fun w => !c.tunes w.2 k), tuneFrom := some w.2 }
  match c.tune with
  | some (f, kr) => if c.tunes kr k then { c with nco := f, tune := none, tuneFrom := some kr } else c
  | none => c

/-- NCO phase at input k: F·k0 mod 2^48 at the channel's first input k0, then advanced by the word (R221). -/
def Chan.phaseAt (c : Chan) (k : Nat) : Nat :=
  ((if k = c.startAt then c.nco * k else c.phase + c.nco) % (2 ^ 48 : Nat)).toNat

/-- Take an input sample: Lint filter, mixer, cascade (R215, R221). At a multiple of D the cascade gives an output. -/
def Chan.takeInput (c : Chan) (x : InSmp) : Chan × Option Smp :=
  let c := c.retune x.idx
  let phase := c.phaseAt x.idx
  let lint := if c.fe.lintW = 0 then [] else (x.smp :: c.lint).take c.fe.lintW
  let y := if c.fe.lintW = 0 then x.smp else lintOut c.fe.lintW c.fe.lintR lint
  let (stages, out) := cascade (c.fe.d != 1) (c.fe.stages.map c.fe.coefs) c.stages x.idx (mix phase y)
  ({ c with phase := phase, lint := lint, stages := stages }, out)

/-- Take every input up to index `upTo`, oldest first; the cascade output at `upTo`. -/
def Chan.takeInputs (upTo : Nat) : List InSmp → Chan → Chan × Option Smp
  | [], c => (c, none)
  | x :: r, c =>
    if x.idx < upTo then Chan.takeInputs upTo r (c.takeInput x).1
    else if x.idx = upTo then
      let (c', y) := c.takeInput x
      ({ c' with inq := r }, y)
    else (c, none)

/-- Index of the last output that a retune at kr marks (R223): the last in the span, at least the first after kr, and T_f − 1 more. -/
def FeSet.tuneLast (f : FeSet) (kr : Nat) : Nat :=
  let d := max 1 f.d
  max ((kr + f.span1 + f.sl) / d) (ceilDiv kr d) * d + (f.tf - 1) * d

/-- TUNE marks of output index x = jD (R223): whether it is marked, and the channel after it. -/
def Chan.tuneMark (c : Chan) (x : Nat) : Bool × Chan :=
  match c.tuneFrom with
  | some kr =>
    if x < kr then (false, c)
    else if x < c.fe.tuneLast kr then (true, c)
    else (x == c.fe.tuneLast kr, { c with tuneFrom := none })
  | none => (false, c)

/-- The gain: each product truncated by 15, which gives the bias of the table of R217 (log entry 69). -/
def FeSet.gain (f : FeSet) (z : Smp) : Smp :=
  satSmp 18 (asr (z.re * f.gRe) 15 + asr (-(z.im * f.gIm)) 15) (asr (z.re * f.gIm) 15 + asr (z.im * f.gRe) 15) z.flags

/-- Delay, gain, scaling and marks: output j (R239, R242, R217, R254). The delay line takes what the cascade gives from the start on, its partial
sums too (log entry 70). -/
def Chan.finishOut (c : Chan) (j : Nat) (y : Smp) : Chan × OutSmp :=
  let line := if c.fe.fdl = 0 then [] else (y :: c.fdlLine).take (1023 + 32)
  let z := if c.fe.fdl = 0 then y
    else firOut ((List.range c.fe.tf).map (Config.fdlTap c.fe.fdl (c.fe.tau % 64))) (line.drop (c.fe.tau / 64))
  let g := c.fe.gain z
  let o := satSmp 16 (g.re * 2 ^ c.fe.scale / 8) (g.im * 2 ^ c.fe.scale / 8) g.flags
  let fill := 0 < c.fillLeft || 0 < c.fdlFill
  let step := c.delayStep || 0 < c.fdlFill
  let (tuned, c) := c.tuneMark (j * c.fe.d)
  let flags := o.flags ||| fIf fill fFill ||| fIf step fDelayStep ||| fIf tuned fTune
  ({ c with fdlLine := line, fillLeft := c.fillLeft - 1, fdlFill := c.fdlFill - 1, delayStep := false },
   { j := j, smp := if fill then { re := 0, im := 0, flags := flags } else { o with flags := flags }, nco := c.nco, cgen := c.calGen, tm := 0 })

/-! ### Swaps of delay and gain (R240–R242, R350) -/

/-- Outputs from one swap boundary to the next. -/
def Chan.swapPitch (c : Chan) : Nat := if c.sp.type = 0 then 4096 else max 1 c.sp.h

/-- Next calibration generation: 1 … 65,535 (R349). -/
def nextCalGen (g : Nat) : Nat := if g ≥ 65535 then 1 else g + 1

/-- A swap's boundary is output j. -/
def Chan.swapDue (c : Chan) (q : SwapReq) (j : Nat) : Bool :=
  j % c.swapPitch == 0 && q.atSpec.all fun m => decide (m ≤ j / c.swapPitch)

/-- Apply a swap: τ, G, tables and generation; DELAY_STEP and FILL by the size of the step (R240, R349). -/
def Chan.applySwap (c : Chan) (q : SwapReq) : Chan :=
  let (tau, gRe, gIm) := q.vals.getD (c.fe.tau, c.fe.gRe, c.fe.gIm)
  let step := ((tau : Int) - c.fe.tau).natAbs
  { c with
    swaps := c.swaps.filter fun x => x.tag != q.tag, calGen := nextCalGen c.calGen, fe := { c.fe with tau := tau, gRe := gRe, gIm := gIm }
    delayStep := c.delayStep || (c.fe.fdl != 0 && step != 0)
    fdlFill := if c.fe.fdl ≠ 0 ∧ 1 < step then c.fe.tf - 1 else c.fdlFill
    cal := { c.cal with
      tab := q.tab.getD c.cal.tab, manual := if q.vals.isSome then !q.live else c.cal.manual
      past := (c.cal.past ++ [(c.nextOut, c.cal.tab)]).filter fun p => decide (c.nextSpec * c.sp.h < p.1) } }

/-- Apply what is due at output j. -/
def Chan.applyDue (c : Chan) (j : Nat) : Chan := (c.swaps.filter fun q => c.swapDue q j).foldl Chan.applySwap c

/-! ### Detectors (R243, R244) -/

/-- Envelope update. -/
def envNext (a b e m : Nat) : Nat :=
  if e ≤ m then e + (m - e) / 2 ^ a else (Int.toNat ((e : Int) + asr ((m : Int) - e) b))

/-- Detectors take output j; at a multiple of 2^k the window's results stand in `res`. The first window after a start, shorter or not, is
reported, its sum over 2^k (R243, log entry 71). -/
def Chan.detect (c : Chan) (o : OutSmp) : Chan :=
  if c.fe.detK = 0 then c
  else
    let m := (o.smp.re * o.smp.re + o.smp.im * o.smp.im).toNat
    let d := c.det
    let d := { d with
      peak := max d.peak m, sum := d.sum + m, count := d.count + 1, env := envNext c.fe.attack c.fe.decay d.env m
      flags := d.flags ||| o.smp.flags, nco := if d.count = 0 then o.nco else d.nco, lastJ := o.j }
    if o.j % 2 ^ c.fe.detK = 0 then
      let ms := d.sum / 2 ^ c.fe.detK
      { c with det := { d with
        peak := 0, sum := 0, count := 0, flags := 0, res := some (d.peak, ms, isqrt ms, d.env, d.flags, d.nco) } }
    else { c with det := d }

/-- Write the detector entries gathered so far as one record (R244). Its header index is the last output of its first window (log entry 72), its NCO
word that at the first window's first output (R227). -/
def State.flushDet (s : State) (ch : Nat) (extra : Flags) : State :=
  let c := s.chan ch
  let d := c.det
  if d.buf.isEmpty || !s.valid 3 c.fe.detRegion then s
  else
    let sm := s.stream c.stream
    let idx := d.bufFirst * c.fe.d
    let h := { Hdr.plain (s.handleOf 2 ch) 0x0A 1 (sm.timeOf idx / unitF) with
      idx := idx, flags := d.bufFlags ||| extra, cgen := c.calGen, fgen := c.fgen, journal := s.sec.jNext - 1
      log2d := c.fe.dd, nco := d.bufNco, fs := sm.par.fs }
    let payload := d.buf.flatMap fun (p, ms, r, e) => pack [(4, p), (4, ms), (2, r), (2, 0), (4, e)]
    let s := (s.appendRecord (hIdx c.fe.detRegion) h payload).getD s
    s.setChan ch fun c => { c with det := { c.det with buf := [], bufFlags := 0 } }

/-- A window's results are recorded, and the LEVEL conditions on sources 4–6 evaluated (R243, R244, R364, R372). -/
def State.windowEnd (s : State) (ch : Nat) : State :=
  let c := s.chan ch
  match c.det.res with
  | none => s
  | some (p, ms, r, e, flags, nco) =>
    let s := s.setChan ch fun c => { c with det := { c.det with res := none } }
    let s := (List.range 4).foldl (fun s l =>
      let k := nth c.cond l .off
      let src := k.s1 % 8
      if k.type = 1 && 4 ≤ src && src ≤ 6 then
        let v : Int := if src = 4 then p else if src = 5 then ms else r
        s.evalCond ch l (c.det.lastJ * c.fe.d) (if Flags.has flags (fFill ||| fPoison ||| fGap) then none else some (k.level v))
      else s) s
    if s.valid 3 c.fe.detRegion then
      let s := s.setChan ch fun c => { c with det := { c.det with
        bufFirst := if c.det.buf.isEmpty then c.det.lastJ else c.det.bufFirst
        bufNco := if c.det.buf.isEmpty then nco else c.det.bufNco
        buf := c.det.buf ++ [(p, ms, r, e)], bufFlags := c.det.bufFlags ||| flags } }
      if 256 ≤ (s.chan ch).det.buf.length then s.flushDet ch 0 else s
    else s

/-! ### Conditions on outputs (R364, R367, R371, R372, R387) -/

/-- The quantity of a source on an output. -/
def outQuantity (c : Chan) (o : OutSmp) (src : Nat) : Int :=
  match src with
  | 0 => o.smp.re
  | 1 => o.smp.im
  | 2 => o.smp.re * o.smp.re + o.smp.im * o.smp.im
  | _ => c.det.env

/-- LEVEL, SLOPE and SOFTWARE conditions see an output. -/
def State.outConditions (s : State) (ch : Nat) (o : OutSmp) : State :=
  (List.range 4).foldl (fun s l =>
    let c := s.chan ch
    let k := nth c.cond l .off
    let src := k.s1 % 8
    let idx := o.j * c.fe.d
    let skip := Flags.has o.smp.flags (fFill ||| fPoison ||| fGap)
    let off := 3 ≤ src && c.fe.detK = 0
    let s := match k.type with
      | 1 => if 4 ≤ src || off then s else s.evalCond ch l idx (if skip then none else some (k.level (outQuantity c o src)))
      | 2 =>
        if off then s
        else
          let q := outQuantity c o src
          let s := s.setChan ch fun c => { c with cond := upd c.cond l fun k => { k with hist := (q :: k.hist).take (k.s2) } }
          match k.hist[k.s2 - 1]? with
          | some old => s.evalCond ch l idx (if skip then none else some (k.level (q - old)))
          | none => s
      | _ => s
    let due := k.fires.filter fun f => k.type == 8 && f.1.all fun i => decide (i ≤ idx)
    let s := s.setChan ch fun c => { c with cond := upd c.cond l fun k => { k with fires := k.fires.filter fun f => !due.contains f } }
    due.foldl (fun s f =>
      let s := s.condHit ch l idx
      match s.waitsAt f.2.val .point with
      | some w => s.complete f.2.val .ok (condNo ch l) idx w.handle
      | none => s) s) s

/-! ### An output leaves the front end -/

/-- Output j: to the detectors, the acquisition units, the conditions and the transform. A withheld FILL output only counts (R249, R806). -/
def State.emitOutput (s : State) (ch : Nat) (o : OutSmp) (startFill : Bool) : State :=
  let c := s.chan ch
  let s := if c.det.res.isSome then s.windowEnd ch else s
  let flags := o.smp.flags ||| s.suspectFlag c.stream
  let o := { o with smp := { o.smp with flags := flags }, tm := s.now }
  let s := s.setChan ch fun c =>
    let c := c.detect o
    { c with nextOut := o.j + 1, lastOut := some o.j, outs := if c.sp.type = 0 then [] else c.outs ++ [o] }
  if startFill && c.supFill then s
  else
    let idx := o.j * c.fe.d
    let st : Stamp := ⟨idx, (s.stream c.stream).timeOf idx / unitF, o.nco, o.cgen, c.fgen, 0, s.sec.jNext - 1, 0⟩
    let it : Item := { no := o.j, kind := 2, fmt := 1, vals := [o.smp.re, o.smp.im], flags := flags, stamp := st }
    (s.feed 2 ch 0 it).outConditions ch o

/-- Index of the next output a channel is due to emit: none when it emits none. -/
def Chan.dueIndex (c : Chan) : Option Nat :=
  if c.emits && c.drainAt.all fun e => decide (c.nextOut * c.fe.d ≤ e) then some (c.nextOut * c.fe.d) else none

/-- Emit the next output when its inputs have arrived (R215). -/
def State.channelOutput (s : State) (ch : Nat) : State :=
  let c := s.chan ch
  match c.dueIndex with
  | none => s
  | some x =>
    match c.takeInputs x c.inq with
    | (c', some y) =>
      let startFill := 0 < c'.fillLeft
      let (c'', o) := (c'.applyDue c.nextOut).finishOut c.nextOut y
      (s.setChan ch fun _ => c'').emitOutput ch o startFill
    | (_, none) => s

end Sys2Proof.Machine
end

