-- ==== Sys2Proof/Machine/Product.lean ====
section
/-! DEFINITION. Spectral products: windows, alignment, intervals, pairs, spectral kurtosis, their records (R294–R317). -/

namespace Sys2Proof.Machine

/-! ### Window, summing, power (R297–R299) -/

/-- Consecutive groups of k entries. -/
def groupsOf {α : Type} (k : Nat) (l : List α) : List (List α) :=
  (List.range (l.length / max 1 k)).map fun i => (l.drop (i * k)).take k

/-- P of a prototype (R268). -/
def pfbTaps (id : Nat) : Nat :=
  match id with
  | 0x30 | 0x33 | 0x36 | 0x39 => 4
  | 0x31 | 0x34 | 0x37 | 0x3A | 0x3C => 8
  | _ => 16

/-- Span W of a transform (R255). -/
def SpecSet.span (p : SpecSet) : Nat := (if p.type = 2 then pfbTaps p.win else 1) * 2 ^ p.l

/-- Tables in force at output j (R287, R353). -/
def Cal.tabAt (k : Cal) (j : Nat) : CalTab := ((k.past.find? fun p => decide (j < p.1)).map (·.2)).getD k.tab

/-- The window's bins. -/
def Spectrum.window (x : Spectrum) (f n : Nat) : List Cx := (x.bins.drop f).take n

/-- Power of a bin (R299). -/
def power (z : Cx) : Int := z.1 * z.1 + z.2 * z.2

/-- Output powers over a window with summing; exponent 2E + b. -/
def Spectrum.powers (x : Spectrum) (f n b : Nat) : List Int :=
  (groupsOf (2 ^ b) ((x.window f n).map power)).map fun g => asr (sumI g) b

/-- Pair products of a bin at the common exponent: cross-power or Stokes (R311). -/
def pairBin (stokes : Bool) (x y : Cx) : List Int :=
  let re := x.1 * y.1 + x.2 * y.2
  let im := x.2 * y.1 - x.1 * y.2
  if stokes then [power x + power y, power x - power y, 2 * re, -2 * im] else [re, im]

def shiftCx (k : Nat) (z : Cx) : Cx := (asr z.1 k, asr z.2 k)

/-- Component-wise sums of a group, truncated by 2^b (R311). -/
def sumGroup (b : Nat) (g : List (List Int)) : List Int :=
  let w := (g.headD []).length
  (List.range w).map fun i => asr (sumI (g.map fun v => (v[i]?).getD 0)) b

/-- Pair products of two spectra over a window; exponent 2·max(E) + b. -/
def pairVals (stokes : Bool) (x y : Spectrum) (f n b : Nat) : List (List Int) :=
  let es := max x.e y.e
  let v := List.zipWith (fun p q => pairBin stokes (shiftCx (es - x.e) p) (shiftCx (es - y.e) q)) (x.window f n) (y.window f n)
  (groupsOf (2 ^ b) v).map (sumGroup b)

/-! ### Alignment (R300) -/

/-- How held and new values combine: sums, maximum, minimum, first and second moments. -/
inductive Combine where
  | sum | max | min | moments
  deriving DecidableEq, Repr

def Combine.op (c : Combine) (a b : Int) : Int :=
  match c with
  | .sum | .moments => a + b
  | .max => Max.max a b
  | .min => Min.min a b

/-- A held value at a larger exponent; a second moment moves twice as far. -/
def Combine.lower (c : Combine) (k : Nat) (v : List Int) : List Int :=
  match c, v with
  | .moments, [a, b] => [asr a k, asr b (2 * k)]
  | _, v => v.map fun a => asr a k

/-- A new value as it enters: squares are formed from the aligned value. -/
def Combine.form (c : Combine) (k : Nat) (v : List Int) : List Int :=
  match c, v with
  | .moments, a :: _ => let p := asr a k; [p, p * p]
  | _, v => v.map fun a => asr a k

/-- Held values and exponent after a spectrum with exponent e enters. -/
def alignEnter (c : Combine) (held : List (List Int)) (ea : Option Nat) (e : Nat) (vals : List (List Int)) : List (List Int) × Nat :=
  match ea with
  | none => (vals.map (c.form 0), e)
  | some a =>
    if a < e then (List.zipWith (List.zipWith c.op) (held.map (c.lower (e - a))) (vals.map (c.form 0)), e)
    else (List.zipWith (List.zipWith c.op) held (vals.map (c.form (a - e))), a)

/-- Open an accumulator over spectra [first, first + span) at an ARR level. -/
def ProdAcc.open_ (first span level : Nat) : ProdAcc :=
  { first := first, span := span, added := 0, exFill := 0, exCal := 0, under := 0, jidx := 0, flags := 0, ea := none, vals := []
    nco := 0, cgen := 0, lastM := 0, level := level }

/-- A spectrum is added (R303, R306). -/
def ProdAcc.add (a : ProdAcc) (c : Combine) (x : Spectrum) (flags : Flags) (e : Nat) (vals : List (List Int)) : ProdAcc :=
  let (v, ea) := alignEnter c a.vals a.ea e vals
  { a with
    added := a.added + 1, vals := v, ea := some ea, flags := a.flags ||| flags, lastM := x.m
    under := if a.added = 0 || a.cgen ≠ x.cgen then 1 else a.under + 1, cgen := x.cgen
    nco := if a.added = 0 then x.nco else a.nco, jidx := if a.added = 0 then x.jidx else a.jidx }

/-- How a spectrum enters the interval products (R303, R352). -/
inductive Entry where
  | add | addExcess | fill | calOn
  deriving DecidableEq, Repr

/-- Entry of a spectrum; `integ` for integrated power, which alone takes ON spectra under subtract. -/
def entryOf (cal : Cal) (x : Spectrum) (integ : Bool) : Entry :=
  if Flags.has x.flags (fFill ||| fPoison) then .fill
  else if !Flags.has x.flags fCalOn then .add
  else match cal.pol.policy with
  | 2 => .add
  | 1 => if integ && x.cls == 1 && x.tab.valid then .addExcess else .calOn
  | _ => .calOn

/-- Values with the calibration excess removed (R353). -/
def removeExcess (t : CalTab) (e : Nat) (v : List Int) : List Int :=
  List.zipWith (fun x (c : Nat) =>
    let c' := if e ≤ t.ec then min (c * 2 ^ (t.ec - e)) (2 ^ 32 - 1) else c / 2 ^ (e - t.ec)
    max 0 (x - c')) v t.c

/-- Put a spectrum into an accumulator by its entry. -/
def ProdAcc.take (a : ProdAcc) (c : Combine) (en : Entry) (x : Spectrum) (flags : Flags) (e : Nat) (vals : List (List Int)) : ProdAcc :=
  match en with
  | .fill => { a with exFill := a.exFill + 1, lastM := x.m }
  | .calOn => { a with exCal := a.exCal + 1, lastM := x.m }
  | _ => a.add c x flags e vals

/-! ### Records (R294, R306, R317) -/

def codeKind : Nat → Nat × Nat
  | 1 => (3, 1) | 2 => (4, 1) | 3 => (5, 1) | 4 => (4, 2) | 5 => (4, 3) | 6 => (5, 2) | 7 => (6, 1) | _ => (7, 1)

/-- The 32-byte prefix. -/
def prodPrefix (pr : ProdSet) (code first span added exFill exCal older : Nat) : List Byte :=
  pack [(8, first), (4, span), (4, added), (4, exFill), (4, exCal), (4, older), (2, pr.f), (1, pr.b), (1, code)]

/-- Bins of a product, little-endian. -/
def prodBins (code : Nat) (vals : List (List Int)) : List Byte :=
  let w := if code = 3 || code = 6 || code = 7 then 8 else if code = 1 then 2 else 4
  vals.flatMap fun v => pack (v.map fun x => (w, twos (8 * w) x))

/-- A product record as an item for its units. -/
def State.prodItem (s : State) (ch code first : Nat) (flags : Flags) (exp : Nat) (nco : Int) (cgen jidx level : Nat) (payload : List Byte) : Item :=
  let c := s.chan ch
  let idx := first * c.sp.h * c.fe.d
  { no := first, kind := (codeKind code).1, fmt := (codeKind code).2, vals := payload.map fun b => (b.toNat : Int), flags := flags
    stamp := { idx := idx, time := (s.stream c.stream).timeOf idx / unitF, nco := nco, cgen := cgen, fgen := c.fgen, exp := exp
               journal := jidx, level := level } }

/-- Hand an interval's or block's record to its units (R304, R307); none when nothing was added. `shift` divides the values (R308). -/
def State.emitAcc (s : State) (ch code shift : Nat) (a : ProdAcc) (extra : Flags) (zeroed : List Nat) : State :=
  if a.added = 0 then s
  else
    let c := s.chan ch
    let vals := (a.vals.map fun v => v.map fun x => asr x shift).mapIdx fun i v => if zeroed.contains i then v.map fun _ => 0 else v
    let p := prodPrefix c.pr code a.first a.span a.added a.exFill a.exCal (a.added - a.under) ++ prodBins code vals
    s.feed 3 ch code (s.prodItem ch code a.first (a.flags ||| extra ||| fIf (!zeroed.isEmpty) fPoison) (a.ea.getD 0 + shift) a.nco a.cgen a.jidx a.level p)

/-! ### Intervals (R301, R302) -/

/-- Effective interval length. -/
def Chan.le (c : Chan) : Nat := min (c.pr.len * 2 ^ c.level) (2 ^ 24)

/-- The interval that holds spectrum m, not before `from_`, with its level. -/
def intervalOf (le level from_ m : Nat) : Nat × Nat × Nat :=
  let lo := max from_ (m / le * le)
  let hi := (m / le + 1) * le
  (lo, hi - lo, level)

/-- Spectrum m lies in the interval. -/
def inIval (m : Nat) (i : Nat × Nat × Nat) : Bool := decide (i.1 ≤ m) && decide (m < i.1 + i.2.1)

/-- Where the newest interval ends; 0 with none open. -/
def Chan.ivalEnd (c : Chan) : Nat := (c.ivals.head?.map fun i => i.1 + i.2.1).getD 0

/-- Once the newest interval has ended, the one that holds spectrum m opens, at the level now in force (R302). Of the older ones, those stay that
a spectrum waiting for its partner lies in. -/
def Chan.openIval (c : Chan) (m : Nat) : Chan :=
  if m < c.ivalEnd then c
  else { c with ivals := intervalOf c.le c.level c.ivalEnd m :: c.ivals.filter fun i => c.pairWait.any fun w => inIval w.2.m i }

/-- A product's accumulator for spectrum m: the open one, else one over the interval that holds m (R301). -/
def Chan.accFor (c : Chan) (a : Option ProdAcc) (m : Nat) : ProdAcc :=
  a.getD (let i := (c.ivals.find? (inIval m)).getD (m, 1, c.level); ProdAcc.open_ i.1 i.2.1 i.2.2)

/-- The accumulator's interval has ended when the next spectrum is m. -/
def ProdAcc.over (a : ProdAcc) (m : Nat) : Bool := decide (a.first + a.span ≤ m)

/-- The open interval of an interval product. -/
def Chan.acc (c : Chan) (code : Nat) : Option ProdAcc :=
  match code with
  | 3 => c.integ | 4 => c.maxHold | 5 => c.minHold | 6 => c.cross | _ => c.stokes

/-- A product's full bank, or block, is read: its bins in error are logged, and read as zero (R316). -/
def State.bankRead (s : State) (ch code : Nat) : List Nat × State :=
  let bad := (s.chan ch).bankErr.filter fun e => e.1 == code
  (bad.map (·.2), (s.sramFaults 0x12 0 bad).setChan ch fun c => { c with bankErr := c.bankErr.filter fun e => e.1 != code })

/-- Close one interval product; the next interval starts clean. -/
def State.closeInterval (s : State) (ch code : Nat) (extra : Flags) : State :=
  match (s.chan ch).acc code with
  | none => s
  | some a =>
    let (zeroed, s) := if a.added = 0 then ([], s) else s.bankRead ch code
    (s.emitAcc ch code 0 a extra zeroed).setChan ch fun c => match code with
      | 3 => { c with integ := none } | 4 => { c with maxHold := none } | 5 => { c with minHold := none } | 6 => { c with cross := none }
      | _ => { c with stokes := none }

/-- An interval product's interval has ended before spectrum m; a pair product's waits for the spectra that may still enter it. -/
def Chan.intervalDue (c : Chan) (code m : Nat) : Bool :=
  (c.acc code).any fun a => a.over m && (code < 6 || !(c.pairWait.any fun w => decide (w.2.m < a.first + a.span)))

/-- Close the interval products whose interval has ended before spectrum m; the interval of m opens first (R302, R304). -/
def State.closeDue (s : State) (ch m : Nat) : State :=
  let s := s.setChan ch fun c => c.openIval m
  [3, 4, 5, 6, 7].foldl (fun s code => if (s.chan ch).intervalDue code m then s.closeInterval ch code 0 else s) s

/-! ### Spectral kurtosis (R313, R314) -/

/-- SK of a bin from its sums over n spectra. -/
def skValue (n : Nat) (s1 s2 : Int) : Nat :=
  let num := (n : Int) * s2 - s1 * s1
  if n < 2 || s1 = 0 || num < 0 then 0
  else min (2 ^ 32 - 1) ((65536 * ((n : Int) + 1) * num) / (((n : Int) - 1) * s1 * s1)).toNat

/-- Values and flags of a block. -/
def skResults (pr : ProdSet) (a : ProdAcc) (zeroed : List Nat) : List (Nat × Bool) :=
  (a.vals.mapIdx fun i v => if zeroed.contains i then [0, 0] else v).map fun v =>
    let k := skValue a.added ((v[0]?).getD 0) ((v[1]?).getD 0)
    (k, decide (k < pr.skLo) || decide (pr.skHi < k))

/-- A bitmap of n flags, padded to a multiple of 8 bytes. -/
def bitmap (l : List Bool) : List Byte :=
  padTo 8 ((groupsOf 8 (l ++ List.replicate ((8 - l.length % 8) % 8) false)).map fun g =>
    BitVec.ofNat 8 (g.reverse.foldl (fun a b => 2 * a + b2n b) 0))

/-- End a spectral-kurtosis block: its record, its results, the SK conditions (R313, R314, R375). -/
def State.closeSk (s : State) (ch : Nat) (extra : Flags) : State :=
  let c := s.chan ch
  match c.sk with
  | none => s
  | some a =>
    let (zeroed, s) := if a.added = 0 then ([], s) else s.bankRead ch 8
    let res := skResults c.pr a zeroed
    let bad := fIf (!zeroed.isEmpty) fPoison
    let flags := a.flags ||| extra ||| bad ||| fIf (res.any (·.2)) fSk
    let s := s.setChan ch fun c => { c with sk := none, skRes := res }
    let s := if a.added = 0 then s
      else
        let p := prodPrefix c.pr 8 a.first a.span a.added a.exFill a.exCal (a.added - a.under) ++
          padTo 8 (pack (res.map fun r => (4, r.1)) ++ bitmap (res.map (·.2)))
        s.feed 3 ch 8 (s.prodItem ch 8 a.first flags (a.ea.getD 0) a.nco a.cgen a.jidx a.level p)
    if extra.has fTruncated then s
    else
      let n := (res.filter (·.2)).length
      (List.range 4).foldl (fun s l =>
        let k := nth c.cond l .off
        let skip := a.added == 0 || Flags.has (a.flags ||| bad) (fFill ||| fPoison ||| fGap) || (k.skipCal && Flags.has a.flags fCalOn)
        let t := decide (bits k.u1.toNat 15 0 + 1 ≤ n)
        if k.type = 5 then s.evalCond ch l (a.lastM * c.sp.h * c.fe.d) (if skip then none else some (t, !t)) else s) s

/-! ### A spectrum reaches the products -/

/-- Complex and power spectra (codes 1 and 2), reduced at the channel's ARR level (R308). -/
def State.singleProducts (s : State) (ch : Nat) (x : Spectrum) : State :=
  let c := s.chan ch
  let pr := c.pr
  let n := 2 ^ c.level
  let one := fun (s : State) (code : Nat) (e : Nat) (vals : List (List Int)) =>
    s.feed 3 ch code (s.prodItem ch code x.m x.flags e x.nco x.cgen x.jidx c.level
      (prodPrefix pr code x.m 1 1 0 0 0 ++ prodBins code vals))
  let s := if pr.mask.getLsbD 0 && x.m % n = 0 then one s 1 x.e ((x.window pr.f pr.bins).map fun z => [z.1, z.2]) else s
  if !pr.mask.getLsbD 1 then s
  else
    let p := (x.powers pr.f pr.bins pr.b).map fun v => [v]
    let e := 2 * x.e + pr.b
    if c.level = 0 && c.power.isNone then one s 2 e p
    else
      let s := match c.power with
        | some a => if a.over x.m then (s.emitAcc ch 2 (Nat.log2 (max 1 a.span)) a 0 []).setChan ch fun c => { c with power := none } else s
        | none => s
      if c.level = 0 && (s.chan ch).power.isNone then one s 2 e p
      else
        let a := ((s.chan ch).power.getD (ProdAcc.open_ (x.m / n * n) n c.level)).take .sum (entryOf c.cal x false) x x.flags e p
        if a.over (x.m + 1) then (s.emitAcc ch 2 (Nat.log2 (max 1 a.span)) a 0 []).setChan ch fun c => { c with power := none }
        else s.setChan ch fun c => { c with power := some a }

/-- Integrated power and the holds (codes 3–5) take a spectrum. -/
def State.intervalProducts (s : State) (ch : Nat) (x : Spectrum) : State :=
  let c := s.chan ch
  let pr := c.pr
  let p := x.powers pr.f pr.bins pr.b
  let e := 2 * x.e + pr.b
  let go := fun (a : Option ProdAcc) (k : Combine) (integ : Bool) =>
    let en := entryOf c.cal x integ
    let v := if en = .addExcess then removeExcess x.tab e p else p
    some ((c.accFor a x.m).take k en x x.flags e (v.map fun y => [y]))
  s.setChan ch fun c => { c with
    integ := if pr.mask.getLsbD 2 then go c.integ .sum true else c.integ
    maxHold := if pr.mask.getLsbD 3 then go c.maxHold .max false else c.maxHold
    minHold := if pr.mask.getLsbD 4 then go c.minHold .min false else c.minHold }

/-- The spectral-kurtosis block takes a spectrum; a block that has ended closes first. -/
def State.skProduct (s : State) (ch : Nat) (x : Spectrum) : State :=
  let c := s.chan ch
  let pr := c.pr
  if !pr.mask.getLsbD 7 then s
  else
    let s := if c.sk.any fun a => a.over x.m then s.closeSk ch 0 else s
    let a := (s.chan ch).sk.getD (ProdAcc.open_ (x.m / max 1 pr.skM * pr.skM) pr.skM c.level)
    let a := a.take .moments (entryOf c.cal x false) x x.flags (2 * x.e) ((x.powers pr.f pr.bins 0).map fun v => [v])
    s.setChan ch fun c => { c with sk := some { a with lastM := x.m } }

/-- A pair of equal number enters cross-power and Stokes of channel X (R310, R311). -/
def State.addPair (s : State) (xch ych : Nat) (x y : Spectrum) : State :=
  let s := s.closeDue xch x.m
  let c := s.chan xch
  let pr := c.pr
  let flags := x.flags ||| y.flags
  let en := match entryOf c.cal x false, entryOf (s.chan ych).cal y false with
    | .fill, _ | _, .fill => Entry.fill
    | .calOn, _ | _, .calOn => Entry.calOn
    | _, _ => Entry.add
  let e := 2 * max x.e y.e + pr.b
  let go := fun (stokes : Bool) (a : Option ProdAcc) => some ((c.accFor a x.m).take .sum en x flags e (pairVals stokes x y pr.f pr.bins pr.b))
  s.setChan xch fun c => { c with
    cross := if pr.mask.getLsbD 5 then go false c.cross else c.cross
    stokes := if pr.mask.getLsbD 6 then go true c.stokes else c.stokes }

/-- Channel ch has a partner for its pair products. -/
def Chan.partnerIdx (c : Chan) : Option Nat :=
  if c.pr.mask.getLsbD 5 || c.pr.mask.getLsbD 6 then some (hIdx c.pr.partner) else none

/-- Pairs enter in order: once spectrum m has its partner, what waits up to it waits in vain. -/
def Chan.paired (c : Chan) (m : Nat) : Chan := { c with pairWait := c.pairWait.filter fun w => decide (m < w.2.m) }

/-- A spectrum of a channel meets the spectra that wait for it: as X, then as Y of each pair. -/
def State.pairProducts (s : State) (ch : Nat) (x : Spectrum) : State :=
  let s := match (s.chan ch).partnerIdx with
    | none => s
    | some y =>
      match (s.chan ch).pairWait.find? fun w => w.1 && w.2.m == x.m with
      | some w =>
        (s.setChan ch fun c => c.paired x.m).addPair ch y x w.2
      | none => s.setChan ch fun c => { c with pairWait := c.pairWait ++ [(false, x)] }
  (List.range 128).foldl (fun s i =>
    if (s.chan i).emits && (s.chan i).partnerIdx == some ch && i != ch then
      match (s.chan i).pairWait.find? fun w => !w.1 && w.2.m == x.m with
      | some w =>
        (s.setChan i fun c => c.paired x.m).addPair i ch w.2 x
      | none => s.setChan i fun c => { c with pairWait := c.pairWait ++ [(true, x)] }
    else s) s

/-- Every product of a channel takes a spectrum. -/
def State.products (s : State) (ch : Nat) (x : Spectrum) : State :=
  let s := s.closeDue ch x.m
  let s := s.singleProducts ch x
  let s := s.intervalProducts ch x
  let s := s.skProduct ch x
  s.pairProducts ch x

/-- What has ended goes out as it is, its own boundary event or partner notwithstanding; then every interval and block that is still open closes
early (R307, R313). -/
def State.cutProducts (s : State) (ch : Nat) (extra : Flags) : State :=
  let f := fTruncated ||| extra
  let s := s.setChan ch fun c => { c with pairWait := [] }
  let next := (s.chan ch).nextSpec
  let s := s.closeDue ch next
  let s := if (s.chan ch).sk.any fun a => a.over next then s.closeSk ch 0 else s
  let s := [3, 4, 5, 6, 7].foldl (fun s code => s.closeInterval ch code f) s
  let s := s.closeSk ch f
  let s := match (s.chan ch).power with
    | some a => s.emitAcc ch 2 (Nat.log2 (max 1 a.span)) a (if a.over next then 0 else f) []
    | none => s
  s.setChan ch fun c => { c with power := none, ivals := [], bankErr := [] }

end Sys2Proof.Machine
end

