-- ==== Sys2Proof/Machine/Calib.lean ====
section
/-! DEFINITION. Live calibration: groups, classes of spectra, accumulators, derivation, swaps, table records (R330–R355). -/

namespace Sys2Proof.Machine

/-! ### Groups and cycles (R330–R332) -/

/-- Reference of a group channel. -/
def Cal.refOf (c : Cal) (ch : Nat) : Nat := if c.ref = 0 then ch else c.ref % 256

/-- Channels of a reference's group. -/
def State.calGroup (s : State) (ref : Nat) : List Nat :=
  (List.range 128).filter fun i => let c := s.chan i; c.st != .empty && c.cal.on && c.cal.refOf i == ref

def State.drive (s : State) (d : Nat) : Drive := nth s.drives d .reset
def State.setDrive (s : State) (d : Nat) (f : Drive → Drive) : State := { s with drives := upd s.drives d f }

/-- Drive of a reference. -/
def State.driveOf (s : State) (ref : Nat) : Option Nat := (List.range 4).find? fun d => (s.drive d).owner == some ref

/-- Number of the cycle an instant lies in, and the instant a cycle starts (R332). -/
def cycleNo (n t : Nat) : Nat := t * n / unitS
def cycleStart (n k : Nat) : Nat := ceilDiv (k * unitS) (max 1 n)

/-! ### Classes (R334, R335) -/

/-- Span of spectrum m of a channel: times of its first and last output less the group delay. -/
def State.specSpan (s : State) (ch m : Nat) : Int × Int :=
  let c := s.chan ch
  let sm := s.stream c.stream
  let w := c.sp.span
  let gd := c.fe.knownDelay * c.fe.d * unitS / (64 * max 1 sm.par.fs)
  let t := fun j => (sm.timeOf (j * c.fe.d) : Int) - gd
  (t (m * c.sp.h), t (m * c.sp.h + w - 1))

/-- Class of spectrum m: 0 in no group, 1 ON, 2 OFF, 3 TRANSITION. -/
def State.calClass (s : State) (ch m : Nat) : Nat :=
  let c := s.chan ch
  if !c.cal.on then 0
  else match s.driveOf (c.cal.refOf ch) with
  | none => 0
  | some d =>
    let v := s.drive d
    let (t1, t2) := s.specSpan ch m
    let path := c.cal.pathNs * unitNs
    let g := c.cal.guardUs * 1000 * unitNs
    let a := (t1 - path).toNat
    let b := (t2 - path).toNat
    let k := cycleNo v.n a
    let on := cycleStart v.n k
    let off := on + unitS / (max 1 v.n * 2 ^ v.r)
    if on + g ≤ a && b ≤ off then 1
    else if off + g ≤ a && b ≤ cycleStart v.n (k + 1) then 2
    else 3

/-! ### Accumulation (R337–R340) -/

/-- Add values with an exponent (R300): power saturates at 2^64 − 1, cross-power components at the bounds of 64-bit signed; a bin that has saturated
is marked. -/
def CalAcc.add (a : CalAcc) (cross : Bool) (e : Nat) (v : List (List Int)) : CalAcc :=
  let (lo, hi) : Int × Int := if cross then (-2 ^ 63, 2 ^ 63 - 1) else (0, 2 ^ 64 - 1)
  let (x, ea) := alignEnter .sum a.vals a.e e v
  let full := (List.range x.length).filter fun i => ((x[i]?).getD []).any fun y => decide (y < lo) || decide (hi < y)
  ⟨x.map fun b => b.map fun y => max lo (min hi y), some ea, a.n + 1, a.full ++ full.filter fun i => !a.full.contains i⟩

/-- Flags that keep a spectrum out (R338). -/
def calBad (f : Flags) : Bool := Flags.has f (fFill ||| fPoison ||| fGap ||| fSaturated ||| fTune ||| fDelayStep)

/-- Spectrum m lies in the period of this drive that begins with cycle k. -/
def State.inPeriod (s : State) (ch m d k : Nat) : Bool :=
  let y := cycleNo (s.drive d).n (s.specSpan ch m).1.toNat
  decide (k ≤ y) && decide (y < k + (s.chan ((s.chan ch).cal.refOf ch)).cal.cycles)

/-- First cycle of the period that spectrum m counts in: the open one, or the one before it while that is derived (R339, R340). -/
def State.periodOf (s : State) (ch m : Nat) : Option Nat :=
  (s.driveOf ((s.chan ch).cal.refOf ch)).bind fun d =>
    ((s.drive d).period.toList ++ (s.drive d).old.toList).find? fun k => s.inPeriod ch m d k

/-- Change one buffer of a channel: the open period's, or the one that is being derived. -/
def Chan.onBank (c : Chan) (isOld : Bool) (f : CalBank → CalBank) : Chan :=
  { c with cal := if isOld then { c.cal with prev := c.cal.prev.map fun p => (f p.1, p.2) } else { c.cal with cur := f c.cal.cur } }

/-- A pair of the reference and a DELAY member enters the cross accumulators. -/
def Chan.addCross (c : Chan) (isOld : Bool) (x y : Spectrum) : Chan :=
  if calBad x.flags || calBad y.flags || x.cls ≠ y.cls then c
  else
    let v := pairVals false x y c.cal.fc c.cal.bc c.cal.b
    let e := 2 * max x.e y.e + c.cal.b
    c.onBank isOld fun k =>
      if x.cls = 1 then { k with crossOn := k.crossOn.add true e v }
      else if x.cls = 2 then { k with crossOff := k.crossOff.add true e v }
      else k

/-- A member meets one spectrum of a pair, of the period that begins with cycle k. What has waited for two spectrum periods, or for a spectrum
that has gone by, waits no more (R310, R338). -/
def Chan.calPair (c : Chan) (isOld fromRef : Bool) (k : Nat) (x : Spectrum) : Chan :=
  let c := { c with cal := { c.cal with wait := c.cal.wait.filter fun w => w.1 != fromRef || decide (x.m ≤ w.2.2.m + 2) } }
  match c.cal.wait.find? fun w => w.1 != fromRef && w.2.2.m == x.m with
  | some w =>
    let c := { c with cal := { c.cal with wait := c.cal.wait.filter fun w => decide (x.m < w.2.2.m) } }
    if w.2.1 ≠ k then c else if fromRef then c.addCross isOld x w.2.2 else c.addCross isOld w.2.2 x
  | none => { c with cal := { c.cal with wait := c.cal.wait ++ [(fromRef, k, x)] } }

/-- A spectrum reaches its channel's calibration. -/
def State.calSpectrum (s : State) (ch : Nat) (x : Spectrum) : State :=
  let c := s.chan ch
  match if c.cal.on then s.periodOf ch x.m else none with
  | none => s
  | some k =>
    let isOld := ((s.driveOf (c.cal.refOf ch)).bind fun d => (s.drive d).period) != some k
    let p := (x.powers c.cal.fc c.cal.bc c.cal.b).map fun v => [v]
    let e := 2 * x.e + c.cal.b
    let s := s.setChan ch fun c => c.onBank isOld fun b =>
      let b := { b with lastSpec := x.m, trans := b.trans + b2n (x.cls == 3) }
      if calBad x.flags then b
      else if x.cls = 1 then { b with on := b.on.add false e p }
      else if x.cls = 2 then { b with off := b.off.add false e p }
      else b
    let s := if c.cal.delay && c.cal.ref ≠ 0 then s.setChan ch fun c => c.calPair isOld false k x else s
    if c.cal.ref = 0 then
      (s.calGroup ch).foldl (fun s i => if i != ch && (s.chan i).cal.delay then s.setChan i fun c => c.calPair isOld true k x else s) s
    else s

/-- Empty the open period's accumulators. -/
def Chan.clearCal (c : Chan) : Chan := { c with cal := { c.cal with cur := .zero, wait := [] } }

/-- Discard a group's period; the next begins at the next cycle start (R339). -/
def State.calRestart (s : State) (ref : Nat) : State :=
  match s.driveOf ref with
  | none => s
  | some d =>
    (s.calGroup ref).foldl (fun s i => s.setChan i Chan.clearCal) (s.setDrive d fun v => { v with period := none })

/-- An epoch reset of a group channel: the period is discarded; a live swap that waits comes at the first boundary of the new count (R339,
Races). -/
def State.calEpoch (s : State) (ch : Nat) : State :=
  let ref := (s.chan ch).cal.refOf ch
  let first := fun (q : SwapReq) => if q.live then { q with atSpec := none } else q
  let s := s.setChan ch fun c => { c with swaps := c.swaps.map first }
  let again := fun (g : GroupSwap) =>
    if g.live then { g with ms := 0, parts := g.parts.map (fun (p : Nat × SwapReq) => (p.1, first p.2)), recs := g.recs.map (fun (r : CalDeriv) => { r with swapM := 0 }) } else g
  let s := match s.driveOf ref with
    | none => s
    | some d => s.setDrive d fun v => { v with swaps := v.swaps.map again }
  s.calRestart ref

/-! ### Derivation (R341–R348) -/

/-- First swap boundary of a channel after now, as a spectrum number (or a count of 4,096 outputs). -/
def Chan.nextBoundary (c : Chan) : Nat := ceilDiv c.nextOut c.swapPitch

/-- Values of component i divided by the spectra added, at exponent `e`. -/
def CalAcc.mean (a : CalAcc) (i e : Nat) : List Int :=
  a.vals.map fun v => asr ((v[i]?).getD 0 / (max 1 a.n : Nat)) (e - a.e.getD e)

def nthI (l : List Int) (i : Nat) : Int := (l[i]?).getD 0
def nthN (l : List Nat) (i : Nat) : Nat := (l[i]?).getD 0

/-- Mean over chosen bins, truncated. -/
def meanOver (l : List Int) (bins : List Nat) : Int := sumI (bins.map (nthI l)) / (max 1 bins.length : Nat)

/-- Limit a change to ±k. -/
def limitBy (k : Nat) (v : Int) : Int := max (-(k : Int)) (min k v)

/-- Comb lines: of the bins within ±4 of each expected position, both in 1/16 bin, that of largest Δ, with the offset (R346). -/
def combLines (n p0 dp : Nat) (delta : List Int) : List (Nat × Int) :=
  (List.range n).map fun q =>
    let p := p0 + q * dp
    let lo := ceilDiv (p - 64) 16
    let c := ((List.range ((p + 64) / 16 + 1 - lo)).map (lo + ·)).filter fun i => decide (i < delta.length)
    let best := c.foldl (fun b i => if nthI delta b < nthI delta i then i else b) (c.headD 0)
    (best, Config.parabolic (nthI delta (best - 1)) (nthI delta best) (nthI delta (best + 1)))

/-- floor(v·sqrt(num/den)): a gain component times s, truncated (R344, R217). -/
def scaleRoot (v : Int) (num den : Nat) : Int :=
  let q := v.natAbs ^ 2 * num
  let r := isqrt (q / max 1 den)
  if 0 ≤ v then r else if r * r * den = q then -r else -r - 1

/-- Least squares of φ = φ_0 + 2π·δ·f over good bins, weighted by |Δ| (R345): δ in 2^-16 output sample and φ_0 in 2^-16 turn, truncated. A bin
stands as its frequency offset from the window centre in 1/(2N) of the output rate, Δ and its phase in 2^-16 turn. -/
def phaseFit (n : Nat) (bins : List (Int × Int × Int)) : Int × Int :=
  let sum := fun (f : Int → Int → Int → Int) => sumI (bins.map fun (x, w, p) => f x |w| p)
  let sw := sum fun _ w _ => w
  let sx := sum fun x w _ => w * x
  let sp := sum fun _ w p => w * p
  let sxx := sum fun x w _ => w * x * x
  let sxp := sum fun x w p => w * x * p
  let d := sw * sxx - sx * sx
  if d = 0 then Config.phaseFitOpen (bins.map fun (x, w, p) => (x.toNat, w, p))
  else (2 * (n : Int) * (sw * sxp - sx * sp) / d, (sxx * sp - sx * sxp) / d)

/-- Δ/σ in Q8.8 from the two sides of R341, whose quotient is (4Δ/σ)². -/
def sigmaRatio (delta num den : Int) : Nat :=
  let r := isqrt (4096 * num / den).toNat
  if 0 < delta ∧ 0 < den ∧ r < 65536 then r else Config.sigmaOpen delta num den % 65536

/-- The bandpass gain of a bin (R343): the floor of the exact quotient. -/
def bandGain (delta t : Int) (mu : Rat) : Nat :=
  if mu ≤ 0 then 0 else min (2 ^ 32 - 1) ((65536 * ((delta : Rat) / t) / mu).floor).toNat

/-- Derive one channel's table set from the buffer of the period that has ended, under the policies it had. -/
def State.calDerive (s : State) (ch : Nat) (a : CalBank) (p : CalPol) : CalDeriv :=
  let c := s.chan ch
  let k := c.cal
  let nOn := a.on.n
  let nOff := a.off.n
  let ec := max (a.on.e.getD 0) (a.off.e.getD 0)
  let on := a.on.mean 0 ec
  let off := a.off.mean 0 ec
  let nb := k.bc / 2 ^ k.b
  let delta := (List.range nb).map fun i => nthI on i - nthI off i
  let num := fun i => 16 * (2 ^ k.b : Nat) * nthI delta i ^ 2 * nOn * nOff
  let den := fun i => nthI on i ^ 2 * nOff + nthI off i ^ 2 * nOn
  let isGood := fun i =>
    decide (0 < nthI delta i) && !a.on.full.contains i && !a.off.full.contains i && decide ((p.z ^ 2 : Nat) * den i ≤ num i)
  let good := if nOn = 0 ∨ nOff = 0 then [] else (List.range nb).filter isGood
  let confident := decide (max 8 (ceilDiv (p.fMin * nb) 256) ≤ good.length)
  let tOf := fun i => let t := nthN k.t i; if t = 0 then (65536 : Int) else t
  let mu : Rat := (good.foldl (fun a i => a + (nthI delta i : Rat) / tOf i) 0) / (max 1 good.length : Nat)
  let g := (List.range nb).map fun i => if good.contains i then bandGain (nthI delta i) (tOf i) mu else 0
  let dMu := meanOver delta good
  -- gain (R344, R347, R348)
  let target : Int := if k.target = 0 then dMu else k.target
  let tExp := if k.target = 0 then ec else k.targetE
  let lhs := target * (2 ^ tExp : Nat)
  let rhs := dMu * (2 ^ ec : Nat)
  let beyond := fun (t : Nat) => (rhs * (65536 + t) ^ 2 < lhs * 2 ^ 32, lhs * 2 ^ 32 < rhs * (65536 - t : Nat) ^ 2)
  let gainMoves := k.gain && ((beyond p.gainThr).1 || (beyond p.gainThr).2)
  let scale := fun (v : Int) =>
    if !k.gain then v
    else if (beyond p.gainSlew).1 then sat 18 (asr (v * (65536 + p.gainSlew)) 16)
    else if (beyond p.gainSlew).2 then sat 18 (asr (v * (65536 - p.gainSlew)) 16)
    else sat 18 (scaleRoot v lhs.toNat rhs.toNat)
  -- delay and phase (R345, R347, R348)
  let fits := k.delay && k.ref != 0
  let ex := max (a.crossOn.e.getD 0) (a.crossOff.e.getD 0)
  let cross := fun i j => nthI (a.crossOn.mean j ex) i - nthI (a.crossOff.mean j ex) i
  let phase := fun i => Config.crossPhase (cross i 0) (cross i 1)
  let offset := fun (i : Nat) => ((2 * i + 1) * 2 ^ k.b : Nat) - (k.bc : Int)
  let (dl, phi) := if fits then phaseFit (2 ^ c.sp.l) (good.map fun i => (offset i, nthI delta i, phase i)) else (0, 0)
  let want := (c.fe.tau : Int) - dl / 1024
  let clamped := max 0 (min 65535 want)
  let tauTo := (c.fe.tau : Int) + limitBy p.delaySlew (clamped - c.fe.tau)
  let phiStep := limitBy p.phaseSlew phi
  let tauMoves := fits && decide (p.delayThr ≤ (clamped - c.fe.tau).natAbs)
  let phaseMoves := fits && decide (p.phaseThr < phi.natAbs)
  let bpMoves := (List.range nb).any fun i => decide (p.bpThr < ((nthN g i : Int) - nthN k.tab.g i).natAbs)
  let propose := confident && (gainMoves || tauMoves || phaseMoves || bpMoves)
  let (gr, gi) := if fits then Config.gainRotated (scale c.fe.gRe, scale c.fe.gIm) phiStep else (scale c.fe.gRe, scale c.fe.gIm)
  -- the last confident Δ (R353)
  let tab : CalTab := if confident then ⟨g, delta.map fun v => (max 0 (min v (2 ^ 32 - 1))).toNat, ec, true⟩ else { k.tab with g := g }
  { ch := ch, swapM := c.nextBoundary, confident := confident, limit := fits && clamped != want
    slew := (k.gain && ((beyond p.gainSlew).1 || (beyond p.gainSlew).2)) || (fits && (tauTo != clamped || phiStep != phi))
    propose := propose, mean := dMu, good := good.length, nOn := nOn, nOff := nOff, trans := a.trans
    tab := tab, tau := if fits then tauTo.toNat else c.fe.tau, gRe := gr, gIm := gi
    delta := dl, phi := phi, lastSpec := a.lastSpec, comb := combLines k.combN k.combP0 k.combDp delta
    rows := (List.range nb).map fun i =>
      (nthN g i, nthN tab.c i, if fits then phase i else 0, sigmaRatio (nthI delta i) (num i) (den i)) }

/-! ### Periods -/

/-- The policy fields of a CAL_SET (R356, R357). -/
def polOf (d : Desc) : CalPol :=
  { policy := d.u 0x09 1, z := d.u 0x13 1, fMin := d.u 0x25 1, gainThr := d.u 0x26 2, gainSlew := d.u 0x28 2, delayThr := d.u 0x2A 2
    delaySlew := d.u 0x2C 1, phaseThr := d.u 0x2E 2, phaseSlew := d.u 0x30 2, bpThr := d.u 0x32 2 }

/-- Commands of a group that wait for its drive. -/
def State.calWaiting (s : State) (op : Op) (ref : Nat) : List Nat :=
  s.ringsWaiting fun f => f.op == op && f.stage == .point && (s.calGroup ref).contains (hIdx f.d.handle)

/-- A period begins at cycle k: waiting policies and an ended freeze take effect (R357, R360). -/
def State.periodStart (s : State) (d k : Nat) : State :=
  match (s.drive d).owner with
  | none => s
  | some ref =>
    let s := (s.calGroup ref).foldl (fun s i => s.setChan i fun c =>
      { c with cal := { c.cal with pol := c.cal.newPolicy.getD c.cal.pol, newPolicy := none } }) s
    let thaw := (s.drive d).thaw
    let s := s.setDrive d fun v => { v with period := some k, frozen := v.frozen && !v.thaw, thaw := false }
    if thaw then
      (s.calWaiting .calFreeze ref).foldl (fun (s : State) r => s.finish r .ok 0 0) s
    else s

/-! ### Table records (R355) -/

/-- Write a channel's table record to a free slot of its region, or count it as skipped. `vals` are τ and G in force after the swap. MANUAL says
that they are those of a CAL_TABLE_LOAD (log entry 83). -/
def State.calRecord (s : State) (v : CalDeriv) (applied frozen : Bool) (gen : Nat) : State :=
  let c := s.chan v.ch
  let k := c.cal
  let moved := applied && v.propose
  let manual := k.manual && !moved
  let (tau, gRe, gIm) := if moved then (v.tau, v.gRe, v.gIm) else (c.fe.tau, c.fe.gRe, c.fe.gIm)
  if !s.valid 3 k.region then s
  else
    let payload := pack ([(8, v.lastSpec), (8, if applied then v.swapM else 2 ^ 64 - 1), (2, gen),
      (1, b2n applied + 2 * b2n frozen + 4 * b2n v.confident + 8 * b2n v.limit + 16 * b2n manual), (1, k.b), (4, k.fc),
      (4, v.nOn), (4, v.nOff), (4, v.trans), (4, v.good), (4, twos 32 gRe), (4, twos 32 gIm), (2, tau), (2, v.comb.length),
      (4, twos 32 v.delta), (2, twos 16 v.phi), (2, 0), (4, k.skipped)] ++
      v.rows.flatMap (fun (gg, cc, ph, sg) => [(4, gg), (4, cc), (2, twos 16 ph), (2, sg), (4, 0)]) ++
      v.comb.flatMap fun (b, o) => [(4, b), (2, twos 16 o), (2, 0)])
    let i := hIdx k.region
    let r := s.region i
    let len := slotBytes (padTo 8 payload).length
    let ok := fun j => len ≤ r.bytes / 2 && r.roomAt (j * (r.bytes / 2)) len
    let first := b2n k.slot
    match if ok first then some first else if ok (1 - first) then some (1 - first) else none with
    | none => s.setChan v.ch fun c => { c with cal := { c.cal with skipped := c.cal.skipped + 1 } }
    | some j =>
      let sm := s.stream c.stream
      let idx := v.lastSpec * c.sp.h * c.fe.d
      let h := { Hdr.plain (s.handleOf 2 v.ch) 5 0x10 (sm.timeOf idx / unitF) with
        idx := idx, flags := s.timeFlags c.stream, cgen := gen, fgen := c.fgen, journal := s.sec.jNext - 1
        log2d := c.fe.dd, exp := v.tab.ec, hop := c.sp.h, nco := c.nco, fs := sm.par.fs }
      (s.putRecord i (j * (r.bytes / 2)) true h payload).setChan v.ch fun c =>
        { c with cal := { c.cal with slot := j == 0, skipped := 0 } }

/-! ### Swaps (R349–R351) -/

/-- Set the generation of a group and of its channels. -/
def State.setGroupGen (s : State) (d ref gen : Nat) : State :=
  (s.calGroup ref).foldl (fun s i => s.setChan i fun c => { c with calGen := gen }) (s.setDrive d fun v => { v with gen := gen })

/-- Ask a channel to swap: at once when it emits nothing, else at its boundary. -/
def State.askSwap (s : State) (ch : Nat) (q : SwapReq) : State :=
  s.setChan ch fun c =>
    let c := { c with swaps := c.swaps ++ [q] }
    if c.emits then c else { c.applySwap q with delayStep := c.delayStep, fdlFill := c.fdlFill }

/-- Ask the channels for their parts of a group swap. -/
def State.askParts (s : State) (d tag : Nat) : State :=
  match (s.drive d).swaps.find? fun g => g.tag == tag && !g.asked with
  | none => s
  | some g =>
    g.parts.foldl (fun s p => s.askSwap p.1 p.2)
      (s.setDrive d fun v => { v with swaps := v.swaps.map fun x => if x.tag = tag then { x with asked := true } else x })

/-- A channel's part of a mirrored swap. -/
def SwapReq.bytes (ch : Nat) (q : SwapReq) : List Byte :=
  let t : CalTab := q.tab.getD ⟨[], [], 0, false⟩
  let (tau, gRe, gIm) := q.vals.getD (0, 0, 0)
  pack [(1, ch), (2, tau), (4, twos 32 gRe), (4, twos 32 gIm),
    (1, b2n q.tab.isSome + 2 * b2n t.valid + 4 * b2n q.vals.isSome + 8 * b2n q.atSpec.isSome), (1, t.ec), (2, t.g.length),
    (2, t.c.length), (8, q.atSpec.getD 0)] ++ t.g.flatMap (fun x => le 4 x) ++ t.c.flatMap fun x => le 4 x

/-- A mirrored swap's parts. -/
def swapParts : (fuel : Nat) → List Byte → List (Nat × SwapReq)
  | 0, _ => []
  | k + 1, l =>
    if l.length < 25 then [] else
    let ng := num l 13 2
    let nc := num l 15 2
    let words := fun o n => (List.range n).map fun i => num l (o + 4 * i) 4
    let f := num l 11 1
    let q : SwapReq := { tag := 0, live := true, atSpec := if bit f 3 then some (num l 17 8) else none
                         vals := if bit f 2 then some (num l 1 2, sx 32 (num l 3 4), sx 32 (num l 7 4)) else none
                         tab := if bit f 0 then some ⟨words 25 ng, words (25 + 4 * ng) nc, num l 12 1, bit f 1⟩ else none }
    (num l 0 1, q) :: swapParts k (l.drop (25 + 4 * ng + 4 * nc))

/-- The channel swaps with the reference at one spectrum number (R350). -/
def State.tied (s : State) (ref i : Nat) : Bool := i == ref || ((s.chan i).cal.delay && (s.chan i).cal.ref != 0)

/-- m_s of a swap that is set now: no channel that is tied to it and emits has passed it (R350). -/
def State.swapSpectrum (s : State) (ref : Nat) : Nat :=
  let on := (s.calGroup ref).filter fun i => s.tied ref i && (s.chan i).emits
  if on.isEmpty then (s.chan ref).nextBoundary else (on.map fun i => (s.chan i).nextBoundary).foldl max 0

/-- Set a group swap. A primary sends its tables and its spectrum before m_s; a secondary waits for them (R675, R676). -/
def State.setSwap (s : State) (d ref : Nat) (g : GroupSwap) : State :=
  let s := s.setDrive d fun v => { v with count := v.count + 1, swaps := v.swaps ++ [g] }
  match s.pair.role with
  | .secondary => s
  | .primary => (s.askParts d g.tag).emit
      (.seam (.calTables (Fin.ofNat 128 ref) g.ms (nextCalGen (s.drive d).gen) (g.parts.flatMap fun p => p.2.bytes p.1)))
  | _ => s.askParts d g.tag

/-- The group swap of a drive's derivation (R347–R350). Its records wait for its outcome; with no swap they are written now (R355). -/
def State.swapDerived (s : State) (d ref : Nat) (derived : List CalDeriv) : State :=
  let v := s.drive d
  let frozen := v.frozen || v.oldFrozen
  -- the target excess is captured from the first confident derivation (R344)
  let s := derived.foldl (fun s x => s.setChan x.ch fun c =>
    if x.confident && c.cal.gain && c.cal.target = 0 then
      { c with cal := { c.cal with target := x.mean.toNat, targetE := x.tab.ec } }
    else c) s
  if frozen || !(derived.any (·.propose)) then derived.foldl (fun s x => s.calRecord x false frozen v.gen) s
  else
    let ms := s.swapSpectrum ref
    let recs := derived.map fun x => if s.tied ref x.ch then { x with swapM := ms } else x
    let part := fun (i : Nat) =>
      let x? := recs.find? fun x => x.ch == i && x.propose
      (i, { tag := v.count, live := true, atSpec := some (if s.tied ref i then ms else (s.chan i).nextBoundary)
            vals := x?.map fun x => (x.tau, x.gRe, x.gIm), tab := x?.map fun x => x.tab : SwapReq })
    let any := fun (f : CalDeriv → Bool) => b2n (recs.any fun x => x.propose && f x)
    s.setSwap d ref { GroupSwap.empty v.count with
      ms := ms, bits := any (·.limit) + 2 * any (·.slew), parts := (s.calGroup ref).map part, recs := recs }

/-- Withdraw swaps of a group that wait: no channel swaps any more, their records show it (R355, R360), their loads end. Where channels that are not
tied to m_s have swapped already, the others carry their values into the new generation. -/
def State.withdrawSwaps (s : State) (d : Nat) (sel : GroupSwap → Bool) (frozen : Bool) : State :=
  match (s.drive d).owner with
  | none => s
  | some ref =>
    ((s.drive d).swaps.filter sel).foldl (fun s g =>
      let gen := (s.drive d).gen
      let group := s.calGroup ref
      let gen := if group.any fun i => (s.chan i).calGen != gen && !((s.chan i).swaps.any fun q => q.tag == g.tag) then nextCalGen gen else gen
      let s := s.setDrive d fun v => { v with swaps := v.swaps.filter fun x => x.tag != g.tag }
      let s := group.foldl (fun s i => s.setChan i fun c => { c with swaps := c.swaps.filter fun q => q.tag != g.tag }) (s.setGroupGen d ref gen)
      let s := g.recs.foldl (fun s x => s.calRecord x false frozen gen) s
      match g.ring with
      | some r => s.finish r.val .wrongState 0 0
      | none => s) s

/-- The reference has made its part of a swap, or makes it now. -/
def Chan.swapMade (c : Chan) (tag : Nat) : Bool :=
  (c.swaps.filter fun q => q.tag == tag).all fun q => !c.emits || c.swapDue q c.nextOut

/-- The reference has reached m_s of a group swap: CAL_SWAP, the records, the restart of accumulation, the load that waits (R339, R351, R355,
R362). -/
def State.groupSwapped (s : State) (d : Nat) : State :=
  match (s.drive d).owner with
  | none => s
  | some ref =>
    let s := if s.pair.role = .secondary then s else (s.drive d).swaps.foldl (fun s g => s.askParts d g.tag) s
    match (s.drive d).swaps.find? fun g => g.asked && (s.chan ref).swapMade g.tag with
    | none => s
    | some g =>
      let gen := nextCalGen (s.drive d).gen
      let s := (s.calGroup ref).foldl (fun s i =>
        if i = ref || !(s.chan i).emits then s.setChan i fun c => (c.swaps.filter fun q => q.tag == g.tag).foldl Chan.applySwap c else s) s
      let s := (s.setDrive d fun v => { v with gen := gen, swaps := v.swaps.filter fun x => x.tag != g.tag }).calRestart ref
      let s := s.note .calSwap (s.handleOf 2 ref) [(2, gen), (1, b2n !g.live), (1, g.bits), (8, g.ms)]
      let s := s.journal 2 0xFF 0 (s.handleOf 2 ref)
        (Config.sha384 ((s.calGroup ref).flatMap fun i => (s.chan i).cal.tab.g.flatMap fun x => le 4 x))
      let s := g.recs.foldl (fun s x => s.calRecord x true false gen) s
      let s := if g.freeze then s.setDrive d fun v => { v with frozen := true, thaw := false } else s
      match g.ring with
      | some r => s.finish r.val .ok 0 0
      | none => s

end Sys2Proof.Machine
end

