-- ==== Sys2Proof/Machine/Outputs.lean ====
section
/-! DEFINITION. The clock outputs and PLL_S_CFG: frequencies, limits, gating, their registers (R101, R113–R127). -/

namespace Sys2Proof.Machine

/-! ### Frequencies (R113, R115, R123) -/

/-- REF_FREQ in Hz. -/
def refHz : Nat → Nat
  | 0 => 5000000 | 1 => 10000000 | 2 => 25000000 | _ => 100000000

def Clk.fref (c : Clk) : Nat := refHz (bits c.cfg.toNat 31 30)
def Clk.en (c : Clk) : Bool := c.cfg.getLsbD 28
def Clk.p (c : Clk) : Nat := max 1 (bits c.cfg.toNat 27 24)
def Clk.m (c : Clk) : Nat := bits c.cfg.toNat 11 0

/-- One phase-detector period, ps. -/
def Clk.pdPs (c : Clk) : Nat := 1000000000000 * c.p / c.fref

/-- f_REF/P is at least 5 MHz and f_VCO lies in 11.2–14.4 GHz. -/
def Clk.lockable (c : Clk) : Bool :=
  decide (5000000 * c.p ≤ c.fref) && decide (11200000000 * c.p ≤ c.fref * c.m) && decide (c.fref * c.m ≤ 14400000000 * c.p)

/-- Highest output frequency of a format, Hz. -/
def formatLimit : Nat → Nat
  | 2 => 14400000000 | 0 | 3 => 3200000000 | 1 => 400000000 | _ => 250000000

def outFunc (cfg : Word) : Nat := bits cfg.toNat 30 28
def outFormat (cfg : Word) : Nat := bits cfg.toNat 27 25
def outDiv (cfg : Word) : Nat := bits cfg.toNat 9 0 + 1

/-- f_VCO/divider exceeds the format's limit. -/
def Clk.tooFast (c : Clk) (cfg : Word) : Bool := decide (formatLimit (outFormat cfg) * (c.p * outDiv cfg) < c.fref * c.m)

/-- Period of an output, ps. -/
def Clk.outPs (c : Clk) (cfg : Word) : Nat := c.p * outDiv cfg * 1000000000000 / max 1 (c.fref * c.m)

/-! ### Driving an output (R122, R123, R125, R126, R140) -/

/-- An output toggles: enabled, PLL_S locked or coasting, within its limit, a sample clock or an ungated calibration drive. SYSREF stays
low except in an epoch. -/
def State.outRuns (s : State) (n : Nat) : Bool :=
  let cfg := nth s.clk.outCfg n 0
  cfg.getLsbD 31 && (s.clk.lock || s.clk.coast) && !s.clk.tooFast cfg &&
  ((outFunc cfg == 1 && !s.hotSecondary) || (outFunc cfg == 3 && !nth s.clk.calGated n false))

/-- Bring an output to what its set-up and the clock ask for. -/
def State.refreshOut (s : State) (n : Nat) : State :=
  let cfg := nth s.clk.outCfg n 0
  let run := s.outRuns n
  let was := nth s.clk.outRun n false
  let s := { s with clk := { s.clk with
    outRun := upd s.clk.outRun n fun _ => run, overLimit := setBit s.clk.overLimit n (cfg.getLsbD 31 && s.clk.tooFast cfg) } }
  if run != was then s.emit (.clkout n run) else s

def State.refreshOuts (s : State) : State := (List.range 16).foldl (fun s n => s.refreshOut n) s

/-- Gate a calibration-drive output, or let it run (R126, R332). -/
def State.gateOut (s : State) (n : Nat) (gated : Bool) : State :=
  ({ s with clk := { s.clk with calGated := upd s.clk.calGated n fun _ => gated } }).refreshOut n

/-! ### Pins -/

/-- PAIR_OK (R679). -/
def State.pairOk (s : State) : Bool := (s.pair.role == .primary || s.pair.role == .secondary) && s.boot.ready && s.thim.wdtStage == 0

/-- Level at ball n: what its function drives, or what the board does (R377, R380, R653, R786). -/
def State.pinLevel (s : State) (n : Nat) : Bool :=
  match (nth s.pins.func n 0).toNat with
  | 1 => s.pins.gpioOut.getLsbD n
  | 3 =>
    let idle := (nth s.pins.cfg n 0).getLsbD 31
    if (nth s.pins.pulseEnd n none).isSome then !idle else idle
  | 4 => nth s.pins.calOut (n - 16) false
  | 6 => s.pairOk
  | _ => s.pins.level.getLsbD n

/-- Pins whose function drives them. -/
def Pins.drives (p : Pins) (n : Nat) : Bool := let f := (nth p.func n 0).toNat; f == 1 || (3 ≤ f && f ≤ 6)

/-! ### Registers (R101, R119–R122) -/

/-- Output that a pending epoch sends SYSREF on. -/
def epochOutput (d : Desc) : Option Nat := if bit (d.u 0x12 1) 7 then some (d.u 0x12 1 % 16) else none

/-- A command object uses an output: a pending epoch or a calibration drive (R101). -/
def State.outUsed (s : State) (n : Nat) : Bool :=
  (s.io.cmd.toList.any fun c => match c.inflight with
    | some f => f.op == .syncSchedule && f.stage == .epoch && epochOutput f.d == some n
    | none => false) ||
  s.drives.toList.any fun v => match v.gate with | some k => k.val == n | none => false

def State.outRefused (s : State) (n : Nat) : State :=
  { s with clk := { s.clk with outLocked := setBit s.clk.outLocked n true } }

/-- A write to CLKOUT_CFG[n]. -/
def State.clkoutCfg (s : State) (n : Nat) (v : Word) : State :=
  let old := nth s.clk.outCfg n 0
  let v' := v &&& 0xFFC0FFFF#32
  if outFunc v ≠ outFunc old && s.outUsed n then
    { s.outRefused n with pins := { s.pins with lockedWrite := true } }
  else if 3 < outFunc v || 4 < outFormat v || bits v.toNat 15 10 = 63 then s.badValue (0x040100 + 8 * n)
  else if old.getLsbD 31 && (outFunc v ≠ outFunc old || outFormat v ≠ outFormat old || outDiv v ≠ outDiv old) then s.outRefused n
  else ({ s with clk := { s.clk with outCfg := upd s.clk.outCfg n fun _ => v' } }).refreshOut n

/-- A write to CLKOUT_PHASE[n] (R120): COARSE is at most the divider minus one. -/
def State.clkoutPhase (s : State) (n : Nat) (v : Word) : State :=
  let c := bits v.toNat 9 0
  if outDiv (nth s.clk.outCfg n 0) ≤ c then s.badValue (0x040104 + 8 * n)
  else { s with clk := { s.clk with outPhase := upd s.clk.outPhase n fun _ => BitVec.ofNat 10 c } }

end Sys2Proof.Machine
end

