-- ==== Sys2Proof/Machine/Products.lean ====
section
/-! DEFINITION. CHAN_PRODUCTS and the product events (R304, R309–R319). -/

namespace Sys2Proof.Machine

/-- The set-up CHAN_PRODUCTS names (R318). -/
def prodOf (d : Desc) : ProdSet :=
  { mask := BitVec.ofNat 8 (d.u 0x08 2), b := d.u 0x0A 1, f := d.u 0x0C 4, bins := d.u 0x10 4, len := d.u 0x14 4
    partner := BitVec.ofNat 32 (d.u 0x18 4), skM := d.u 0x1C 4, skLo := d.u 0x20 4, skHi := d.u 0x24 4 }

/-- Product store per output bin (R294). -/
def storePerBin : Nat → Nat
  | 3 => 16 | 4 => 8 | 5 => 8 | 6 => 32 | 7 => 64 | 8 => 40 | _ => 0

def ProdSet.store (p : ProdSet) : Nat :=
  sumN ((List.range 8).map fun i => if p.mask.getLsbD i then storePerBin (i + 1) * (p.bins / 2 ^ p.b) else 0)

/-- Store of a channel's calibration accumulators (R340). -/
def Cal.store (c : Cal) : Nat := if c.on then (if c.delay && c.ref != 0 then 96 else 32) * (c.bc / 2 ^ c.b) else 0

/-- Product store claimed by the other channels, and by this one's calibration. -/
def State.storeTaken (s : State) (ch : Nat) : Nat :=
  sumN ((List.range 128).map fun i => let c := s.chan i; (if i = ch then 0 else c.pr.store) + c.cal.store)

/-- X and Y can be a pair (R309). -/
def State.pairable (s : State) (x y : Chan) : Bool :=
  let sx := s.stream x.stream
  let sy := s.stream y.stream
  sx.par.group == sy.par.group && sx.par.fs == sy.par.fs && x.fe.d == y.fe.d && x.sp.type == y.sp.type && x.sp.l == y.sp.l &&
  x.sp.h == y.sp.h && x.sp.win == y.sp.win

/-- The interval is at least the hand-off time of a payload (R304, R305). -/
def handoffOk (len h d fs bytes : Nat) : Bool := decide (fs * (16000 + bytes) ≤ len * h * d * 8000000000)

/-- A channel is X of a pair. -/
def Chan.isX (c : Chan) : Bool := c.st != .empty && c.partnerIdx.isSome

/-- Fields in range (R318, R319). -/
def prodOk (s : State) (ch : Nat) (d : Desc) : Bool :=
  let p := prodOf d
  let c := s.chan ch
  let on := fun k => p.mask.getLsbD (k - 1)
  let pair := on 6 || on 7
  let n := 2 ^ c.sp.l
  d.clean [(0x08, 3), (0x0C, 28)] && d.u 0x08 2 < 256 && (p.partner == 0 || pair) &&
  (p.mask == 0 || (p.b ≤ 8 && p.f < n && inR p.bins 1 (n - p.f) && p.bins % 2 ^ p.b == 0 &&
    (!(on 1 || on 8) || p.b == 0) &&
    (!([3, 4, 5, 6, 7].any on) || inR p.len 1 (2 ^ 24)) &&
    (!on 8 || (isPow2' p.skM && inR p.skM 64 65536 && p.skLo ≤ p.skHi)) &&
    (!pair || (p.partner != 0 && hIdx p.partner != ch && s.pairable c (s.chan (hIdx p.partner)))) &&
    [3, 4, 5, 6, 7].all fun k => !on k || handoffOk p.len c.sp.h c.fe.d (s.stream c.stream).par.fs (32 + p.bins / 2 ^ p.b * codeBytes k)))
where
  isPow2' (v : Nat) : Bool := v != 0 && 2 ^ Nat.log2 v == v

/-- Accumulators of a channel with no open interval. -/
def Chan.clearProducts (c : Chan) : Chan :=
  { c with integ := none, maxHold := none, minHold := none, cross := none, stokes := none, sk := none, power := none
           ivals := [], bankErr := [], pairWait := [], skRes := [] }

/-- CHAN_PRODUCTS (R318, R319). -/
def chanProductsBody (d : Desc) (s : State) : Verdict :=
  let ch := hIdx d.handle
  let c := s.chan ch
  let p := prodOf d
  let pairs := ((List.range 128).filter fun i => i != ch && (s.chan i).isX).length
  let pair := p.mask.getLsbD 5 || p.mask.getLsbD 6
  if c.st ≠ .stopped then fail .notStopped d s
  else if d.u 0x08 2 ≠ 0 && c.sp.type = 0 then fail .wrongState d s
  else if p.partner ≠ 0 && !s.valid 2 p.partner then fail .badHandle d s
  else if !prodOk s ch d then fail .badParam d s
  else if p.mask = 0 then .done .ok 0 0 d.handle (s.setChan ch fun c => { c.clearProducts with pr := .off })
  else if 2 ^ 26 < p.store + s.storeTaken ch || (pair && 64 ≤ pairs) then fail .noCapacity d s
  else .done .ok (min 65535 (ceilDiv p.store 1024)) (p.bins / 2 ^ p.b) d.handle (s.setChan ch fun c => { c.clearProducts with pr := p })

/-- Bins of full banks that cannot be corrected, each with its product code (R316). -/
def State.addBankErr (s : State) (ch : Nat) (lost : List (Nat × Nat)) : State :=
  s.setChan ch fun c => { c with bankErr := c.bankErr ++ lost }

/-- INTERVAL_BOUNDARY (R304): the intervals that have ended are handed over. `lost` are output bins that the read of their product's bank finds
in error (R316); those of a bank that is not due meet its next read. -/
def execIntervalBoundary (ch : Fin 128) (lost : List (Nat × Nat)) (s : State) : Host.Outcome State Fault Refusal :=
  .next ((s.addBankErr ch.val lost).closeDue ch.val (s.chan ch.val).nextSpec)

/-- PAIR_PARTNER_TIMEOUT (R310, R338): the spectrum that has waited longest is not added, neither to the pair products nor to a calibration's
cross-power. -/
def execPairPartnerTimeout (ch : Fin 128) (s : State) : Host.Outcome State Fault Refusal :=
  .next (s.setChan ch.val fun c =>
    let m := ((c.pairWait.head?.map (·.2.m)).toList ++ (c.cal.wait.head?.map (·.2.2.m)).toList).foldl
      (fun (b : Option Nat) x => some ((b.getD x).min x)) none
    let late := fun (x : Spectrum) => decide (some x.m = m)
    { c with
      pairWait := if c.pairWait.head?.any fun w => late w.2 then c.pairWait.drop 1 else c.pairWait
      cal := { c.cal with wait := if c.cal.wait.head?.any fun w => late w.2.2 then c.cal.wait.drop 1 else c.cal.wait } })

/-- SK_BLOCK_END (R313): a block whose spectra have all been emitted. -/
def execSkBlockEnd (ch : Fin 128) (lost : List Nat) (s : State) : Host.Outcome State Fault Refusal :=
  .next (if (s.chan ch.val).sk.any fun a => a.over (s.chan ch.val).nextSpec then
    (s.addBankErr ch.val (lost.map fun b => (8, b))).closeSk ch.val 0 else s)

end Sys2Proof.Machine
end

