-- ==== Sys2Proof/Machine/Calibration.lean ====
section
/-! DEFINITION. CAL_SET, CAL_TABLE_LOAD, CAL_FREEZE and the calibration events (R331–R362). -/

namespace Sys2Proof.Machine

/-! ### Drive outputs (R331–R333) -/

/-- Put a drive's source on or off: its pin, its gated clock output. -/
def State.driveSource (s : State) (d : Nat) (on : Bool) : State :=
  let v := s.drive d
  let s := s.setDrive d fun v => { v with on := on }
  let s := if v.usePin then
      ({ s with pins := { s.pins with calOut := upd s.pins.calOut d fun _ => on && !s.hotSecondary } }).emit (.pin (16 + d) (on && !s.hotSecondary)) else s
  match v.gate with
  | some n => s.gateOut n.val !on
  | none => s

/-- A drive's outputs are let go: the source goes off, a gated output runs freely again (R126). -/
def State.freeOutputs (s : State) (d : Nat) : State :=
  let s := if (s.drive d).on then s.driveSource d false else s
  match (s.drive d).gate with
  | some n => s.gateOut n.val false
  | none => s

/-- Release a drive. Commands that wait for its period or its swap end (log entry 84). -/
def State.freeDrive (s : State) (d : Nat) : State :=
  let s := s.withdrawSwaps d (fun _ => true) false
  let s := match (s.drive d).owner with
    | some ref => (s.calWaiting .calFreeze ref).foldl (fun (s : State) r => s.finish r .wrongState 0 0) s
    | none => s
  (s.freeOutputs d).setDrive d fun _ => .reset

/-- What waits for a channel that leaves its group, or joins one anew: its part in swaps and their records. -/
def State.dropParts (s : State) (ch : Nat) : State :=
  let cut := fun (g : GroupSwap) => { g with parts := g.parts.filter fun p => p.1 != ch, recs := g.recs.filter fun r => r.ch != ch }
  let s := { s with drives := s.drives.map fun v : Drive => { v with swaps := v.swaps.map cut } }
  s.setChan ch fun c => { c with swaps := [] }

/-- Take a channel out of its group: drive, region and store are released, τ and G stay (R359). -/
def State.calLeave (s : State) (ch : Nat) : State :=
  let s := match s.driveOf ch with
    | some d => s.freeDrive d
    | none => s
  ((s.dropParts ch).setChan ch fun c => { c with cal := .off }).dropWriter (.calTab ch)

/-! ### CAL_SET (R356–R359) -/

/-- The set-up CAL_SET names. -/
def calOf (d : Desc) : Cal :=
  { Cal.off with
    on := true, gain := dBit d 0x08 1, delay := dBit d 0x08 2, pol := polOf d, ref := d.u 0x0C 4
    pathNs := dInt d 0x14 4, guardUs := d.u 0x18 2, cycles := d.u 0x1A 2, fc := d.u 0x1C 4, bc := d.u 0x20 4, b := d.u 0x24 1
    region := BitVec.ofNat 32 (d.u 0x34 4) }

/-- The reserved bytes and bits of CAL_SET are zero, whatever its flags select (R16, R801). -/
def calClean (d : Desc) : Bool :=
  d.clean [(0x08, 0x25), (0x2E, 0x0A)] && d.u 0x08 1 < 16 && bits (d.u 0x0B 1) 5 4 == 0

/-- Ranges of the fields that POLICY_ONLY takes. -/
def policyOk (d : Desc) : Bool :=
  calClean d && d.u 0x09 1 ≤ 2 && 4 ≤ d.u 0x13 1 && 1 ≤ d.u 0x25 1 && inR (d.u 0x2C 1) 1 64

/-- R354. -/
def subtractOk (c : Chan) (policy f bc b : Nat) : Bool := policy != 1 || (c.pr.f == f && c.pr.bins == bc && c.pr.b == b)

/-- R336 for a channel under a drive of n cycles a second and duty r. -/
def onTimeOk (s : State) (c : Chan) (guard n r : Nat) : Bool :=
  let w := c.sp.span
  decide (((w + c.sp.h - 1) * n * 2 ^ r * 1000000 * c.fe.d : Nat) ≤
    ((1000000 : Int) - (guard * n * 2 ^ r : Nat)) * (s.stream c.stream).par.fs)

/-- Slot bytes of a table record without comb lines. -/
def calSlot (bc b : Nat) : Nat := slotBytes (64 + 16 * (bc / 2 ^ b))

/-- Fields in range, for a channel that joins or re-joins a group. -/
def calOk (s : State) (ch : Nat) (d : Desc) : Bool :=
  let c := s.chan ch
  let k := calOf d
  let isRef := k.ref == 0
  let ref := k.refOf ch
  let n := if isRef then d.u 0x10 2 else ((s.driveOf ref).map fun x => (s.drive x).n).getD 0
  let r := if isRef then d.u 0x12 1 else ((s.driveOf ref).map fun x => (s.drive x).r).getD 0
  policyOk d && 1 ≤ k.cycles && k.b ≤ 10 && 1 ≤ k.bc && k.bc % 2 ^ k.b == 0 && k.fc + k.bc ≤ 2 ^ c.sp.l &&
  k.bc / 2 ^ k.b ≤ 4096 &&
  (if isRef then d.u 0x0A 1 ≤ 3 && inR n 1 1000 && inR r 1 8 && !k.delay
   else d.u 0x0A 2 == 0 && d.u 0x10 2 == 0 && d.u 0x12 1 == 0 && (!k.delay || s.pairable (s.chan ref) c)) &&
  onTimeOk s c k.guardUs n r &&
  (!isRef || (s.calGroup ch).all fun i => i == ch || onTimeOk s (s.chan i) (s.chan i).cal.guardUs n r) &&
  subtractOk c k.pol.policy k.fc k.bc k.b && calSlot k.bc k.b ≤ (s.region (hIdx k.region)).bytes / 2

/-- The set restored at start-up for a channel of a new group takes Δ_T and T's bins from the store (R735). -/
def State.calRestored (s : State) (ch : Nat) (k : Cal) : Cal :=
  let ref := s.chan (k.refOf ch)
  match s.boot.calSets.find? fun x : StoredCal =>
    x.stream == ref.stream && x.own == (s.chan ch).stream && x.l == (s.chan ch).sp.l && x.fc == k.fc && x.bc == k.bc && x.b == k.b with
  | some x => { k with t := x.t, target := x.target, targetE := x.targetE }
  | none => k

/-- The drive of a reference as CAL_SET sets it. A group that goes on keeps its generation, its freeze and what it derives (log entry 84). -/
def State.setUpDrive (s : State) (ch : Nat) (d : Desc) : State :=
  let dn := d.u 0x0A 1
  let out := d.u 0x0B 1
  let old := if s.driveOf ch = some dn then s.drive dn else .reset
  let s := if (s.drive dn).owner.isSome then s.freeOutputs dn else s
  let s := s.setDrive dn fun _ => { old with
    owner := some ch, usePin := bit out 7, gate := if bit out 6 then some (Fin.ofNat 16 out) else none, on := false
    n := d.u 0x10 2, r := d.u 0x12 1, cycle := cycleNo (d.u 0x10 2) s.time.tb }
  if bit out 6 then s.gateOut (out % 16) true else s

/-- CAL_SET. -/
def calSetBody (d : Desc) (s : State) : Verdict :=
  let ch := hIdx d.handle
  let c := s.chan ch
  let k := calOf d
  let isRef := k.ref = 0
  let refH := BitVec.ofNat 32 k.ref
  let members := ((s.calGroup ch).filter (· != ch)).length
  let dn := d.u 0x0A 1
  let out := d.u 0x0B 1
  let cfg := (nth s.clk.outCfg (out % 16) 0).toNat
  if dBit d 0x08 3 then
    if !c.cal.on then fail .wrongState d s
    else if !policyOk d || !subtractOk c (d.u 0x09 1) c.cal.fc c.cal.bc c.cal.b then fail .badParam d s
    else .done .ok 0 0 d.handle (s.setChan ch fun c => { c with cal := { c.cal with newPolicy := some (polOf d) } })
  else if c.st ≠ .stopped then fail .notStopped d s
  else if !dBit d 0x08 0 then
    if !calClean d then fail .badParam d s
    else if c.cal.on && c.cal.ref = 0 && 0 < members then fail .resourceBusy d s
    else .done .ok 0 0 d.handle (s.calLeave ch)
  else if c.sp.type = 0 || (k.delay && c.fe.fdl = 0) || (!isRef && s.valid 2 refH && (s.driveOf (hIdx refH)).isNone) then fail .wrongState d s
  else if (!isRef && !s.valid 2 refH) || !s.valid 3 k.region then fail .badHandle d s
  else if !calOk s ch d then fail .badParam d s
  else if (bit out 7 && nth s.pins.func (16 + dn) 0 != 4) || (bit out 6 && bits cfg 30 28 != 3) then fail .pinNotAssigned d s
  else if (isRef && ((s.drive dn).owner.any (· != ch))) || s.writerBusy (hIdx k.region) (.calTab ch) || (!isRef && 0 < members) then
    fail .resourceBusy d s
  else if 2 ^ 26 < s.storeTaken ch - c.cal.store + k.store + c.pr.store || (!isRef && !(s.calGroup (hIdx refH)).contains ch && 16 ≤ (s.calGroup (hIdx refH)).length) then
    fail .noCapacity d s
  else
    let s := match s.driveOf ch with
      | some x => if isRef && x = dn then s else s.freeDrive x
      | none => s
    let s := ((s.dropParts ch).dropWriter (.calTab ch)).setWriter (hIdx k.region) (.calTab ch)
    let s := if isRef then s.setUpDrive ch d else s
    let gen := ((s.driveOf (k.refOf ch)).map fun x => (s.drive x).gen).getD 0
    let s := s.setChan ch fun c => { c with calGen := gen, cal := if c.cal.on then k else s.calRestored ch k }
    .done .ok 0 0 d.handle (s.calRestart (k.refOf ch))

/-! ### CAL_FREEZE (R360) -/

/-- Drive of a channel's group. -/
def State.calDrive (s : State) (ch : Nat) : Option Nat :=
  let k := (s.chan ch).cal
  if k.on then s.driveOf (k.refOf ch) else none

def calFreezeBody (d : Desc) (s : State) : Verdict :=
  let ch := hIdx d.handle
  if !d.clean [(0x08, 1)] || 1 < d.u 0x08 1 then fail .badParam d s
  else match s.calDrive ch with
  | none => fail .wrongState d s
  | some x =>
    if dBit d 0x08 0 then 
      .done .ok 0 0 d.handle ((s.withdrawSwaps x (fun _ => true) true).setDrive x fun v => { v with frozen := true, thaw := false })
    else if !(s.drive x).frozen || (s.drive x).period.isNone then
      .done .ok 0 0 d.handle (s.setDrive x fun v => { v with frozen := false, thaw := false })
    else .wait .point d.handle (s.setDrive x fun v => { v with thaw := true })

/-! ### CAL_TABLE_LOAD (R361, R362) -/

def calTableLoadBody (d : Desc) (s : State) : Verdict :=
  let c := s.chan (hIdx d.handle)
  let n := c.cal.bc / 2 ^ c.cal.b
  let len := d.u 0x10 4
  if !c.cal.on then fail .wrongState d s
  else if !d.clean [(0x08, 13), (0x18, 8)] || 7 < d.u 0x14 1 || len ≠ 32 + 8 * n || !addrOk (d.u 0x08 8) len 4 then fail .badParam d s
  else readBuffer d (d.u 0x08 8) len s

/-- The data of CAL_TABLE_LOAD has come. -/
def calTableData (d : Desc) (buf : List Byte) (s : State) : Verdict :=
  let ch := hIdx d.handle
  let c := s.chan ch
  let n := c.cal.bc / 2 ^ c.cal.b
  let ok18 := fun v => inZ (sx 32 v) (-131072) 131071
  let gr := num buf 0 4
  let gi := num buf 4 4
  let at? := bit (d.u 0x14 1) 2
  let m := d.u 0x18 8
  let load := fun (s : State) => s.setChan ch fun c => { c with cal := { c.cal with
    t := (List.range n).map fun i => num buf (32 + 4 * n + 4 * i) 4
    combN := num buf 0x0A 2, combP0 := num buf 0x0C 4, combDp := num buf 0x10 4
    target := num buf 0x14 4, targetE := num buf 0x18 1 } }
  if !ok18 gr || !ok18 gi || 256 < num buf 0x0A 2 || num buf 0x19 7 ≠ 0 then fail .badParam d s
  else match s.calDrive ch with
  | none => fail .wrongState d s
  | some x =>
    let ref := c.cal.refOf ch
    let group := s.calGroup ref
    let freeze := bit (d.u 0x14 1) 1
    if !bit (d.u 0x14 1) 0 then
      let s := load s
      .done .ok 0 0 d.handle
        (if freeze then (s.withdrawSwaps x (fun _ => true) true).setDrive x fun v => { v with frozen := true, thaw := false } else s)
    else if at? && (group.any fun i => (s.chan i).emits && decide (m < (s.chan i).nextBoundary)) then fail .badParam d s
    else
      let ms := if at? then m else s.swapSpectrum ref
      let s := (load s).withdrawSwaps x (fun g => g.live && g.ms == ms) false
      let tag := (s.drive x).count
      let tab : CalTab := { c.cal.tab with g := (List.range n).map fun i => num buf (32 + 4 * i) 4 }
      let part := fun (i : Nat) =>
        (i, { tag := tag, live := false, atSpec := if at? || s.tied ref i then some ms else some (s.chan i).nextBoundary
              vals := if i = ch then some (num buf 8 2, sx 32 gr, sx 32 gi) else none, tab := if i = ch then some tab else none : SwapReq })
      .wait .point d.handle (s.setSwap x ref { GroupSwap.empty tag with
        live := false, ms := ms, ring := some d.ring, freeze := freeze, parts := group.map part })

/-! ### Events -/

/-- CAL_ON_START (R332): the next cycle of the schedule begins while PLL_S is locked or coasts; a period due at a cycle start begins. -/
def execCalOnStart (drive : Fin 4) (s : State) : Host.Outcome State Fault Refusal :=
  let d := drive.val
  let v := s.drive d
  .next (
    if v.owner.isNone || v.on || !s.pllOk then s
    else
      let k := max (v.cycle + 1) (ceilDiv (s.time.tb * v.n) unitS)
      let s := s.untilTb (cycleStart v.n k)
      let s := (s.setDrive d fun v => { v with cycle := k }).driveSource d true
      if v.period.isNone then s.periodStart d k else s)

/-- CAL_ON_END (R332): the on-time, (1/n)/2^r from the cycle's start, is over. -/
def execCalOnEnd (drive : Fin 4) (s : State) : Host.Outcome State Fault Refusal :=
  let d := drive.val
  let v := s.drive d
  .next (
    if !v.on then s
    else (s.untilTb (cycleStart v.n v.cycle + unitS / (max 1 v.n * 2 ^ v.r))).driveSource d false)

/-- CAL_PERIOD_END (R339, R340): A cycles are over; the accumulators change buffers and the derivation starts. -/
def execCalPeriodEnd (drive : Fin 4) (s : State) : Host.Outcome State Fault Refusal :=
  let d := drive.val
  let v := s.drive d
  .next (
    match v.owner, v.period with
    | some ref, some k =>
      if v.old.isSome then s
      else
        let e := k + (s.chan ref).cal.cycles
        let s := s.untilTb (cycleStart v.n e)
        let s := (s.calGroup ref).foldl (fun s i => s.setChan i fun c =>
          { c with cal := { c.cal with prev := some (c.cal.cur, c.cal.pol), cur := .zero } }) s
        (s.setDrive d fun v => { v with old := some k, oldFrozen := v.frozen }).periodStart d e
    | _, _ => s)

/-- CAL_DERIVATION_DONE (R350): the tables of the channels that the period has seen are derived, the group's swap is set for its boundary. -/
def execCalDerivationDone (drive : Fin 4) (s : State) : Host.Outcome State Fault Refusal :=
  let d := drive.val
  let v := s.drive d
  .next (
    match v.owner, v.old with
    | some ref, some k =>
      let derived := (s.calGroup ref).filterMap fun i => (s.chan i).cal.prev.map fun p => s.calDerive i p.1 p.2
      let s := (s.calGroup ref).foldl (fun s i => s.setChan i fun c =>
        { c with cal := { c.cal with prev := none, wait := c.cal.wait.filter fun w => w.2.1 != k } }) s
      (s.swapDerived d ref derived).setDrive d fun v => { v with old := none }
    | _, _ => s)

/-- CAL_SWAP (R350, R351): the reference reaches the swap spectrum. -/
def execCalSwap (drive : Fin 4) (s : State) : Host.Outcome State Fault Refusal := .next (s.groupSwapped drive.val)

/-- SWAP_BOUNDARY (R240): the channel's next output is a swap boundary; a pending swap takes effect. -/
def execSwapBoundary (ch : Fin 128) (s : State) : Host.Outcome State Fault Refusal :=
  .next (s.setChan ch.val fun c => c.applyDue c.nextOut)

end Sys2Proof.Machine
end

