-- ==== Sys2Proof/Machine/Density.lean ====
section
/-! DEFINITION. Density planes (R320–R329). -/

namespace Sys2Proof.Machine

def State.plane (s : State) (p : Nat) : Plane := nth s.planes p .reset
def State.setPlane (s : State) (p : Nat) (f : Plane → Plane) : State := { s with planes := upd s.planes p f }

def Plane.cols (p : Plane) : Nat := p.bd / 2 ^ p.c

/-- λ of a power with its exponent (R322, R373); a power of 0 reads −32,768. -/
def lambda (pw : Int) (e2 : Nat) : Int :=
  if pw ≤ 0 then -32768
  else
    let p := Nat.log2 pw.toNat
    16 * ((p + e2 : Nat) : Int) + (pw.toNat * 16 / 2 ^ p : Nat) - 16

/-- Row of a bin (R322). -/
def Plane.row (p : Plane) (pw : Int) (e2 : Nat) : Nat :=
  if pw = 0 then 0 else (max 0 (min 255 (asr (lambda pw e2 - p.loff) p.sl))).toNat

/-- Add one to a cell; counts saturate at 2^32 − 1 (R320). -/
def incCell : List (Nat × Nat) → Nat → List (Nat × Nat)
  | [], k => [(k, 1)]
  | (a, n) :: r, k => if k < a then (k, 1) :: (a, n) :: r else if k = a then (a, min (n + 1) (2 ^ 32 - 1)) :: r else (a, n) :: incCell r k

/-- Cell number of column x, row y. -/
def cellNo (x y : Nat) : Nat := 256 * x + y

/-- A counted spectrum's bins (R321). -/
def Plane.count (p : Plane) (x : Spectrum) : List (Nat × Nat) :=
  ((x.window p.fd p.bd).mapIdx fun i z => cellNo (i / 2 ^ p.c) (p.row (power z) (2 * x.e))).foldl incCell p.cells

/-- The decay of R323. -/
def decayCells (s : Nat) (l : List (Nat × Nat)) : List (Nat × Nat) :=
  if s = 0 then l else (l.map fun c => (c.1, c.2 * (2 ^ s - 1) / 2 ^ s)).filter fun c => c.2 != 0

/-- The plane, or before its first binding is in force what it will be. -/
def State.planeView (s : State) (p : Nat) : Plane :=
  let x := s.plane p
  (x.chan.bind x.bound).getD x

/-- Slot of a snapshot: the one after the last, else the other, when free (R327). -/
def State.planeSlot (s : State) (p : Nat) (len : Nat) : Option Nat :=
  let x := s.planeView p
  let r := s.region (hIdx x.region)
  let ok := fun k => r.roomAt (k * (r.bytes / 2)) len
  let k := b2n x.slot
  if ok k then some k else if ok (1 - k) then some (1 - k) else none

/-- Payload of a density-frame record (R329); `zeroed` cells read as zero. -/
def Plane.payload (x : Plane) (zeroed : List Nat) : List Byte :=
  let cells := x.cells.filter fun c => !zeroed.contains c.1
  let satd := (cells.filter fun c => c.2 == 2 ^ 32 - 1).length
  let rec fill : (n k : Nat) → List (Nat × Nat) → List (Nat × Nat)
    | 0, _, _ => []
    | n + 1, k, [] => (4, 0) :: fill n (k + 1) []
    | n + 1, k, (a, v) :: r => if a = k then (4, v) :: fill n (k + 1) r else (4, 0) :: fill n (k + 1) ((a, v) :: r)
  pack ([(8, x.lastM), (4, x.f), (4, x.counted), (4, x.excluded), (4, satd), (2, x.cols), (1, x.s), (1, x.sl), (4, x.skipped)] ++
    fill (256 * x.cols) 0 cells)

/-- Take a snapshot: its slot, or none when it is skipped and counted (R327, R328). -/
def State.snapshot (s : State) (p : Nat) (extra : Flags) (zeroed : List Nat) : State × Option Nat :=
  let x := s.planeView p
  let payload := x.payload zeroed
  match x.chan, s.planeSlot p (slotBytes payload.length) with
  | some ch, some k =>
    let c := s.chan ch
    let first := x.lastM / max 1 x.f * x.f
    let idx := first * c.sp.h * c.fe.d
    let sm := s.stream c.stream
    let r := s.region (hIdx x.region)
    let h := { Hdr.plain (s.handleOf 2 ch) 8 1 (sm.timeOf idx / unitF) with
      idx := idx, flags := x.flags ||| extra ||| s.suspectFlag c.stream ||| fIf (!zeroed.isEmpty) fPoison, cgen := x.cgen, fgen := c.fgen
      journal := x.jidx, log2d := Nat.log2 (max 1 c.fe.d), hop := c.sp.h, nco := x.nco, fs := sm.par.fs }
    ((s.putRecord (hIdx x.region) (k * (r.bytes / 2)) true h payload).setPlane p fun x => { x with slot := k == 0, skipped := 0 }, some k)
  | _, _ => (s.setPlane p fun x => { x with skipped := x.skipped + 1 }, none)

/-- The waiting DENS_SNAPSHOTs complete: with the slot and the last spectrum counted, or RESOURCE_BUSY when no slot was free. -/
def State.snapDone (s : State) (p : Nat) (slot : Option Nat) (last : Nat) : State :=
  let w := (s.plane p).snaps
  w.foldl (fun s r => match slot with
    | some k => s.finish r.1.val .ok k last
    | none => s.finish r.1.val .resourceBusy 0 0) (s.setPlane p fun x => { x with snaps := [] })

/-- DENSITY conditions of a plane at a frame boundary, before decay (R364, R374). -/
def State.densConditions (s : State) (p : Nat) : State :=
  let x := s.plane p
  match x.chan with
  | none => s
  | some ch =>
    let c := s.chan ch
    if !c.emits then s
    else (List.range 4).foldl (fun s l =>
      let k := nth c.cond l .off
      if k.type = 4 && k.s1 % 8 = p then
        let u := k.u1.toNat
        let inRect := x.cells.filter fun e =>
          inR (e.1 / 256) (bits u 11 0) (bits u 27 16) && inR (e.1 % 256) (bits u 39 32) (bits u 47 40)
        let need := bits k.u2.toNat 55 0
        let t := if bit k.s1 7 then decide (need ≤ sumN (inRect.map (·.2)) % 2 ^ 56)
          else need == 0 || inRect.any fun e => decide (need ≤ e.2)
        s.evalCond ch l (x.lastM * c.sp.h * c.fe.d) (some (t, !t))
      else s) s

/-- Region indices that a plane holds: its own, that of parameters that wait for the boundary, and those of the DENS_SETs that wait for power on
rings other than r. -/
def State.planeRegions (s : State) (p r : Nat) : List Nat :=
  let x := s.plane p
  let waiting := s.ringsWaiting fun f => f.stage == .power && f.op == .densSet && f.d.u 0x08 1 == p && f.d.ring.val != r
  (if x.f = 0 then [] else [hIdx x.region]) ++ (x.next.toList.map fun n => hIdx (planeOf n.1 n.2 0 0).region) ++
    waiting.filterMap fun r => (s.cmdRing r).inflight.map fun f => hIdx (planeOf f.d.params 0 0 0).region

/-- The regions a plane holds are the ones it writes. -/
def State.syncPlane (s : State) (p r : Nat) : State :=
  (s.planeRegions p r).foldl (fun s i => s.setWriter i (.density p)) (s.dropWriter (.density p))

/-- At a frame boundary the binding or the parameters that wait take effect, with the plane zeroed; a region that they replace is released
(R326). -/
def State.rebind (s : State) (p : Nat) : State :=
  let x := s.plane p
  match x.next with
  | none => s
  | some (d, ch) =>
    let y := { planeOf d ch x.grant (b2n x.slot) with skipped := x.skipped, snaps := x.snaps }
    (s.setPlane p fun _ => y).syncPlane p 16

/-- A frame boundary (R323): conditions, snapshot, decay or clear, new parameters. -/
def State.frameBoundary (s : State) (p : Nat) (extra : Flags) (zeroed : List Nat) : State :=
  let x := s.plane p
  let s := s.densConditions p
  let due := !x.snaps.isEmpty || (x.period != 0 && (x.frames + 1) % x.period = 0)
  let clear := x.snaps.any (·.2)
  let s := if due then
      let (s, k) := s.snapshot p extra zeroed
      s.snapDone p k x.lastCounted
    else s
  let s := s.setPlane p fun y => { y with
    cells := if clear then [] else decayCells y.s y.cells, counted := 0, excluded := 0, frame := none, flags := 0, frames := y.frames + 1 }
  s.rebind p

/-- The plane's frame has ended, next being the channel's next spectrum, and its boundary has not been taken. -/
def Plane.atBoundary (x : Plane) (next : Nat) : Bool := x.frame.any fun k => next / max 1 x.f != k

/-- What waits for a boundary takes effect before spectrum m: a first binding at a boundary of its own frames, other parameters where the frame
before has already ended. -/
def State.startPlane (s : State) (p m : Nat) : State :=
  let x := s.plane p
  match x.next with
  | some (d, ch) =>
    let f := if x.f = 0 then (planeOf d ch 0 0).f else x.f
    if x.frame.isNone && m % max 1 f = 0 then s.rebind p else s
  | none => s

/-- Spectrum m of a channel, emitted or not, has its turn on the channel's planes: frame boundaries before it, the frame it opens (R323). -/
def State.densTurn (s : State) (ch m : Nat) : State :=
  (List.range 8).foldl (fun s p =>
    if (s.plane p).chan != some ch then s
    else
      let s := if (s.plane p).atBoundary m then s.frameBoundary p 0 [] else s
      let s := s.startPlane p m
      s.setPlane p fun x => if x.f = 0 then x else { x with frame := some (m / max 1 x.f), lastM := m }) s

/-- A plane counts a spectrum (R321). -/
def Plane.countIn (x : Plane) (sp : Spectrum) : Plane :=
  { x with
    cells := x.count sp, counted := x.counted + 1, lastCounted := sp.m, flags := x.flags ||| sp.flags, cgen := sp.cgen
    nco := if x.counted = 0 then sp.nco else x.nco, jidx := if x.counted = 0 then sp.jidx else x.jidx }

/-- Planes of a channel take a spectrum (R321, R324). -/
def State.densities (s : State) (ch : Nat) (sp : Spectrum) : State :=
  (List.range 8).foldl (fun s p =>
    s.setPlane p fun x =>
      if x.chan != some ch || x.f = 0 then x
      else if Flags.has sp.flags (fFill ||| fPoison) || (Flags.has sp.flags fCalOn && !x.incCal) then { x with excluded := x.excluded + 1 }
      else x.countIn sp) s

/-- The channel leaves RUNNING: the snapshots that wait are taken at once as one, TRUNCATED (R328). -/
def State.densLeave (s : State) (ch : Nat) : State :=
  (List.range 8).foldl (fun s p =>
    let x := s.plane p
    if x.chan = some ch && !x.snaps.isEmpty then
      let (s, k) := s.snapshot p fTruncated []
      s.snapDone p k x.lastCounted
    else s) s

/-- An epoch ends the open frame at once and numbers frames from 0 (R323). -/
def State.densEpoch (s : State) (ch : Nat) : State :=
  (List.range 8).foldl (fun s p =>
    let x := s.plane p
    if x.chan = some ch && 0 < x.f then (s.frameBoundary p 0 []).setPlane p fun y => { y with frames := 0 } else s) s

/-- Release a plane, its region and its grant. -/
def State.dropPlane (s : State) (p : Nat) : State :=
  ((s.snapDone p none 0).setPlane p fun _ => .reset).dropWriter (.density p)

/-- A DENS_SET leaves the queue without its grant: a plane that no other holds is free again (R72). -/
def State.undoPlane (s : State) (d : Desc) : State :=
  let p := d.u 0x08 1
  if (s.plane p).grant = 0 && (s.planeRegions p d.ring.val).isEmpty then s.dropPlane p else s.syncPlane p d.ring.val

/-- Release a plane; a DENS_SET that still waits for its power is withdrawn with a status (R95, log entry 82). -/
def State.freePlane (s : State) (p : Nat) (st : Status) : State :=
  (s.withdrawNeed (.plane p) st fun f => f.op == .densSet && f.d.u 0x08 1 == p).dropPlane p

/-! ### DENS_SET and DENS_SNAPSHOT (R325–R328) -/

/-- Fields in range (R325, R326). Without ENABLE only the plane and the flags are used. -/
def densOk (s : State) (ch : Nat) (d : Desc) : Bool :=
  let c := s.chan ch
  let x := planeOf d.params ch 0 0
  d.clean [(0x08, 21), (0x20, 6)] && d.u 0x08 1 ≤ 7 && d.u 0x09 1 ≤ 3 &&
  (!dBit d 0x09 0 || (x.c ≤ 10 && x.sl ≤ 4 && x.s ≤ 15 && inR x.f 1 (2 ^ 20) && 1 ≤ x.bd && x.bd % 2 ^ x.c == 0 && x.cols ≤ 4096 &&
    x.fd + x.bd ≤ 2 ^ c.sp.l && slotBytes (32 + 1024 * x.cols) ≤ (s.region (hIdx x.region)).bytes / 2))

/-- With its grant a plane's binding, or its new parameters, wait for the frame boundary (R326). A region that parameters not yet in force had
claimed goes back. -/
def densSetGrant (d : Desc) (s : State) : Verdict :=
  let p := d.u 0x08 1
  .done .ok 0 0 d.handle ((s.setPlane p fun x => { x with next := some (d.params, hIdx d.handle) }).syncPlane p d.ring.val)

/-- DENS_SET. The plane and the region are claimed at acceptance; nothing counts before the grant (R45). -/
def densSetBody (d : Desc) (s : State) : Verdict :=
  let ch := hIdx d.handle
  let c := s.chan ch
  let p := d.u 0x08 1
  let x := s.plane p
  let rh := BitVec.ofNat 32 (d.u 0x20 4)
  let y := planeOf d.params ch 0 0
  if !dBit d 0x09 0 then
    if !densOk s ch d then fail .badParam d s
    else if x.chan ≠ some ch then fail .wrongState d s
    else .done .ok 0 0 d.handle (s.freePlane p .wrongState)
  else if c.st = .draining || c.sp.type = 0 then fail .wrongState d s
  else if !s.valid 3 rh then fail .badHandle d s
  else if !densOk s ch d then fail .badParam d s
  else if (x.chan.isSome && x.chan ≠ some ch) || s.writerBusy (hIdx rh) (.density p) then fail .resourceBusy d s
  else if 4000000000 * c.sp.h * c.fe.d < y.bd * (s.stream c.stream).par.fs then fail .noCapacity d s
  else
    let s := (s.setWriter (hIdx rh) (.density p)).setPlane p fun x => { x with chan := some ch }
    if x.grant ≠ 0 then densSetGrant d s else .need (.plane p) 1 550 d.handle s (densSetGrant d)

/-- DENS_SNAPSHOT. A plane counts as bound once its DENS_SET has its grant (log entry 82). -/
def densSnapshotBody (d : Desc) (s : State) : Verdict :=
  let ch := hIdx d.handle
  let p := d.u 0x08 1
  let x := s.planeView p
  if !d.clean [(0x08, 2)] || 7 < p || 1 < d.u 0x09 1 then fail .badParam d s
  else if ((s.plane p).bound ch).isNone || (s.chan ch).st ≠ .running then fail .wrongState d s
  else if (s.planeSlot p (slotBytes (32 + 1024 * x.cols))).isNone then fail .resourceBusy d s
  else .wait .point d.handle (s.setPlane p fun x => { x with snaps := x.snaps ++ [(d.ring, dBit d 0x09 0)] })

/-- DENSITY_FRAME_BOUNDARY (R323); `lost` are cells read as zero. -/
def execDensityFrameBoundary (plane : Fin 8) (lost : List Nat) (s : State) : Host.Outcome State Fault Refusal :=
  let x := s.plane plane.val
  let next := (x.chan.map fun ch => (s.chan ch).nextSpec).getD 0
  .next (if x.atBoundary next then (s.sramFaults 0x13 plane.val lost).frameBoundary plane.val 0 lost else s)

end Sys2Proof.Machine
end

