-- ==== Sys2Proof/Machine/Sweep.lean ====
section
/-! DEFINITION. Sweep search units (R410–R437). -/

namespace Sys2Proof.Machine

def State.sweep (s : State) (u : Nat) : Sweep := nth s.sweeps u .reset
def State.setSweep (s : State) (u : Nat) (f : Sweep → Sweep) : State := { s with sweeps := upd s.sweeps u f }

/-! ### Tracks (R418–R420) -/

/-- Frequency of row r: f_RF ± its centre bin's offset, exact (R418). -/
def rowFreq (frf fw b r n fs d : Nat) (invert : Bool) : Rat :=
  let off : Int := 2 * fw + 2 * (r * 2 ^ b) + 2 ^ b - 1 - n
  frf + (if invert then -1 else 1) * ((off : Rat) * fs / (2 * n * d))

/-- Shape values φ_r (R418). A single row is the reference row of R420: its shape is 0. -/
def shapes (type nr : Nat) (f : Nat → Rat) : List Nat :=
  if type = 1 then
    let fs := (List.range nr).map f
    let hi := fs.foldl max (f 0)
    let lo := fs.foldl min (f 0)
    let q := fun (x : Rat) => 1 / (x * x)
    fs.map fun x => (65536 * (q x - q hi) / (q lo - q hi)).floor.toNat
  else (List.range nr).map fun r => if nr ≤ 1 then 0 else 65536 * (nr - 1 - r) / (nr - 1)

/-- Delay span of a trial. -/
def Sweep.span (u : Sweep) (t : Nat) : Int := asr (u.d0 + t * u.dstep) 4

/-- Delay of a row of shape φ in a trial of span Δ. -/
def rowDelay (delta : Int) (phi : Nat) : Nat :=
  if 0 ≤ delta then (delta * phi / 65536).toNat else (-delta * (65536 - phi : Nat) / 65536).toNat

/-- Δ_max. -/
def Sweep.maxDelay (u : Sweep) : Nat :=
  (List.range u.nt).foldl (fun m t => u.phi.foldl (fun m p => max m (rowDelay (u.span t) p)) m) 0

/-! ### Cells (R414–R417) -/

/-- Clear the unit at its next input spectrum, number m (R433). -/
def Sweep.begin_ (u : Sweep) (m : Nat) : Sweep :=
  { u with
    restart := false, s0 := m, masks := (u.masks.take 1).map (fun (k : Nat × List Bool) => (0, k.2)), eu := none, qual := 0, means := List.replicate u.nr 0, hist := []
    noise := List.replicate (7 * u.nt) 0, updates := 0, sums := List.replicate u.nt [], undecided := m, lastM := none }

/-- One row: its cell from the mean as it stands, and the new mean (R415). -/
def rowCell (i km : Nat) (mean p : Int) : Int × Int :=
  (if mean = 0 then 0 else max (-32768) (min 32767 (4096 * (p - mean) / mean)), mean + (p - mean) / (min i (2 ^ km) : Nat))

/-- The unit takes a spectrum. -/
def Sweep.column (u : Sweep) (x : Spectrum) : Sweep :=
  let u := { u with lastM := some x.m }
  let keep := u.maxDelay + 128
  let push := fun (u : Sweep) (c : SweepCol) => { u with hist := (u.hist ++ [c]).drop ((u.hist.length + 1) - keep) }
  if Flags.has x.flags (fFill ||| fPoison ||| fGap) || (u.skipCal && Flags.has x.flags fCalOn) then
    push u ⟨x.m, List.replicate u.nr 0, true, x.flags⟩
  else
    let e := 2 * x.e + u.b
    let p := x.powers u.fw (u.nr * 2 ^ u.b) u.b
    let eu := max e (u.eu.getD e)
    let p := p.map fun v => asr v (eu - e)
    let means := u.means.map fun v => asr v (eu - u.eu.getD eu)
    let i := u.qual + 1
    let rows := List.zipWith (rowCell i u.km) means p
    push { u with eu := some eu, qual := i, means := rows.map (·.2) } ⟨x.m, rows.map (·.1), false, x.flags⟩

/-- Column slots of the history region, and where column m stands: at slot m mod their number, row by row (R412, log entry 85). -/
def Sweep.slots (u : Sweep) : Nat := u.maxDelay + 128
def Sweep.columnAt (u : Sweep) (m : Nat) : Nat := m % u.slots * u.nr * 2

/-- The unit's newest column goes to its history region. -/
def State.sweepStore (s : State) (u : Nat) : State :=
  let x := s.sweep u
  match x.hist.getLast? with
  | some c => s.putBytes (hIdx x.histRegion) (x.columnAt c.m) (pack (c.cells.map fun v => (2, twos 16 v)))
  | none => s

/-! ### Sums, boxcars, noise (R420–R425) -/

/-- Cell c(m, r); a spectrum that was withheld or is not held gives 0. -/
def Sweep.cell (u : Sweep) (m r : Nat) : Int :=
  match u.hist.find? fun c => c.m == m with
  | some c => (c.cells[r]?).getD 0
  | none => 0

/-- The row mask of time index n. -/
def Sweep.maskAt (u : Sweep) (n : Nat) : List Bool := ((u.masks.find? fun k => decide (k.1 ≤ n)).map (·.2)).getD []

/-- S_t(n); a masked row's cells are zero (R417, R420). -/
def Sweep.trackSum (u : Sweep) (t n : Nat) : Int :=
  let mask := u.maskAt n
  sumI (u.phi.mapIdx fun r p => if (mask[r]?).getD false then 0 else u.cell (n + rowDelay (u.span t) p) r)

/-- SNR16 (R423). -/
def snr16 (b v : Int) : Nat :=
  if v ≤ 0 ∨ b ≤ 0 then 0 else min 65535 ((16 * b).toNat / max 1 (isqrt v.toNat))

/-- A column of a candidate's boxcar span and tracks. -/
def Sweep.onTracks (u : Sweep) (t n w m : Nat) : Bool :=
  u.phi.any fun p => decide (n + 1 ≤ m + w - rowDelay (u.span t) p) && decide (m ≤ n + rowDelay (u.span t) p) && decide (rowDelay (u.span t) p ≤ m + w)

/-- A hit as a candidate (R426, R427, R431). -/
def Sweep.candOf (u : Sweep) (pitch t n k snr hits : Nat) : Cand :=
  let w := 2 ^ k
  let cols := u.hist.filter fun c => u.onTracks t n w c.m
  { idx := (n + 1 - w) * pitch, time := 0, trial := t, k := k, snr := snr, hits := hits, zeroed := cols.any (·.zeroed), flags := orAll (cols.map (·.flags)) }

/-- Decide time index n: the new sums and noise, and the hits (t, k, SNR16) in order. -/
def Sweep.decide_ (u : Sweep) (n : Nat) : Sweep × List (Nat × Nat × Nat) :=
  let j := u.updates + 1
  let ks := (List.range 7).filter fun k => u.widths.getLsbD k
  let sums := u.sums.mapIdx fun t l => (u.trackSum t n :: l).take 64
  let box := fun t k => sumI (((sums[t]?).getD []).take (2 ^ k))
  let v := fun t k => (u.noise[7 * t + k]?).getD 0
  let warm := fun k => decide (n + 1 < u.s0 + 2 ^ u.km + 2 ^ u.kn + 2 ^ k)
  let all := (List.range u.nt).flatMap fun t => ks.map fun k => (t, k, snr16 (box t k) (v t k))
  let noise := u.noise.mapIdx fun i x =>
    let t := i / 7
    let k := i % 7
    if !ks.contains k then x
    else if u.thr ≤ snr16 (box t k) x ∧ 2 ^ u.kn < j then x
    else x + (box t k * box t k - x) / (min j (2 ^ u.kn) : Nat)
  ({ u with sums := sums, noise := noise, updates := j, undecided := n + 1 },
   all.filter fun (_, k, snr) => decide (u.thr ≤ snr) && !warm k)

/-- Decide n … n + count − 1, with every hit and its time index, in order. -/
def Sweep.decideRun : (count : Nat) → Sweep → Nat → Sweep × List (Nat × Nat × Nat × Nat)
  | 0, u, _ => (u, [])
  | c + 1, u, n =>
    let (u, h) := u.decide_ n
    let (u', hs) := Sweep.decideRun c u (n + 1)
    (u', h.map (fun (t, k, snr) => (n, t, k, snr)) ++ hs)

/-- The unit holds every column up to spectrum m. -/
def Sweep.holds (u : Sweep) (m : Nat) : Bool := u.lastM.any fun l => decide (m ≤ l)

/-- The next block (BEST) or time index (ALL), when it can be decided (R426): the unit after it and the candidates. -/
def Sweep.nextBlock (u : Sweep) (pitch : Nat) : Option (Sweep × List Cand) :=
  if !u.run then none
  else if u.all then
    if u.holds (u.undecided + u.maxDelay) then
      let (u', h) := u.decideRun 1 u.undecided
      some (u', h.map fun (n, t, k, snr) => u'.candOf pitch t n k snr 1)
    else none
  else
    let last := u.undecided / 64 * 64 + 63
    if u.holds (last + u.maxDelay) then
      let (u', h) := u.decideRun (last + 1 - u.undecided) u.undecided
      let best := h.foldl (fun b x => match b with | none => some x | some y => if y.2.2.2 < x.2.2.2 then some x else b) (none : Option (Nat × Nat × Nat × Nat))
      some (u', (best.map fun (n, t, k, snr) => u'.candOf pitch t n k snr (min 65535 h.length)).toList)
    else none

/-! ### Candidates (R430–R432, R376) -/

/-- Write the open record to a free slot of the candidate region (R430, R431); false when no slot is free. -/
def State.sweepRecord (s : State) (u : Nat) : State × Bool :=
  let x := s.sweep u
  match x.queue.take 256 with
  | [] => (s, true)
  | c0 :: rest =>
    let cs := c0 :: rest
    let i := hIdx x.candRegion
    let r := s.region i
    let ch := s.chan x.chan
    let sm := s.stream ch.stream
    let payload := pack [(2, cs.length), (1, b2n x.all), (1, x.widths.toNat), (4, x.dropRec), (8, x.undecided), (2, x.nt), (2, x.thr), (8, 0), (4, 0)] ++
      pack (cs.flatMap fun c => [(8, c.idx), (2, c.trial), (1, c.k), (1, b2n c.zeroed), (2, c.snr), (2, c.hits)])
    let len := slotBytes payload.length
    let ok := fun j => r.roomAt (j * (r.bytes / 2)) len
    let k := b2n x.slot
    match if ok k then some k else if ok (1 - k) then some (1 - k) else none with
    | none => (s, false)
    | some j =>
      let h := { Hdr.plain (s.handleOf 6 u) 0x0B 1 (c0.time / unitF) with
        idx := c0.idx, flags := orAll (cs.map (·.flags)), cgen := ch.calGen, fgen := ch.fgen, journal := s.sec.jNext - 1
        log2d := Nat.log2 (max 1 ch.fe.d), hop := ch.sp.h, nco := ch.nco, fs := sm.par.fs }
      ((s.putRecord i (j * (r.bytes / 2)) true h payload).setSweep u fun x =>
        { x with queue := x.queue.drop 256, dropRec := 0, slot := j == 0
                 recStart := if x.queue.length ≤ 256 then none else some s.now }, true)

/-- SWEEP conditions of the unit's channel see a candidate (R376). -/
def State.sweepConditions (s : State) (u : Nat) (c : Cand) : State :=
  let ch := (s.sweep u).chan
  (List.range 4).foldl (fun s l =>
    let k := nth (s.chan ch).cond l .off
    let x := k.u3.toNat
    let t := decide (bits k.u2.toNat 15 0 ≤ c.snr) && inR c.trial (bits x 10 0) (bits x 26 16) && bit x (32 + c.k)
    if k.type = 6 && k.u1.setWidth 32 = s.handleOf 6 u then s.evalCond ch l c.idx (some (t, !t)) else s) s

/-- A candidate: the queue, the trigger engine, SWEEP_CANDIDATE. -/
def State.sweepCand (s : State) (u : Nat) (c : Cand) : State :=
  let c := { c with time := (s.stream (s.chan (s.sweep u).chan).stream).timeOf c.idx }
  let s := s.setSweep u fun x =>
    if x.queue.length < 1024 then { x with queue := x.queue ++ [c], recStart := some (x.recStart.getD s.now) }
    else { x with dropped := satN 255 (x.dropped + 1), dropRec := satN (2 ^ 32 - 1) (x.dropRec + 1) }
  let s := s.sweepConditions u c
  let x := s.sweep u
  let s := if !x.event then s
    else
      let recent := x.evtTimes.filter fun t => decide (s.now < t + 1000000000)
      if recent.length < 10000 then
        (s.setSweep u fun x => { x with evtTimes := recent ++ [s.now] }).noteAt .sweepCandidate (s.handleOf 6 u) c.time
          [(4, c.trial + c.k * 2048 + c.snr * 16384), (8, c.idx)]
      else s.setSweep u fun x => { x with evtTimes := recent, evtLimited := satN 255 (x.evtLimited + 1) }
  if 256 ≤ (s.sweep u).queue.length then (s.sweepRecord u).1 else s

/-- A stop takes effect: the record closes, the grant goes, the commands that wait complete (R436). -/
def State.sweepStop (s : State) (u : Nat) : State :=
  let s := s.setSweep u fun x => { x with run := false, grant := 0 }
  let (s, ok) := s.sweepRecord u
  if ok && (s.sweep u).queue.isEmpty then
    (s.sweep u).stopping.foldl (fun (s : State) r => s.finish r.val .ok 0 0) (s.setSweep u fun x => { x with stopping := [] })
  else s

/-- A waiting row mask takes effect from time index n on; of the masks before it, those stay that undecided time indices still need (R436). -/
def State.sweepMask (s : State) (u n : Nat) : State :=
  match (s.sweep u).maskNext with
  | none => s
  | some (m, rs) =>
    let s := s.setSweep u fun x =>
      let old := x.masks.dropWhile fun k => decide (x.undecided < k.1)
      { x with masks := (n, m) :: (x.masks.takeWhile (fun k => decide (x.undecided < k.1)) ++ old.take 1), maskNext := none }
    rs.foldl (fun (s : State) r => s.finish r.val .ok 0 0) s

/-- Units of a channel take a spectrum (R413). -/
def State.sweepSpectrum (s : State) (ch : Nat) (x : Spectrum) : State :=
  (List.range 2).foldl (fun s u =>
    let v := s.sweep u
    if !v.run || v.chan != ch then s
    else if !v.stopping.isEmpty then s.sweepStop u
    else
      let block := x.m / 64
      let s := if v.restart then s.setSweep u fun v => v.begin_ x.m else s
      let s := if x.m % 64 = 0 || v.lastM.any fun l => decide (l / 64 < block) then s.sweepMask u (64 * block) else s
      (s.setSweep u fun v => v.column x).sweepStore u) s

/-- The channel's spectra break off: its units restart at the next one (R433); a stop that waits for a boundary has it. -/
def State.sweepBreak (s : State) (ch : Nat) : State :=
  (List.range 2).foldl (fun s u =>
    if (s.sweep u).chan = ch && (s.sweep u).run then
      let s := s.setSweep u fun v => { v with restart := true }
      if (s.sweep u).stopping.isEmpty then s else s.sweepStop u
    else s) s

/-- An epoch discards the undecided blocks at once: their numbers count no more (R433, Races). -/
def State.sweepEpoch (s : State) (ch : Nat) : State :=
  (List.range 2).foldl (fun s u => s.setSweep u fun x => if x.chan = ch && x.run then { x with restart := true, lastM := none } else x) s

/-! ### SWEEP_SET and SWEEP_RUN (R434–R436) -/

/-- The set-up SWEEP_SET names, without φ. -/
def sweepOf (d : Desc) : Sweep :=
  { Sweep.reset with
    claimed := true, chan := d.u 0x08 1, type := d.u 0x0C 1, b := d.u 0x0D 1, all := dBit d 0x0E 0, event := dBit d 0x0E 1
    skipCal := dBit d 0x0E 2, invert := dBit d 0x0E 3, widths := BitVec.ofNat 7 (d.u 0x0F 1), fw := d.u 0x10 4, nr := d.u 0x14 2
    nt := d.u 0x16 2, d0 := dInt d 0x18 4, dstep := dInt d 0x1C 4, frf := d.u 0x20 8, km := d.u 0x28 1, kn := d.u 0x29 1
    thr := d.u 0x2A 2, candRegion := BitVec.ofNat 32 (d.u 0x2C 4), histRegion := BitVec.ofNat 32 (d.u 0x30 4), flushMs := d.u 0x34 2 }

/-- Row frequencies of a set-up on its channel. -/
def State.rowFreqs (s : State) (x : Sweep) (r : Nat) : Rat :=
  let c := s.chan x.chan
  rowFreq x.frf x.fw x.b r (2 ^ c.sp.l) (s.stream c.stream).par.fs c.fe.d x.invert

/-- Fields in range; `x` with its shapes. -/
def sweepOk (s : State) (d : Desc) (x : Sweep) : Bool :=
  let c := s.chan x.chan
  d.clean [(0x08, 46)] && x.type ≤ 2 && x.b ≤ 8 && d.u 0x0E 1 < 16 && inR (d.u 0x0F 1) 1 127 && inR x.nr 1 4096 && inR x.nt 1 2048 &&
  x.fw + x.nr * 2 ^ x.b ≤ 2 ^ c.sp.l && inR x.km 4 16 && inR x.kn 4 16 && inR x.flushMs 1 1000 &&
  ((List.range x.nt).all fun t => decide ((x.span t).natAbs ≤ 65535) && (x.type != 1 || decide (0 ≤ x.span t))) &&
  (x.type != 1 || (List.range x.nr).all fun r => decide (0 < s.rowFreqs x r)) &&
  x.nr * (x.maxDelay + 128) * 2 ≤ (s.region (hIdx x.histRegion)).bytes && 4264 ≤ (s.region (hIdx x.candRegion)).bytes / 2

/-- Release a unit and both its regions; a SWEEP_RUN that still waits for its power is withdrawn, its handle no longer valid (R95). -/
def State.sweepFree (s : State) (u : Nat) : State :=
  let s := s.withdrawNeed (.sweep u) .badHandle fun f => f.op == .sweepRun && hIdx f.d.handle == u
  ((s.setSweep u fun x => { Sweep.reset with gen := nextGen x.gen, dropped := x.dropped, evtLimited := x.evtLimited }).dropWriter (.sweepCand u)).dropWriter (.sweepHist u)

def sweepSetBody (d : Desc) (s : State) : Verdict :=
  let new := d.handle = 0
  let x0 := sweepOf d
  let chH := BitVec.ofNat 32 (d.u 0x08 4)
  let u? := if new then s.claimIdx (if s.ident.small then 1 else 2) fun u => !(s.sweep u).claimed else some (hIdx d.handle)
  if d.u 0x0C 1 = 0 then
    if new then fail .badHandle d s
    else if (s.sweep (hIdx d.handle)).run || !(s.sweep (hIdx d.handle)).stopping.isEmpty then fail .wrongState d s
    else if !d.clean [(0x08, 0x2E)] || 15 < d.u 0x0E 1 || 127 < d.u 0x0F 1 then fail .badParam d s
    else .done .ok (hIdx d.handle) 0 d.handle (s.sweepFree (hIdx d.handle))
  else if !s.valid 2 chH || !s.valid 3 x0.candRegion || !s.valid 3 x0.histRegion then fail .badHandle d s
  else if (!new && ((s.sweep (hIdx d.handle)).run || !(s.sweep (hIdx d.handle)).stopping.isEmpty)) || (s.chan x0.chan).sp.type = 0 then fail .wrongState d s
  else
    let x := { x0 with phi := shapes x0.type (min 4096 x0.nr) (s.rowFreqs x0) }
    let c := s.chan x.chan
    if !sweepOk s d x then fail .badParam d s
    else match u? with
    | none => fail .resourceBusy d s
    | some u =>
      if s.writerBusy (hIdx x.candRegion) (.sweepCand u) || s.writerBusy (hIdx x.histRegion) (.sweepHist u) || x.candRegion = x.histRegion then
        fail .resourceBusy d s
      else if 1000000000 * c.sp.h * c.fe.d < x.nr * (s.stream c.stream).par.fs then fail .noCapacity d s
      else
        let s := (s.dropWriter (.sweepCand u)).dropWriter (.sweepHist u)
        let s := (s.setWriter (hIdx x.candRegion) (.sweepCand u)).setWriter (hIdx x.histRegion) (.sweepHist u)
        let s := s.setSweep u fun o => { x with gen := o.gen, dropped := o.dropped, evtLimited := o.evtLimited
                                                sums := List.replicate x.nt [], noise := List.replicate (7 * x.nt) 0 }
        .done .ok u x.maxDelay (s.handleOf 6 u) s

def sweepRunBody (d : Desc) (s : State) : Verdict :=
  let u := hIdx d.handle
  let x := s.sweep u
  let act := d.u 0x08 1
  if !d.clean [(0x08, 1), (0x10, 8)] || 3 < act || (act = 3 && !addrOk (d.u 0x10 8) 512 8) then fail .badParam d s
  else match act with
  | 0 =>
    if !x.run && x.stopping.isEmpty then .done .ok 0 0 d.handle s
    else
      let s := s.setSweep u fun x => { x with stopping := x.stopping ++ [d.ring] }
      if !x.run then .wait .point d.handle s
      else if (s.chan x.chan).emits then .wait .point d.handle s
      else
        let s' := s.setSweep u fun x => { x with stopping := [], run := false, grant := 0 }
        let (s', ok) := s'.sweepRecord u
        if ok && (s'.sweep u).queue.isEmpty then .done .ok 0 0 d.handle s'
        else .wait .point d.handle (s'.setSweep u fun x => { x with stopping := [d.ring] })
  | 1 =>
    if x.run || !x.stopping.isEmpty then fail .wrongState d s
    else .need (.sweep u) 1 3400 d.handle s fun s =>
      .done .ok 0 0 d.handle ((s.setSweep u fun x => { x with run := true, restart := true }).sweepMask u 0)
  | 2 =>
    let (s', ok) := s.sweepRecord u
    if ok then .done .ok 0 0 d.handle s' else fail .resourceBusy d s
  | _ => readBuffer d (d.u 0x10 8) 512 s

/-- The row mask has come (R436): it waits for its time index, or for the unit's start. Over one that still waits it takes its place, and both commands
complete when it is in force (log entry 86). -/
def sweepMaskData (d : Desc) (buf : List Byte) (s : State) : Verdict :=
  let u := hIdx d.handle
  let m := (List.range (s.sweep u).nr).map fun r => bit (num buf (r / 8) 1) (r % 8)
  .wait .point d.handle (s.setSweep u fun x => { x with maskNext := some (m, (x.maskNext.map (·.2)).getD [] ++ [d.ring]) })

/-- SWEEP_BLOCK_DECIDED (R426): the next block, or time index in ALL mode, is decided, with what its reads of the history met. -/
def execSweepBlockDecided (u : Fin 2) (run : HistRun) (s : State) : Host.Outcome State Fault Refusal :=
  let x := s.sweep u.val
  let c := s.chan x.chan
  let zero := fun (k : SweepCol) =>
    if run.lost.any (fun z => z.1 == k.m) then
      { k with cells := k.cells.mapIdx (fun r v => if run.lost.contains (k.m, r) then 0 else v), flags := k.flags ||| fPoison }
    else k
  let x := { x with hist := x.hist.map zero }
  .next (match x.nextBlock (c.sp.h * c.fe.d) with
    | none => s
    | some (x', cs) =>
      cs.foldl (fun s k => s.sweepCand u.val k)
        (((s.overrun 3 run.waits).storeFaults (hIdx x.histRegion) 3 (run.lost.map fun z => (x.columnAt z.1 + 2 * z.2) / 32).eraseDups).setSweep u.val fun _ => x'))

/-- SWEEP_FLUSH_PERIOD (R430): the flush period after the open record's first candidate is over. -/
def execSweepFlushPeriod (u : Fin 2) (s : State) : Host.Outcome State Fault Refusal :=
  let x := s.sweep u.val
  .next (match x.recStart with
    | none => s
    | some t =>
      let s := s.until (t + x.flushMs * 1000000)
      if !x.stopping.isEmpty && !x.run then s.sweepStop u.val else (s.sweepRecord u.val).1)

end Sys2Proof.Machine
end

