-- ==== Sys2Proof/Machine/Transform.lean ====
section
/-! DEFINITION. Windows, the polyphase sum, and the block floating-point transforms (R263–R281). -/

namespace Sys2Proof.Machine

/-- Stored window coefficient k, periodic (R264, R266). -/
def SpecSet.stored (p : SpecSet) (k : Nat) : Int :=
  if p.win = 0x3F then (p.user[k % max 1 p.user.length]?).getD 0
  else if p.win = 0 then 131071
  else Config.windowTap p.win (k % 65536)

/-- w_N[i] (R264, R266). -/
def SpecSet.windowAt (p : SpecSet) (i : Nat) : Int :=
  if p.l ≤ 16 then (if p.win = 0x3F then p.stored i else p.stored (i * 2 ^ (16 - p.l)))
  else
    let r := 2 ^ (p.l - 16)
    let a := i / r
    p.stored a + (p.stored (a + 1) - p.stored a) * (i % r : Nat) / (r : Nat)

/-- Input of the transform from a frame of W outputs (R265, R270). -/
def SpecSet.frame (p : SpecSet) (x : List Cx) : List Cx :=
  let n := 2 ^ p.l
  if p.type = 1 then
    x.mapIdx fun i z => (asr (z.1 * p.windowAt i) 17, asr (z.2 * p.windowAt i) 17)
  else
    let h := x.mapIdx fun i z =>
      let c := Config.pfbTap p.win (i * 2 ^ (16 - p.l))
      (z.1 * c, z.2 * c)
    let rows := groupsOf n h
    (List.range n).map fun k =>
      let col := rows.map fun r => (r[k]?).getD (0, 0)
      (asr (sumI (col.map (·.1))) 17, asr (sumI (col.map (·.2))) 17)

/-! ### Stages (R272, R273) -/

/-- Bit length of the largest component magnitude. -/
def magBits (blocks : List (List Cx)) : Nat :=
  bitLen (blocks.foldl (fun m b => b.foldl (fun m z => max m (max z.1.natAbs z.2.natAbs)) m) 0)

/-- Times a twiddle W_M^n; exponent 0 is no multiply (log entry 20). -/
def twid (m n : Nat) (z : Cx) : Cx :=
  if n % m = 0 then z
  else
    let w := Config.twiddle m (n % m)
    (asr (z.1 * w.1 - z.2 * w.2) 17, asr (z.1 * w.2 + z.2 * w.1) 17)

/-- Radix-4 decimation in frequency: a block becomes four quarter blocks. -/
def radix4 (b : List Cx) : List (List Cx) :=
  let m := b.length
  let q := m / 4
  let at4 := fun (i k : Nat) => (b[i + k * q]?).getD (0, 0)
  let f := fun (r i : Nat) =>
    let x := at4 i 0
    let y := at4 i 1
    let z := at4 i 2
    let w := at4 i 3
    let v : Cx := match r with
      | 0 => (x.1 + y.1 + z.1 + w.1, x.2 + y.2 + z.2 + w.2)
      | 1 => (x.1 + y.2 - z.1 - w.2, x.2 - y.1 - z.2 + w.1)
      | 2 => (x.1 - y.1 + z.1 - w.1, x.2 - y.2 + z.2 - w.2)
      | _ => (x.1 - y.2 - z.1 + w.2, x.2 + y.1 - z.2 - w.1)
    twid m (r * i) v
  (List.range 4).map fun r => (List.range q).map (f r)

/-- The radix-2 stage: a block of two. -/
def radix2 (b : List Cx) : List (List Cx) :=
  let x := b.headD (0, 0)
  let y := (b[1]?).getD (0, 0)
  [[(x.1 + y.1, x.2 + y.2)], [(x.1 - y.1, x.2 - y.2)]]

def shiftAll (k : Nat) (bs : List (List Cx)) : List (List Cx) := bs.map fun b => b.map (shiftCx k)

/-- Run the stages on every block with common shifts: results and the sum of the shifts, the shift to 16 bits included. -/
def bfpStages : (radices : List Nat) → List (List Cx) → List (List Cx) × Nat
  | [], bs => let k := magBits bs - 15; (shiftAll k bs, k)
  | r :: rs, bs =>
    let k := magBits bs - (if r = 4 then 14 else 16)
    let bs := (shiftAll k bs).flatMap (if r = 4 then radix4 else radix2)
    let (out, e) := bfpStages rs bs
    (out, k + e)

/-- Radices of a 2^l-point transform (R272). -/
def radicesOf (l : Nat) : List Nat := List.replicate (l / 2) 4 ++ (if l % 2 = 1 then [2] else [])

/-- Where DFT index k stands after the stages. -/
def digitPos : List Nat → Nat → Nat
  | [], _ => 0
  | r :: rs, k => k % r * rs.foldl (· * ·) 1 + digitPos rs (k / r)

/-- Transforms of 2^l points of every block, natural DFT order, with common shifts. -/
def bfpMany (l : Nat) (bs : List (List Cx)) : List (List Cx) × Nat :=
  let (out, e) := bfpStages (radicesOf l) bs
  let flat := out.flatten
  let n := 2 ^ l
  ((List.range bs.length).map fun b => (List.range n).map fun k => (flat[b * n + digitPos (radicesOf l) k]?).getD (0, 0), e)

/-- Bins in natural order, index k − N/2 (R274, R276). -/
def naturalBins (x : List Cx) : List Cx :=
  let n := x.length
  (List.range n).map fun k => (x[(k + n / 2) % n]?).getD (0, 0)

/-- In-pipe transform: bins and exponent. -/
def inPipe (l : Nat) (u : List Cx) : List Cx × Nat :=
  let (o, e) := bfpMany l [u]
  (naturalBins (o.headD []), e)

/-- A word of the working store as read: zero when its codeword of 8 is lost (R281). -/
def storeRead (lost : List Nat) (i : Nat) (z : Cx) : Cx := if lost.contains (i / 8) then (0, 0) else z

/-- First pass: the N1-point transform of each column n2, with its exponent (R278 step 2). -/
def largeFirst (l : Nat) (lost : List Nat) (u : List Cx) : List (List Cx × Nat) :=
  let u := u.mapIdx (storeRead lost)
  let l1 := (l + 1) / 2
  let n2 := 2 ^ (l - l1)
  (List.range n2).map fun c =>
    let (o, e) := bfpMany l1 [(List.range (2 ^ l1)).map fun k => (u[n2 * k + c]?).getD (0, 0)]
    (o.headD [], e)

/-- Large transform in two passes (R278, R279): Y stands after u in the working store, column by column (log entry 63). -/
def largeTransform (l : Nat) (lost : List Nat) (u : List Cx) : List Cx × Nat :=
  let l1 := (l + 1) / 2
  let n1 := 2 ^ l1
  let cols := largeFirst l lost u
  let e1 := cols.foldl (fun m c => max m c.2) 0
  let rows := (List.range n1).map fun k1 => cols.mapIdx fun c col =>
    twid (2 ^ l) (c * k1) (shiftCx (e1 - col.2) (storeRead lost (2 ^ l + c * n1 + k1) ((col.1[k1]?).getD (0, 0))))
  let (out, e2) := bfpMany (l - l1) rows
  (naturalBins ((List.range (2 ^ l)).map fun k => (((out[k % n1]?).getD [])[k / n1]?).getD (0, 0)), e1 + e2)

end Sys2Proof.Machine
end

