-- ==== Sys2Proof/Machine/Triggers.lean ====
section
/-! DEFINITION. The commands and events of the trigger system (R378–R407). -/

namespace Sys2Proof.Machine

/-! ### TRIG_SET (R384–R388) -/

/-- Condition set-up named by TRIG_SET (R384, R385). -/
def condOf (d : Desc) : Cond :=
  { type := d.u 0x09 1, skipCal := dBit d 0x0A 2, q := d.u 0x0B 1, r := d.u 0x0C 1, s1 := d.u 0x0D 1, s2 := d.u 0x0E 2
    u1 := BitVec.ofNat 64 (d.u 0x10 8), u2 := BitVec.ofNat 64 (d.u 0x18 8), u3 := BitVec.ofNat 64 (d.u 0x20 8)
    fired := false, cnt := 0, hist := [], fires := [] }

/-- The type's own fields are in range, and the bits R385 does not name are zero. -/
def condFieldsOk (s : State) (ch : Nat) (c : Cond) : Bool :=
  let src := c.s1 % 8
  let u1 := c.u1.toNat
  let u2 := c.u2.toNat
  let u3 := c.u3.toNat
  let levels := decide (c.s1 / 8 % 16 = 0) && u3 == 0 && (if c.below then decide (c.hi ≤ c.lo) else decide (c.lo ≤ c.hi))
  match c.type with
  | 0 => true
  | 1 => levels && src ≤ 6 && c.s2 == 0
  | 2 => levels && src ≤ 3 && inR c.s2 1 64
  | 3 => inR c.s1 1 3 && c.s2 == 0 && u1 < 65536 && u2 == 0 && u3 == 0
  | 4 =>
    let p := (nth s.planes src .reset).bound ch
    let x0 := bits u1 11 0
    let x1 := bits u1 27 16
    c.s1 / 8 % 16 == 0 && c.s2 == 0 && u3 == 0 && u2 < 2 ^ 56 && bits u1 15 12 == 0 && bits u1 31 28 == 0 && u1 < 2 ^ 48 &&
    x0 ≤ x1 && bits u1 39 32 ≤ bits u1 47 40 && p.all fun p => decide (x1 < p.bd / 2 ^ p.c)
  | 5 => c.s1 == 0 && c.s2 == 0 && u1 < 65536 && u2 == 0 && u3 == 0
  | 6 => c.s1 == 0 && c.s2 == 0 && u1 < 2 ^ 32 && u2 < 65536 && bits u3 15 11 == 0 && bits u3 31 27 == 0 && u3 < 2 ^ 39 &&
    bits u3 10 0 ≤ bits u3 26 16 && bits u3 38 32 != 0
  | 7 => c.s1 ≤ 15 && inR c.s2 1 3 && u1 == 0 && u2 == 0 && u3 == 0
  | 8 => c.s1 == 0 && c.s2 == 0 && u1 == 0 && u2 == 0 && u3 == 0
  | _ => false

/-- Types 3–6 need a transform (R364). -/
def Cond.spectral (c : Cond) : Bool := inR c.type 3 6

/-- TRIG_SET (R386–R388). -/
def trigSetBody (d : Desc) (s : State) : Verdict :=
  let ch := hIdx d.handle
  let c := s.chan ch
  let l := d.u 0x08 1
  let n := condNo ch l
  if !d.clean [(0x08, 40)] || 3 < l || 8 ≤ d.u 0x0A 1 then fail .badParam d s
  else if dBit d 0x0A 0 then
    let at? := dBit d 0x0A 1
    let idx := d.u 0x28 8
    if at? && c.lastOut.any (fun j => decide (idx < j * c.fe.d)) then fail .badParam d s
    else if (nth c.cond l .off).type ≠ 8 || c.st ≠ .running then fail .wrongState d s
    else .wait .point d.handle (s.setChan ch fun x => { x with cond := upd x.cond l fun k =>
      { k with fires := k.fires ++ [(if at? then some idx else none, d.ring)] } })
  else
    let k := condOf d
    let unit := k.u1.setWidth 32
    let qr := k.type = 0 || k.type = 7 || k.type = 8 || (1 ≤ k.q && 1 ≤ k.r)
    if 8 < k.type || !qr || !condFieldsOk s ch k then fail .badParam d s
    else if (k.spectral && c.sp.type = 0) || (k.type = 4 && ((nth s.planes (k.s1 % 8) .reset).bound ch).isNone) then fail .wrongState d s
    else if k.type = 6 && s.valid 6 unit && (nth s.sweeps (hIdx unit) .reset).chan ≠ ch then fail .wrongState d s
    else if k.type = 6 && !s.valid 6 unit then fail .badHandle d s
    else if k.type = 7 && !s.pins.isTrigIn k.s1 then fail .pinNotAssigned d s
    else .done .ok n 0 d.handle (s.setChan ch fun x => { x with cond := upd x.cond l fun o => { k with fires := o.fires } })

/-! ### TRIG_MASK_LOAD (R389–R392) -/

/-- Segments of a mask buffer (R389). -/
def segsOf (b : List Byte) : (n : Nat) → List Seg
  | 0 => []
  | n + 1 => segsOf b n ++ [⟨num b (8 * n) 2, num b (8 * n + 2) 2 + 1, sx 16 (num b (8 * n + 4) 2), sx 16 (num b (8 * n + 6) 2)⟩]

/-- The cases of R391. -/
def segsOk (fm N : Nat) : List Seg → Bool
  | [] => true
  | s :: r => decide (s.first + s.count ≤ 65536) && decide (fm + s.first + s.count ≤ N) && decide (s.lower ≤ s.upper) &&
    (match r with | t :: _ => decide (s.first + s.count ≤ t.first) | [] => true) && segsOk fm N r

/-- The mask in force (R392). -/
def Mask.active (m : Mask) : Nat × List Seg := if m.useB1 then (m.base1, m.segs1) else (m.base0, m.segs0)

/-- Write the idle bank and switch to it (R392). -/
def Mask.load (m : Mask) (base : Nat) (segs : List Seg) : Mask :=
  if m.useB1 then { m with base0 := base, segs0 := segs, useB1 := false } else { m with base1 := base, segs1 := segs, useB1 := true }

/-- TRIG_MASK_LOAD with its segments read. -/
def trigMaskData (d : Desc) (buf : List Byte) (s : State) : Verdict :=
  let ch := hIdx d.handle
  let c := s.chan ch
  let n := d.u 0x0A 2
  let segs := segsOf buf n
  if !segsOk (d.u 0x0C 4) (2 ^ c.sp.l) segs then fail .badParam d s
  else .done .ok n (sumN (segs.map (·.count))) d.handle
    (s.setChan ch fun x => { x with mask := upd x.mask (d.u 0x08 1) fun m => m.load (d.u 0x0C 4) segs })

/-- TRIG_MASK_LOAD (R390, R391). -/
def trigMaskLoadBody (d : Desc) (s : State) : Verdict :=
  let n := d.u 0x0A 2
  let a := d.u 0x10 8
  if !d.clean [(0x08, 1), (0x0A, 14)] || 3 < d.u 0x08 1 || 1024 < n || !addrOk a (8 * n) 8 then fail .badParam d s
  else if (s.chan (hIdx d.handle)).sp.type = 0 then fail .wrongState d s
  else if n = 0 then trigMaskData d [] s
  else readBuffer d a (8 * n) s

/-! ### TRIG_COMBINE (R402–R404) -/

def combineInputs (d : Desc) (n : Nat) : List Nat := (List.range n).map fun i => d.u (0x18 + 2 * i) 2

/-- Fields in range (R404); in mode 0 every field but the mode is ignored (R801). -/
def combineOk (s : State) (d : Desc) : Bool :=
  let mode := d.u 0x08 1
  let n := d.u 0x09 1
  let ins := combineInputs d n
  let aset := d.u 0x0C 2
  d.clean [(0x08, 3), (0x0C, 2), (0x10, 4), (0x18, 32)] && mode ≤ 3 && d.u 0x0A 1 ≤ 1 &&
  (mode == 0 || (inR n 1 16 && ins.all (fun c => decide (c < (if s.ident.small then 256 else 512))) &&
    decide ins.Nodup && ((List.range 16).all fun i => i < n || d.u (0x18 + 2 * i) 2 == 65535) &&
    (if mode = 3 then aset != 0 && aset < 2 ^ n && aset != 2 ^ n - 1 else aset == 0)))

/-- TRIG_COMBINE. -/
def trigCombineBody (d : Desc) (s : State) : Verdict :=
  let mode := d.u 0x08 1
  let n := d.u 0x09 1
  let g := hIdx d.handle
  let ins := combineInputs d n
  let x : Group := { gen := 0, alloc := true, mode := mode, event := dBit d 0x0A 0, aset := BitVec.ofNat 16 (d.u 0x0C 2), t := d.u 0x10 4
                     inputs := ins, hits := [], past := [], last := none, since := s.time.tb / unitF, late := 0, dropped := 0, fired := 0 }
  if mode = 0 && d.handle = 0 then fail .badHandle d s
  else if !combineOk s d then fail .badParam d s
  else if mode ≠ 0 && ins.any (fun c => (s.chan (c / 4)).st == .empty) then fail .wrongState d s
  else if mode = 0 then
    if (List.range 128).any (fun u => let a := s.acq u; a.st != .none && a.par.mode != 3 && a.par.line == g) then fail .resourceBusy d s
    else .done .ok g 0 d.handle { s with groups := upd s.groups g fun o => { Group.reset with gen := nextGen o.gen } }
  else if d.handle ≠ 0 then
    .done .ok g 0 d.handle { s with groups := upd s.groups g fun o =>
      { x with gen := o.gen, late := o.late, dropped := o.dropped, fired := o.fired } }
  else match s.claimIdx 64 (fun i => !(nth s.groups i .reset).alloc) with
    | none => fail .noCapacity d s
    | some i =>
      let s := { s with groups := upd s.groups i fun o => { x with gen := o.gen } }
      .done .ok i 0 (s.handleOf 5 i) s

/-! ### Pin and group events -/

/-- TRIG_IO_EDGE (R378, R385): the ball has held a new level for 4 ns. -/
def execTrigIoEdge (pin : Fin 16) (level : Bool) (s : State) : Host.Outcome State Fault Refusal :=
  let n := pin.val
  let cfg := nth s.pins.cfg n 0
  let t := s.time.tb / unitNs * unitNs - cfg.toNat % 65536 * 100 * unitPs
  let old := s.pins.level.getLsbD n
  let s1 := { s with pins := { s.pins with level := setBit s.pins.level n level } }
  .next (
    if !s.pins.isTrigIn n || old == level then s1
    else if (nth s.pins.lastEdge n none).any fun l => decide (t < l + 16 * unitNs) then
      { s1 with pins := { s1.pins with merged := upd s1.pins.merged n fun c => satN 65535 (c + 1) } }
    else
      let s2 := { s1 with pins := { s1.pins with lastEdge := upd s1.pins.lastEdge n fun _ => some t } }
      let rising := level != cfg.getLsbD 31
      (List.range 512).foldl (fun s i =>
        let c := s.chan (i / 4)
        let k := nth c.cond (i % 4) .off
        if c.emits && k.type = 7 && k.s1 = n && bit k.s2 (if rising then 0 else 1) then
          let d := max 1 c.fe.d
          s.condHit (i / 4) (i % 4) (ceilDiv ((s.stream c.stream).indexAt t) d * d)
        else s) s2)

/-- TRIGGER_DECISION (R396). -/
def execTriggerDecision (g : Fin 64) (s : State) : Host.Outcome State Fault Refusal := .next (s.decideGroup g.val)

/-- TRIG_IO_TIMED_DRIVE (R380): the first queued pulse's instant comes. -/
def execTrigIoTimedDrive (pin : Fin 16) (s : State) : Host.Outcome State Fault Refusal :=
  .next (match nth s.pins.queue pin.val [] with
    | [] => s
    | due :: rest =>
      let s := s.untilTb due
      ({ s with pins := { s.pins with queue := upd s.pins.queue pin.val fun _ => rest } }).drivePin pin.val)

/-- TRIG_IO_PULSE_END (R381). -/
def execTrigIoPulseEnd (pin : Fin 16) (s : State) : Host.Outcome State Fault Refusal :=
  .next (match nth s.pins.pulseEnd pin.val none with
    | none => s
    | some e =>
      let s := s.untilTb e
      ({ s with pins := { s.pins with pulseEnd := upd s.pins.pulseEnd pin.val fun _ => none } }).emit
        (.pin pin.val ((nth s.pins.cfg pin.val 0).getLsbD 31)))

end Sys2Proof.Machine
end

