-- ==== Sys2Proof/Machine/Frames.lean ====
section
/-! DEFINITION. Frames, their spectra and what each spectrum goes to (R21, R257–R262, R278–R288, R367, R373). -/

namespace Sys2Proof.Machine

/-! ### MASK conditions (R373, R389) -/

/-- Bins of a mask that a spectrum violates. -/
def maskViolations (upper lower : Bool) (base : Nat) (segs : List Seg) (x : Spectrum) : Nat :=
  sumN (segs.map fun g => ((x.window (base + g.first) g.count).filter fun z =>
    let v := lambda (power z) (2 * x.e)
    (upper && g.upper != 0x7FFF && decide (g.upper < v)) || (lower && g.lower != -32768 && decide (v < g.lower))).length)

/-- MASK conditions see a spectrum (R367). -/
def State.maskConditions (s : State) (ch : Nat) (x : Spectrum) : State :=
  (List.range 4).foldl (fun s l =>
    let c := s.chan ch
    let k := nth c.cond l .off
    if k.type = 3 then
      let (base, segs) := (nth c.mask l .empty).active
      let t := decide (bits k.u1.toNat 15 0 + 1 ≤ maskViolations (bit k.s1 0) (bit k.s1 1) base segs x)
      let skip := Flags.has x.flags (fFill ||| fPoison ||| fGap) || (k.skipCal && Flags.has x.flags fCalOn)
      s.evalCond ch l (x.m * c.sp.h * c.fe.d) (if skip then none else some (t, !t))
    else s) s

/-- A spectrum leaves the engine: products, planes, conditions, sweep units, calibration (R21). -/
def State.emitSpectrum (s : State) (ch : Nat) (x : Spectrum) : State :=
  let s := s.setChan ch fun c => { c with spec := some x }
  ((((s.products ch x).densities ch x).maskConditions ch x).sweepSpectrum ch x).calSpectrum ch x

/-! ### Frames (R257–R262, R278, R281, R285–R287) -/

/-- The outputs of frame m, when all W are there. -/
def Chan.frameOf (c : Chan) (m : Nat) : Option (List OutSmp) :=
  let f := c.outs.filter fun o => decide (m * c.sp.h ≤ o.j) && decide (o.j < m * c.sp.h + c.sp.span)
  if f.length = c.sp.span then some f else none

/-- Pipe of frame m: the (m mod g)-th of the channel's set (R257). -/
def SpecSet.pipeOf (p : SpecSet) (m : Nat) : Nat :=
  let set := (List.range 16).filter fun i => p.pipes.getLsbD i
  (set[m % max 1 set.length]?).getD 0

/-- Words of the working store: 16 + 16 bits, I first. -/
def storeWords (l : List Cx) : List Byte := pack (l.flatMap fun z => [(2, twos 16 z.1), (2, twos 16 z.2)])

/-- A large transform fills the channel's working store with u, then with Y (R278). -/
def State.storeWrite (s : State) (ch : Nat) (lost : List Nat) (u : List Cx) : State :=
  let p := (s.chan ch).sp
  let i := hIdx p.region
  let s := s.putBytes i 0 (storeWords u)
  s.putBytes i (4 * 2 ^ p.l) (storeWords ((largeFirst p.l lost u).flatMap (·.1)))

/-- Transform of a frame, and the working store's new contents. `lost` are codewords of 8 samples that read as zero (R281). -/
def State.transform (s : State) (ch : Nat) (lost : List Nat) (u : List Cx) : (List Cx × Nat) × State :=
  let l := (s.chan ch).sp.l
  if l ≤ 16 then (inPipe l u, s) else (largeTransform l lost u, s.storeWrite ch lost u)

/-- The next frame goes to the transform and its spectrum out; withheld with SUPPRESS_FILL when it holds a FILL output (R286). -/
def State.frameDone (s : State) (ch : Nat) (lost : List Nat) : State :=
  let c := s.chan ch
  let m := c.nextSpec
  match c.frameOf m with
  | none => s
  | some f =>
    let s := s.densTurn ch m
    let flags := orAll (f.map (·.smp.flags))
    let last := m * c.sp.h + c.sp.span - 1
    let s := s.setChan ch fun c =>
      { c with nextSpec := m + 1, outs := c.outs.filter fun o => decide ((m + 1) * c.sp.h ≤ o.j) }
    if c.supFill && flags.has fFill then s
    else
      let (r, s) := s.transform ch lost (c.sp.frame (f.map fun o => (o.smp.re, o.smp.im)))
      let cls := s.calClass ch m
      let x : Spectrum := { m := m, bins := r.1, e := r.2, fgen := c.fgen, cgen := ((f.getLast?).map (·.cgen)).getD 0
                            flags := flags ||| fIf (cls == 1 || cls == 3) fCalOn ||| fIf (!lost.isEmpty) fPoison
                            nco := ((f.head?).map (·.nco)).getD 0, cls := cls, jidx := s.sec.jNext - 1, tab := c.cal.tabAt last }
      s.emitSpectrum ch x

/-- Frames that hold all their outputs go out (R262): at most as many as there are outputs. -/
def State.flushGo (ch : Nat) : Nat → State → State
  | 0, s => s
  | n + 1, s => if ((s.chan ch).frameOf (s.chan ch).nextSpec).isNone then s else State.flushGo ch n (s.frameDone ch [])

def State.flushFrames (s : State) (ch : Nat) : State :=
  if (s.chan ch).emits && (s.chan ch).sp.type != 0 then State.flushGo ch (s.chan ch).outs.length s else s

/-- When an in-pipe frame of the channel waits on pipe p: the tick of its last output (R258). -/
def State.frameWaits (s : State) (p ch : Nat) : Option Nat :=
  let c := s.chan ch
  if c.emits && c.sp.type != 0 && c.sp.l ≤ 16 && c.sp.pipeOf c.nextSpec == p then
    (c.frameOf c.nextSpec).bind fun f => f.getLast?.map (·.tm)
  else none

/-- The frame that pipe p serves next: the first to be complete, of equal ones that of the lowest channel (R258). -/
def State.pipeNext (s : State) (p : Nat) : Option Nat :=
  let w := (List.range 128).filterMap fun i => (s.frameWaits p i).map fun t => (t, i)
  (w.foldl (fun (b : Option (Nat × Nat)) x => match b with
    | some y => if x.1 < y.1 then some x else some y
    | none => some x) none).map (·.2)

/-- The pipe serves the frames ahead of the channel's next one (R258). -/
def State.serveAhead (p ch : Nat) : Nat → State → State
  | 0, s => s
  | n + 1, s => match s.pipeNext p with
    | some i => if i = ch then s else State.serveAhead p ch n (s.frameDone i [])
    | none => s

/-- Outputs that wait for their frames, on every channel. -/
def State.outsWaiting (s : State) : Nat := sumN (s.chans.toList.map fun c => c.outs.length)

end Sys2Proof.Machine
end

