-- ==== Sys2Proof/Machine/ChanState.lean ====
section
/-! DEFINITION. Transitions of a channel between its states and what each does to the objects that read it (R96–R99, R157, R201, R221,
R249–R252, R262, R369, R433, R448). -/

namespace Sys2Proof.Machine

/-! ### Beginning (R98, R215, R221, R234, R260, R369) -/

/-- Begin at input k0 with zeroed filter and transform state. A word pending for an index that has passed takes effect now (R227). -/
def Chan.begin_ (c : Chan) (k0 : Nat) (sup : Bool) : Chan :=
  let c := { c with nco := (c.tuneQ.getLast?.map fun (w : Int × Nat) => w.1).getD c.nco, tuneQ := [] }
  let c := match c.tune with
    | some (f, kr) => if kr < k0 then { c with nco := f, tune := none } else c
    | none => c
  let j0 := ceilDiv k0 (max 1 c.fe.d)
  { c.clearProducts.rearm with
    st := .running, waiting := false, supFill := sup, startAt := k0, stopAt := 0, shut := false, phase := 0, tuneFrom := none, inq := []
    lint := [], stages := c.fe.stages.map fun _ => [], fdlLine := [], fillLeft := c.fe.fillCount, fdlFill := 0, delayStep := false
    outs := [], nextOut := j0, lastOut := none, drainAt := none, det := .reset, nextSpec := ceilDiv j0 (max 1 c.sp.h), spec := none }

/-- A channel begins; its sweep units restart at their next spectrum (R433). -/
def State.chanBegin (s : State) (ch k0 : Nat) (sup : Bool) : State :=
  (s.setChan ch fun c => c.begin_ k0 sup).sweepBreak ch

/-! ### Leaving -/

/-- A pending FIRE of a channel that leaves RUNNING cannot come (R387, R388, log entry 21). -/
def State.dropFires (s : State) (ch : Nat) : State :=
  (List.range 4).foldl (fun s l =>
    (nth (s.chan ch).cond l .off).fires.foldl (fun s f => s.finish f.2.val .wrongState 0 0)
      (s.setChan ch fun c => { c with cond := upd c.cond l fun k => { k with fires := [] } })) s

/-- The channel is no longer RUNNING: snapshots that wait are taken, fires end, its calibration period is discarded (R328, R339). -/
def State.leaveRunning (s : State) (ch : Nat) : State :=
  let s := (s.densLeave ch).dropFires ch
  if (s.chan ch).cal.on then s.calRestart ((s.chan ch).cal.refOf ch) else s

/-- Close every record in progress of a channel, once the frames that hold all their outputs have gone out (R262, R307, R448). -/
def State.closeChan (s : State) (ch : Nat) (extra : Flags) : State :=
  (((s.flushFrames ch).cutProducts ch extra).closeChanRecords ch extra).flushDet ch (fTruncated ||| extra)

/-- CHAN_STOP commands that wait for STOPPED complete (R99). -/
def State.stopsDone (s : State) (ch : Nat) : State :=
  (s.ringsWaiting fun f => f.stage == .drain && f.op == .chanStop && hIdx f.d.handle == ch).foldl (fun s r => s.finish r .ok 0 0) s

/-- Withdraw a waiting CHAN_START or CHAN_RESUME with a status (R99). -/
def State.withdrawStart (s : State) (ch : Nat) (st : Status) (only : Option Op) : State :=
  let mine := fun (f : Inflight) => f.stage == .power && (f.op == .chanStart || f.op == .chanResume) && hIdx f.d.handle == ch && only.all (· == f.op)
  let rings := s.ringsWaiting mine
  if rings.isEmpty then s
  else
    let s := ((s.dequeue (.chan ch)).setGrant (.chan ch) 0).setChan ch fun c => { c with waiting := false }
    rings.foldl (fun s r => s.finish r st 0 0) s

/-- Enter STOPPED: the grant is released (R96, R602). -/
def State.enterStopped (s : State) (ch : Nat) (extra : Flags) : State :=
  let s := s.closeChan ch extra
  let s := s.setChan ch fun c => { c with st := .stopped, drainAt := none, outs := [], inq := [], grant := if c.waiting then c.grant else 0 }
  ((s.sweepBreak ch).stopsDone ch).withdrawStart ch .wrongState (some .chanResume)

/-- Enter HALTED (R96, R97, R252). A CHAN_STOP that waits for the drain completes. -/
def State.enterHalted (s : State) (ch : Nat) (extra : Flags) : State :=
  let s := s.flushFrames ch
  let s := if (s.chan ch).st = .running then s.leaveRunning ch else s
  let s := s.closeChan ch extra
  let s := s.setChan ch fun c => { c with st := .halted, drainAt := none, outs := [], inq := [], grant := 0 }
  (s.sweepBreak ch).stopsDone ch

/-- The stream goes down, or PLL_S lock is lost: RUNNING starves, DRAINING stops (R96, R201). -/
def State.starveChan (s : State) (ch : Nat) (extra : Flags) : State :=
  match (s.chan ch).st with
  | .running =>
    let s := ((s.flushFrames ch).leaveRunning ch).closeChan ch extra
    (s.setChan ch fun c => { c with st := .starved, outs := [], inq := [] }).sweepBreak ch
  | .draining => s.enterStopped ch extra
  | _ => s

/-- Channels of a stream. -/
def State.chansOf (s : State) (stream : Nat) : List Nat :=
  (List.range 128).filter fun i => (s.chan i).st != .empty && (s.chan i).stream == stream

/-- An epoch meets a DRAINING channel: it takes no input under the new indices, and drains what it has (R251, Races). -/
def State.epochDrain (s : State) (ch : Nat) : State :=
  let c := s.chan ch
  let e := ((c.inq.getLast?.map (·.idx)).getD 0) / max 1 c.fe.d * c.fe.d
  if c.inq.isEmpty || e < c.nextOut * c.fe.d then s.enterStopped ch 0
  else s.setChan ch fun c => { c with shut := true, drainAt := some e }

/-- An epoch reset reaches a channel (R157): a pending word takes effect, open records close; with its stream running again it begins at 0. -/
def State.epochChan (s : State) (ch : Nat) (sup live : Bool) : State :=
  let c := s.chan ch
  if c.st = .draining then s.epochDrain ch
  else if !(c.st = .running || c.st = .starved) then s
  else
    let s := { s with pair := { s.pair with passed := setBit s.pair.passed ch true } }
    let s := (if c.st = .running then s.closeChan ch 0 else s).densEpoch ch
    let s := s.setChan ch fun c =>
      let c := { c with nco := (c.tuneQ.getLast?.map fun (w : Int × Nat) => w.1).getD c.nco, tuneQ := [] }
      match c.tune with
      | some (f, _) => { c with nco := f, tune := none }
      | none => c
    let s := (if c.cal.on then s.calEpoch ch else s).sweepEpoch ch
    if live then s.chanBegin ch 0 sup else s

end Sys2Proof.Machine
end

