-- ==== Sys2Proof/Machine/Placement.lean ====
section
/-! DEFINITION. Placement of channels on filter engines and of transforms on pipes, and what they cost (R22–R37, R209, R210, R255, R256,
R603, R604). -/

namespace Sys2Proof.Machine

def giga : Nat := 1000000000

/-- Engine consumption of a channel of a stream, input samples/s (R22). -/
def Stream.load (x : Stream) : Nat := x.par.fs * x.par.m

def engineCount (s : State) : Nat := if s.ident.small then 4 else 8
def pipeCount (s : State) : Nat := if s.ident.small then 8 else 16

/-- Channels on an engine. -/
def State.onEngine (s : State) (e : Nat) : List Nat :=
  (List.range 128).filter fun i => (s.chan i).st != .empty && (s.chan i).engines.getLsbD e

/-- Place a channel of consumption c: its engines and slot (R24, R25, R33, R210). -/
def State.placeEngine (s : State) (c : Nat) : Option (List Nat × Nat) :=
  if c ≤ 16 * giga then
    (List.range (engineCount s)).findSome? fun e =>
      let on := s.onEngine e
      let used := sumN (on.map fun i => let l := (s.stream (s.chan i).stream).load; if 16 * giga < l then 16 * giga else l)
      let slot := (List.range 16).find? fun k => !(on.any fun i => (s.chan i).slot == k)
      match slot with
      | some k => if used + c ≤ 16 * giga && !(on.any fun i => decide (16 * giga < (s.stream (s.chan i).stream).load)) then some ([e], k) else none
      | none => none
  else
    let g := ceilDiv c (16 * giga)
    let free := (List.range (engineCount s)).filter fun e => (s.onEngine e).isEmpty
    if g ≤ 4 && g ≤ free.length then some (free.take g, 0) else none

def maskOf (l : List Nat) : Nat := sumN (l.map fun i => 2 ^ i)

/-! ### Pipes. Consumption is exact: (numerator, D) with N/H = 2^h. -/

/-- Store a transform claims per pipe, samples (R255). -/
def SpecSet.storeUse (p : SpecSet) : Nat := if 17 ≤ p.l then 4096 else p.span + p.h

/-- Pipe consumption f_s·N/H (R28). -/
def pipeUse (fs d : Nat) (p : SpecSet) : Rat := (fs : Rat) * (2 ^ p.l : Nat) / (max 1 p.h * max 1 d : Nat)

def State.chanPipeUse (s : State) (i : Nat) : Rat :=
  let c := s.chan i
  pipeUse (s.stream c.stream).par.fs c.fe.d c.sp

/-- The transforms that a channel holds room for, each with its decimation: its own, and those that commands have claimed for it (R35, R36). -/
def Chan.transforms (c : Chan) : List (SpecSet × Nat) :=
  ((c.sp, c.fe.d) :: c.claims.map fun k => (k.sp, k.d)).filter fun p => p.1.type != 0

/-- The transforms of a channel on pipe p. -/
def State.onPipeOf (s : State) (i p : Nat) : List (SpecSet × Nat) := (s.chan i).transforms.filter fun x => x.1.pipes.getLsbD p

/-- What a channel holds of a pipe's throughput and of its store: the most that one of its transforms there needs. -/
def State.pipeHeld (s : State) (i p : Nat) : Rat :=
  (s.onPipeOf i p).foldl (fun m x => max m (pipeUse (s.stream (s.chan i).stream).par.fs x.2 x.1)) 0
def State.storeHeld (s : State) (i p : Nat) : Nat := (s.onPipeOf i p).foldl (fun m x => max m x.1.storeUse) 0

/-- Channels on a pipe, other than `ch`. -/
def State.onPipe (s : State) (ch p : Nat) : List Nat :=
  (List.range 128).filter fun i => i != ch && !(s.onPipeOf i p).isEmpty

/-- Place a channel's transform (R29–R31, R33, R256). -/
def State.placePipe (s : State) (ch : Nat) (use : Rat) (store : Nat) : Option (List Nat) :=
  if (4 * 4 * giga : Nat) < use || 1572864 < store then none
  else if use ≤ (4 * giga : Nat) then
    ((List.range (pipeCount s)).find? fun p =>
      let on := s.onPipe ch p
      let used := on.foldl (fun a i => a + s.pipeHeld i p) (0 : Rat)
      decide (on.length < 16) && decide (used + use ≤ (4 * giga : Nat)) && !(on.any fun i => decide ((4 * giga : Nat) < s.pipeHeld i p)) &&
        decide (sumN (on.map fun i => s.storeHeld i p) + store ≤ 1572864)).map fun p => [p]
  else
    let g := (use / (4 * giga : Nat)).ceil.toNat
    let free := (List.range (pipeCount s)).filter fun p => (s.onPipe ch p).isEmpty
    if g ≤ free.length then some (free.take g) else none

/-- Input rate that a channel holds of the large transforms. -/
def State.largeHeld (s : State) (i : Nat) : Rat :=
  ((s.chan i).transforms.filter fun x => decide (17 ≤ x.1.l)).foldl
    (fun m x => max m (((s.stream (s.chan i).stream).par.fs : Rat) / (max 1 x.2 : Nat))) 0

/-- Limit of all large-transform input together (R3, R32). -/
def largeLimit (s : State) : Nat := if s.ident.small then 8 * giga else 16 * giga

/-- The large transforms of the other channels leave room for one more of this input rate (R32). -/
def State.largeFits (s : State) (ch : Nat) (fs d : Nat) : Bool :=
  let others := ((List.range 128).filter (· != ch)).foldl (fun a i => a + s.largeHeld i) (0 : Rat)
  decide (others + (fs : Rat) / (max 1 d : Nat) ≤ (largeLimit s : Nat))

/-- Claim a transform's pipes for an output rate fs/d; none: NO_CAPACITY (R32, R35). -/
def State.claimPipe (s : State) (ch d : Nat) (p : SpecSet) : Option (List Nat) :=
  let fs := (s.stream (s.chan ch).stream).par.fs
  if 17 ≤ p.l && !s.largeFits ch fs d then none else s.placePipe ch (pipeUse fs d p) p.storeUse

/-- The same with the pipes entered; a channel without a transform needs none. -/
def State.placed (s : State) (ch d : Nat) (p : SpecSet) : Option SpecSet :=
  if p.type = 0 then some p else (s.claimPipe ch d p).map fun l => { p with pipes := BitVec.ofNat 16 (maskOf l) }

/-- A command's claim on a channel's behalf, with what it is to set. -/
def State.ownClaim (s : State) (ch ring : Nat) : Option ChanClaim := (s.chan ch).claims.find? fun k => k.ring == ring

/-- Enter a claim (R36): its pipes and its regions are the channel's from now. -/
def State.addClaim (s : State) (ch : Nat) (k : ChanClaim) : State :=
  (s.setChan ch fun c => { c with claims := (c.claims.filter fun y => y.ring != k.ring) ++ [k] }).syncWriters ch

/-- Power cost of a channel, mW (R603, R604). -/
def State.chanCost (s : State) (ch : Nat) : Nat :=
  let c := s.chan ch
  let x := s.stream c.stream
  let engine : Rat := if 16 * giga < x.load then (2800 * ceilDiv x.load (16 * giga) : Nat) else (2800 * x.load : Nat) / (16 * giga : Nat)
  let use := s.chanPipeUse ch
  let pipe : Rat := if c.sp.type = 0 then 0
    else if (4 * giga : Nat) < use then (3600 * (use / (4 * giga : Nat)).ceil.toNat : Nat) else 3600 * use / (4 * giga : Nat)
  let large : Rat := if c.sp.type ≠ 0 ∧ 17 ≤ c.sp.l then 7200 * ((x.par.fs : Rat) / (max 1 c.fe.d : Nat)) / (16 * giga : Nat) else 0
  (engine + pipe + large).floor.toNat

end Sys2Proof.Machine
end

