-- ==== Sys2Proof/Machine/Spectra.lean ====
section
/-! DEFINITION. Spectra and their consumers, CHAN_SPECTRAL, SPECTRUM_COMPLETE, LARGE_TRANSFORM_COMPLETE (R255–R293, R373). -/

namespace Sys2Proof.Machine

/-! ### The transform rows -/

/-- SPECTRUM_COMPLETE (R258, R283): the next in-pipe frame's spectrum, after those that its pipe serves before it. An uncorrectable error in
the pipe's store loses the frame and halts a RUNNING channel (R96). -/
def execSpectrumComplete (ch : Fin 128) (err : Bool) (s : State) : Host.Outcome State Fault Refusal :=
  let c := s.chan ch.val
  .next (
    if !c.emits || c.sp.type = 0 || 17 ≤ c.sp.l || (c.frameOf c.nextSpec).isNone then s
    else
      let p := c.sp.pipeOf c.nextSpec
      let s := State.serveAhead p ch.val s.outsWaiting s
      if err then
        let s := ((s.sramFault 0x11 p).densTurn ch.val c.nextSpec).setChan ch.val fun c => { c with nextSpec := c.nextSpec + 1 }
        if c.st = .running then s.enterHalted ch.val 0 else s
      else s.frameDone ch.val [])

/-- LARGE_TRANSFORM_COMPLETE (R284), with what its accesses to the working store met. -/
def execLargeTransformComplete (ch : Fin 128) (run : StoreRun) (s : State) : Host.Outcome State Fault Refusal :=
  let c := s.chan ch.val
  let bad := run.lost.eraseDups.filter fun w => decide (w < 2 ^ c.sp.l / 4)
  .next (
    if !c.emits || c.sp.type = 0 || c.sp.l < 17 || (c.frameOf c.nextSpec).isNone then s
    else ((s.storeFaults (hIdx c.sp.region) 2 bad).overrun 2 run.waits).frameDone ch.val bad)

/-! ### CHAN_SPECTRAL (R289–R292) -/

/-- A spectral product, plane, spectral condition or sweep unit is set on the channel, or a pair names it (R290, R312). -/
def State.hasConsumers (s : State) (ch : Nat) : Bool :=
  let c := s.chan ch
  c.pr.mask != 0 || ((List.range 128).any fun i => i != ch && (s.chan i).isX && (s.chan i).partnerIdx == some ch) ||
  (s.planes.toList.any fun p => p.chan == some ch) || (c.cond.toList.any fun k => inR k.type 3 6) ||
  (s.sweeps.toList.any fun u => u.claimed && u.chan == ch)

/-- The channel is X or Y of a pair. -/
def State.paired (s : State) (ch : Nat) : Bool :=
  (s.chan ch).isX || (List.range 128).any fun i => (s.chan i).isX && (s.chan i).partnerIdx == some ch

/-- Next filter generation (R247, R288). -/
def Chan.bump (c : Chan) : Chan := { c with fgen := nextGen c.fgen }

/-- A region another object writes (R100); a channel's own detector and working store are one object. -/
def State.busyFor (s : State) (i ch : Nat) : Bool :=
  let w := (s.region i).writer
  w != .none && w != .detector ch && w != .working ch

/-- The transform CHAN_SPECTRAL names, without user window and pipes. -/
def specOf (d : Desc) : SpecSet :=
  { type := d.u 0x08 1, l := d.u 0x09 1, h := 2 ^ d.u 0x09 1 / 2 ^ d.u 0x0A 1, win := d.u 0x0B 1
    region := if 17 ≤ d.u 0x09 1 then BitVec.ofNat 32 (d.u 0x0C 4) else 0, user := [], pipes := 0 }

/-- Fields in range (R263, R267, R268, R271, R289); R801 for what the type or L does not select. -/
def specOk (s : State) (d : Desc) : Bool :=
  let p := specOf d
  let hc := d.u 0x0A 1
  let user := p.type == 1 && p.win == 0x3F
  d.clean [(0x08, 20)] && inR p.type 1 2 && inR p.l 6 (if p.type = 1 then 22 else 16) &&
  hc ≤ (if p.type = 1 && p.l ≤ 16 then 3 else 1) &&
  (if p.type = 1 then p.win ≤ 6 || p.win == 0x3F else inR p.win 0x30 0x3D) &&
  (p.l < 17 || (p.region != 0 && (!s.valid 3 p.region || 16 * 2 ^ p.l ≤ (s.region (hIdx p.region)).bytes))) &&
  (!user || (d.u 0x18 4 == min (2 ^ p.l) 65536 && addrOk (d.u 0x10 8) (4 * d.u 0x18 4) 4))

/-- The set-up that a command claimed on ring `ring`, when it is still this one; else the pipes are claimed now (R35, R36). -/
def State.placedFor (s : State) (ch ring d : Nat) (p : SpecSet) : Option SpecSet :=
  match s.ownClaim ch ring with
  | some k =>
    if k.d = d && k.sp.type == p.type && k.sp.l == p.l && k.sp.h == p.h then some { p with pipes := k.sp.pipes } else s.placed ch d p
  | none => s.placed ch d p

/-- What CHAN_SPECTRAL checks and claims after its fields (R290): the transform with its pipes. -/
def spectralClaim (d : Desc) (s : State) : Except Status SpecSet :=
  let ch := hIdx d.handle
  let c := s.chan ch
  let p := specOf d
  if 17 ≤ p.l && !s.valid 3 p.region then .error .badHandle
  else if (17 ≤ p.l && s.busyFor (hIdx p.region) ch) || ((c.sp.type != p.type || c.sp.l != p.l || c.sp.h != p.h) && s.hasConsumers ch) ||
      (s.paired ch && (p.win != c.sp.win || p.win == 0x3F)) then .error .resourceBusy
  else match s.placedFor ch d.ring.val c.fe.d p with
  | none => .error .noCapacity
  | some p => .ok p

/-- A channel's new transform; the command's claim has become the channel's own. -/
def State.setTransform (s : State) (ch ring : Nat) (p : SpecSet) : State :=
  (s.setChan ch fun c => { c.bump with sp := p, claims := c.claims.filter fun k => k.ring != ring }).syncWriters ch

/-- The rest of CHAN_SPECTRAL with its claim and its user window. -/
def chanSpectralSet (d : Desc) (p : SpecSet) (user : List Int) (s : State) : Verdict :=
  let ch := hIdx d.handle
  let c := s.chan ch
  let p := { p with user := user }
  let use := pipeUse (s.stream c.stream).par.fs c.fe.d p
  .done .ok ((use / 1000000).floor.toNat % 65536) (ceilDiv p.storeUse 1024 % 65536 * 65536 + p.pipes.toNat) d.handle
    (s.setTransform ch d.ring.val p)

/-- CHAN_SPECTRAL checks and claims all that its parameters name before it reads a user window (R36, R65). -/
def chanSpectralBody (d : Desc) (s : State) : Verdict :=
  let ch := hIdx d.handle
  let c := s.chan ch
  if c.st ≠ .stopped then fail .notStopped d s
  else if d.u 0x08 1 = 0 then
    if !d.clean [(0x08, 20)] then fail .badParam d s
    else if s.hasConsumers ch then fail .resourceBusy d s
    else .done .ok 0 0 d.handle (s.setTransform ch d.ring.val .off)
  else if !specOk s d then fail .badParam d s
  else match spectralClaim d s with
  | .error st => fail st d s
  | .ok p =>
    if d.u 0x08 1 = 1 && d.u 0x0B 1 = 0x3F then
      readBuffer d (d.u 0x10 8) (4 * d.u 0x18 4) (s.addClaim ch ⟨d.ring.val, p, c.fe.d, c.fe.detRegion⟩)
    else chanSpectralSet d p [] s

/-- Coefficient words of R237: Q1.17 in bits [17:0], sign repeated. -/
def coefWords (buf : List Byte) : List Int := (words32 buf).map fun v => sx 32 v

def coefsOk (l : List Int) : Bool := l.all fun v => inZ v (-131072) 131071

/-- The channel that a waiting command names is still there and STOPPED. -/
def stillStopped (d : Desc) (s : State) : Option Status :=
  if !s.valid 2 d.handle then some .badHandle else if (s.chan (hIdx d.handle)).st ≠ .stopped then some .notStopped else none

/-- The user window of CHAN_SPECTRAL has come. -/
def chanSpectralData (d : Desc) (buf : List Byte) (s : State) : Verdict :=
  if !coefsOk (coefWords buf) then fail .badParam d s
  else match stillStopped d s, spectralClaim d s with
  | some st, _ | none, .error st => fail st d s
  | none, .ok p => chanSpectralSet d p (coefWords buf) s

end Sys2Proof.Machine
end

