-- ==== Sys2Proof/Machine/Channels.lean ====
section
/-! DEFINITION. The channel commands and the events of the front end (R96–R99, R213–R227, R243–R252). -/

namespace Sys2Proof.Machine

/-! ### CHAN_CREATE, CHAN_DESTROY -/

/-- Smallest D with an output rate of at most 16 GS/s (R214). -/
def defaultD (fs : Nat) : Nat := ((List.range 17).map (2 ^ ·)).find? (fun d => decide (fs ≤ 16 * giga * d)) |>.getD 1

def chanCreateBody (d : Desc) (s : State) : Verdict :=
  let i := hIdx d.handle
  let x := s.stream i
  if x.st = .held then fail .wrongState d s
  else if !d.clean [] then fail .badParam d s
  else match s.claimIdx (if s.ident.small then 64 else 128) (fun k => (s.chan k).st == .empty), s.placeEngine x.load with
  | some k, some (es, slot) =>
    let mask := maskOf es
    let s := s.setChan k fun c => { Chan.reset with
      gen := c.gen, st := .stopped, stream := i, engines := BitVec.ofNat 8 mask, slot := slot, order := s.created, fgen := 1
      fe := .default (defaultD x.par.fs) }
    let s := { s with created := s.created + 1 }
    .done .ok ((es.headD 0) * 256 + slot) (4 * slot * 256 + mask) (s.handleOf 2 k) s
  | _, _ => fail .noCapacity d s

/-- The channel that a region's records come from (R510). -/
def State.regionSource (s : State) (i : Nat) : Option Nat :=
  match (s.region i).writer with
  | .detector ch | .working ch | .calTab ch => some ch
  | .density p => (s.plane p).chan
  | .sweepCand u | .sweepHist u => some (nth s.sweeps u .reset).chan
  | .acq u => if (s.acq u).par.source = 1 then none else some (s.acq u).par.srcIdx
  | _ => none

/-- Something else still reads the channel: a pair's X, a trigger group, an acquisition unit, a group member, a sweep unit, a measurement processor (R312,
R359, R405, R435, R467, R510). -/
def State.chanUsed (s : State) (ch : Nat) : Bool :=
  ((List.range 128).any fun i => i != ch && (s.chan i).isX && (s.chan i).partnerIdx == some ch) ||
  (s.groups.toList.any fun g => g.alloc && g.inputs.any fun n => n / 4 == ch) ||
  !(s.acqsOf 2 ch ++ s.acqsOf 3 ch).isEmpty ||
  ((s.chan ch).cal.on && (s.chan ch).cal.ref == 0 && decide (1 < (s.calGroup ch).length)) ||
  (s.sweeps.toList.any fun u => u.claimed && u.chan == ch) ||
  (s.mps.toList.any fun m => m.st == .running && s.regionSource (hIdx m.inReg) == some ch)

/-- Free a channel: its claims, planes, calibration, regions, grant and handle (R37, R92, R95). -/
def State.chanFree (s : State) (ch : Nat) : State :=
  let s := s.withdrawStart ch .badHandle none
  let s := (List.range 8).foldl (fun s p => if (s.plane p).chan = some ch then s.freePlane p .badHandle else s) s
  let s := if (s.chan ch).cal.on then s.calLeave ch else s
  (s.setChan ch fun c => { Chan.reset with gen := nextGen c.gen }).syncWriters ch

def chanDestroyBody (d : Desc) (s : State) : Verdict :=
  let ch := hIdx d.handle
  if (s.chan ch).emits then fail .notStopped d s
  else if !d.clean [] then fail .badParam d s
  else if s.chanUsed ch then fail .resourceBusy d s
  else .done .ok 0 0 d.handle (s.chanFree ch)

/-! ### CHAN_TUNE (R224–R227) -/

/-- CHAN_TUNE. Of what lies ahead, the next input is one sample ahead (R225, log entry 73). -/
def chanTuneBody (d : Desc) (s : State) : Verdict :=
  let ch := hIdx d.handle
  let c := s.chan ch
  let f := dInt d 0x08 6
  let kr := d.u 0x10 8
  let at? := dBit d 0x18 0
  let now := ((s.stream c.stream).next).getD 0
  let replaced := b2n c.tune.isSome
  if c.st = .draining then fail .wrongState d s
  else if !d.clean [(0x08, 6), (0x10, 9)] || 1 < d.u 0x18 1 then fail .badParam d s
  else if at? && c.st = .running && (decide (kr < now) || decide (2 ^ 40 + now ≤ kr)) then fail .badParam d s
  else if at? then .done .ok replaced 0 d.handle (s.setChan ch fun c => { c with tune := some (f, kr) })
  else if c.st = .running then .done .ok replaced (now % 2 ^ 32) d.handle (s.setChan ch fun c => { c with tune := none, tuneQ := c.tuneQ ++ [(f, now)] })
  else .done .ok replaced 0 d.handle (s.setChan ch fun c => { c with nco := f, tune := none, tuneQ := [] })

/-! ### CHAN_FILTER (R236, R237, R245–R247) -/

/-- The set-up CHAN_FILTER names; a field that nothing selects keeps a fixed value (R801). -/
def feOf (d : Desc) (bank : List Int) : FeSet :=
  let w := d.u 0x0A 1
  let r := d.u 0x0B 1
  let k := d.u 0x18 1
  { d := 2 ^ d.u 0x08 1, shaping := d.u 0x09 1, lintW := w, lintR := if r = 255 then (w - 1) / 2 else r, fdl := d.u 0x0C 1
    scale := d.u 0x0D 1, tau := d.u 0x0E 2, gRe := dInt d 0x10 4, gIm := dInt d 0x14 4, detK := k, attack := d.u 0x19 1
    decay := d.u 0x1A 1, detRegion := if k = 0 then 0 else BitVec.ofNat 32 (d.u 0x1C 4), bank := bank }

def feOk (fs : Nat) (d : Desc) : Bool :=
  let e := d.u 0x08 1
  let sh := d.u 0x09 1
  let w := d.u 0x0A 1
  let k := d.u 0x18 1
  d.clean [(0x08, 19), (0x1C, 14)] && e ≤ 16 && fs ≤ 16 * giga * 2 ^ e &&
  (sh == 0x3F || e == 0 || sh == 0x10 || sh == 0x11 || sh == 0x18 || sh == 0x19) &&
  (w == 0 || w == 3 || w == 5 || w == 7 || w == 9) && (w == 0 || d.u 0x0B 1 == 255 || d.u 0x0B 1 < w) &&
  (d.u 0x0C 1 == 0 || inR (d.u 0x0C 1) 0x20 0x22) && d.u 0x0D 1 ≤ 7 &&
  inZ (dInt d 0x10 4) (-131072) 131071 && inZ (dInt d 0x14 4) (-131072) 131071 &&
  (k == 0 || (inR k 6 24 && d.u 0x19 1 ≤ 15 && d.u 0x1A 1 ≤ 15)) &&
  (sh != 0x3F || (inR (d.u 0x28 2) 1 256 && addrOk (d.u 0x20 8) (4 * d.u 0x28 2) 4))

/-- What CHAN_FILTER checks and claims after its fields (R246): the channel's transform with the pipes for the new D. -/
def filterClaim (d : Desc) (s : State) : Except Status SpecSet :=
  let ch := hIdx d.handle
  let c := s.chan ch
  let f := feOf d []
  if f.detRegion ≠ 0 && !s.valid 3 f.detRegion then .error .badHandle
  else if f.detRegion ≠ 0 && s.busyFor (hIdx f.detRegion) ch then .error .resourceBusy
  else match if f.d = c.fe.d then some c.sp else s.placedFor ch d.ring.val f.d c.sp with
  | none => .error .noCapacity
  | some p => .ok p

/-- The rest of CHAN_FILTER with its claim and its user bank. -/
def chanFilterSet (d : Desc) (p : SpecSet) (bank : List Int) (s : State) : Verdict :=
  let ch := hIdx d.handle
  let f := feOf d bank
  .done .ok (f.fillCount % 65536) (f.delay % 2 ^ 32) d.handle
    ((s.setChan ch fun c => { c with fe := f, det := .reset }).setTransform ch d.ring.val p)

/-- CHAN_FILTER checks and claims all that its parameters name before it reads a user bank (R36, R65). -/
def chanFilterBody (d : Desc) (s : State) : Verdict :=
  let ch := hIdx d.handle
  let c := s.chan ch
  if c.st ≠ .stopped then fail .notStopped d s
  else if !feOk (s.stream c.stream).par.fs d then fail .badParam d s
  else match filterClaim d s with
  | .error st => fail st d s
  | .ok p =>
    if d.u 0x09 1 = 0x3F then
      readBuffer d (d.u 0x20 8) (4 * d.u 0x28 2) (s.addClaim ch ⟨d.ring.val, p, (feOf d []).d, (feOf d []).detRegion⟩)
    else chanFilterSet d p [] s

/-- The user bank of CHAN_FILTER has come. -/
def chanFilterData (d : Desc) (buf : List Byte) (s : State) : Verdict :=
  if !coefsOk (coefWords buf) then fail .badParam d s
  else match stillStopped d s, filterClaim d s with
  | some st, _ | none, .error st => fail st d s
  | none, .ok p => chanFilterSet d p (coefWords buf) s

/-! ### CHAN_START, CHAN_RESUME (R248–R250) -/

/-- The channel begins once its grant is held: RUNNING at the later of the start index and the next input, or STARVED. -/
def chanStartGrant (d : Desc) (s : State) : Verdict :=
  let ch := hIdx d.handle
  let x := s.stream (s.chan ch).stream
  match x.st, x.next with
  | .up, some k =>
    let at? := dBit d 0x10 0
    let idx := d.u 0x08 8
    let late := at? && decide (idx < k)
    let s := s.closeChanRecords ch 0
    .done .ok (b2n late) 0 d.handle (s.chanBegin ch (if at? && !late then idx else k) (dBit d 0x10 1))
  | _, k => .done .ok (b2n (dBit d 0x10 0 && k.any fun n => decide (d.u 0x08 8 < n))) 0 d.handle (s.setChan ch fun c => { c with st := .starved, waiting := false, supFill := dBit d 0x10 1 })

def startBody (want : ChanSt) (d : Desc) (s : State) : Verdict :=
  let ch := hIdx d.handle
  let c := s.chan ch
  if c.st ≠ want || c.waiting then fail .wrongState d s
  else if !d.clean [(0x08, 9)] || 3 < d.u 0x10 1 then fail .badParam d s
  else .need (.chan ch) 1 (s.chanCost ch) d.handle (s.setChan ch fun c => { c with waiting := true }) (chanStartGrant d)

def chanStartBody (d : Desc) (s : State) : Verdict := startBody .stopped d s
def chanResumeBody (d : Desc) (s : State) : Verdict := startBody .halted d s

/-! ### CHAN_STOP (R96, R99, R251) -/

def chanStopBody (d : Desc) (s : State) : Verdict :=
  let ch := hIdx d.handle
  let c := s.chan ch
  if !d.clean [] then fail .badParam d s
  else match c.st with
  | .running =>
    let x := s.stream c.stream
    let k := x.next.getD 0
    .wait .drain d.handle ((s.leaveRunning ch).setChan ch fun c =>
      { c with st := .draining, stopAt := k, drainAt := some (ceilDiv k (max 1 c.fe.d) * c.fe.d) })
  | .draining => .wait .drain d.handle s
  | .starved | .halted => .done .ok 0 0 d.handle (s.enterStopped ch 0)
  | _ => .done .ok 0 0 d.handle s

/-! ### Events -/

/-- CHANNEL_OUTPUT (R215): the next output. An uncorrectable error in the channel's state gives none: a RUNNING channel halts, a
DRAINING one has drained (R96, R252). -/
def execChannelOutput (ch : Fin 128) (err : Bool) (s : State) : Host.Outcome State Fault Refusal :=
  let c := s.chan ch.val
  .next (if err && c.emits then
      let s := s.sramFault 0x10 (Nat.log2 c.engines.toNat)
      if c.st = .running then s.enterHalted ch.val 0 else s.enterStopped ch.val fTruncated
    else s.channelOutput ch.val)

/-- RETUNE_APPLY (R222): a pending word takes effect at its input sample; the inputs before it are taken first. -/
def execRetuneApply (ch : Fin 128) (s : State) : Host.Outcome State Fault Refusal :=
  .next (
    let c := s.chan ch.val
    match c.tune with
    | some (_, kr) =>
      if c.st = .running && ((s.stream c.stream).next.any fun n => decide (kr < n)) && (c.dueIndex.all fun x => decide (kr ≤ x)) then
        s.setChan ch.val fun c => (takeBefore kr c.inq c).retune kr
      else s
    | none => s)
where
  /-- Take the inputs before index kr. -/
  takeBefore (kr : Nat) : List InSmp → Chan → Chan
    | [], c => { c with inq := [] }
    | x :: r, c => if x.idx < kr then takeBefore kr r (c.takeInput x).1 else { c with inq := x :: r }

/-- DETECTOR_WINDOW_END (R243): the results of the window that has ended are recorded and evaluated. -/
def execDetectorWindowEnd (ch : Fin 128) (s : State) : Host.Outcome State Fault Refusal := .next (s.windowEnd ch.val)

/-- CHANNEL_DRAIN_DONE (R96): the last output in flight has been written and no complete frame is left; DRAINING → STOPPED. -/
def execChannelDrainDone (ch : Fin 128) (s : State) : Host.Outcome State Fault Refusal :=
  let c := s.chan ch.val
  .next (if c.st = .draining && c.dueIndex.isNone && (c.sp.type = 0 || (c.frameOf c.nextSpec).isNone) then s.enterStopped ch.val 0 else s)

end Sys2Proof.Machine
end

