-- ==== Sys2Proof/Machine/Integrity.lean ====
section
/-! DEFINITION. MEM_RETIRE, LOG_READ, LOG_CLEAR, the Darner and the partial writes (R552–R564). -/

namespace Sys2Proof.Machine

/-! ### MEM_RETIRE (R559–R561) -/

def State.granuleUsed (s : State) (g : Nat) : Bool := s.regions.toList.any fun r => r.alloc && r.granules.contains g

/-- The granule enters the list; the completion waits for the persistent store, with Result A kept from acceptance. -/
def memRetireBody (d : Desc) (s : State) : Verdict :=
  let g := d.u 0x08 4
  if !d.clean [(0x08, 4)] || 12288 * stacksFitted s ≤ g then fail .badParam d s
  else if s.integ.retired.contains g || s.sec.life = .decommissioned then fail .wrongState d s
  else if 256 ≤ s.integ.retired.length then fail .noCapacity d s
  else
    let used := [BitVec.ofBool (s.granuleUsed g) |>.setWidth 8]
    .wait .point d.handle ((s.setInflight d.ring.val (Option.map fun f => { f with buffer := used })).setInteg fun i => { i with
    retired := i.retired ++ [g], log := i.log.map fun e => if locMem e.loc < 4 && locIdx e.loc / 65536 == g then { e with retired := true } else e })

/-- The store has been written, or could not be: MEM_RETIRE commands that wait complete (R560, R561). -/
def State.retireDone (s : State) (ok : Bool) : State :=
  (s.ringsWaiting fun f => f.op == .memRetire && f.stage == .point).foldl (fun s r =>
    match s.waitsAt r .point with
    | none => s
    | some f =>
      let g := f.d.u 0x08 4
      if ok then s.finish r .ok ((f.buffer.headD 0).toNat) s.integ.retired.length
      else
        let s := s.internalFault.setInteg fun i => { i with
          retired := i.retired.filter (· != g)
          log := i.log.map fun e => if locMem e.loc < 4 && locIdx e.loc / 65536 == g then { e with retired := false } else e }
        s.finish r .internal 0 0) s

/-! ### LOG_READ, LOG_CLEAR (R562, R563) -/

/-- Entries oldest first (R564). -/
def Integ.byAge (g : Integ) : List LogEntry := g.log.mergeSort fun a b => decide (a.first.toNat ≤ b.first.toNat)

def LogEntry.bytes (e : LogEntry) : List Byte :=
  pack [(8, e.loc.toNat), (1, e.cls), (1, b2n e.sticky + 2 * b2n e.isOpen + 4 * b2n e.scrubbed + 8 * b2n e.retired), (2, e.corr),
    (2, e.uncorr), (1, e.src), (1, e.episodes), (8, e.first.toNat), (8, e.last.toNat)]

def logReadBody (d : Desc) (s : State) : Verdict :=
  let addr := d.u 0x08 8
  let len := d.u 0x10 4
  if !d.clean [(0x08, 13)] || 1 < d.u 0x14 1 || len < 64 || !addrOk addr len 64 then fail .badParam d s
  else
    let all := s.integ.byAge.filter fun e => !dBit d 0x14 0 || e.sticky
    let out := all.take ((len - 32) / 32)
    let head := pack [(1, s.integ.log.length), (1, out.length), (2, s.integ.retired.length), (4, s.integ.overflow), (8, s.time74.toNat), (8, 0), (8, 0)]
    result d addr (head ++ out.flatMap LogEntry.bytes) out.length s.integ.overflow s

def logClearBody (d : Desc) (s : State) : Verdict :=
  let sticky := dBit d 0x08 0
  let loc := BitVec.ofNat 64 (d.u 0x10 8)
  if !d.clean [(0x08, 1), (0x10, 8)] || 3 < d.u 0x08 1 then fail .badParam d s
  else if dBit d 0x08 1 then
    match s.integ.log.find? fun e => e.loc == loc with
    | none => .done .ok 0 0 d.handle s
    | some e =>
      if e.sticky && !sticky then fail .badParam d s
      else .done .ok 0 0 d.handle (if e.isOpen then s else s.setInteg fun g => { g with log := g.log.filter fun x => x.loc != loc })
  else .done .ok 0 0 d.handle (s.setInteg fun g => { g with log := g.log.filter fun e => e.isOpen || (e.sticky && !sticky), overflow := 0 })

/-! ### The Darner (R553–R555) -/

/-- Poison an HBM codeword (R542). -/
def State.poisonCw (s : State) (cw : Nat) : State :=
  s.setInteg fun g => { g with poison := if g.poison.contains cw then g.poison else g.poison ++ [cw] }

/-- DARNER_SCRUB (R553): the targeted scrub of an open episode ends. -/
def execDarnerScrub (loc : BitVec 64) (outcome : ScrubOutcome) (s : State) : Host.Outcome State Fault Refusal :=
  .next (
    if 4 ≤ locMem loc || !(s.integ.episode loc).1 then s
    else match outcome with
    | .rewritten => s.setInteg fun g => { g.endEpisode loc true with scrubs := satN 65535 (g.scrubs + 1) }
    | .overtaken => s.setInteg fun g => g.endEpisode loc false
    | .uncorrectable => (s.poisonCw (locIdx loc)).uncorrectable loc 1 9)

/-- The Darner's read of one codeword of a burst. -/
def State.patrolRead (s : State) (loc : BitVec 64) (e : MemErr) : State :=
  match e with
  | .none => s
  | .corrected => s.corrected loc 9
  | .uncorrectable => (s.poisonCw (locIdx loc)).uncorrectable loc 1 9
  | .poison => s.uncorrectable loc 2 9

/-- Where the pass goes on from a granule: at the next stack that can be read (R555). -/
def State.patrolFrom (s : State) : (n : Nat) → (g : Nat) → Nat
  | 0, g => g
  | n + 1, g =>
    let k := g / 12288
    if s.hbm.selfRef.getLsbD k || s.hbm.failed.getLsbD k then s.patrolFrom n ((k + 1) % stacksFitted s * 12288) else g

/-- One burst of 64 MiB is over: its reads, its place in the pass, the end of its grant. Stacks in self-refresh are skipped. -/
def State.patrolBurst (s : State) (errs : List (BitVec 64 × MemErr)) : State :=
  let s := errs.foldl (fun s x =>
    if locMem x.1 < 4 && !s.hbm.selfRef.getLsbD (locMem x.1) && !s.hbm.failed.getLsbD (locMem x.1) then s.patrolRead x.1 x.2 else s) s
  let total := 12288 * stacksFitted s
  let next := s.patrolFrom 4 ((s.integ.patrolPos + 32) % total)
  s.setInteg fun g => { g with patrolPos := next, progress := next * 256 / total, patrolGrant := 0 }

/-- DARNER_PATROL_BURST (R555): a burst runs under its grant; without power it waits at the PAU. -/
def execDarnerPatrolBurst (errs : List (BitVec 64 × MemErr)) (s : State) : Host.Outcome State Fault Refusal :=
  .next (
    if !s.serving || s.pwr.st != .active || !s.integ.darner.getLsbD 31 then s
    else if s.integ.patrolGrant != 0 then s.patrolBurst errs
    else if s.pau.q2.any fun r => r.need == .darner then s
    else match s.powerAnswer 2 800 true with
    | .granted => (s.charge .darner 800 s.now).patrolBurst errs
    | .queued => s.enqueue 2 ⟨.darner, 800, none, 0, s.now, false, some s.now⟩
    | _ => s)

/-- The arrays that the SRAM patrol reads: filter banks, product store, density planes, MP memories, management memory (R555). -/
def patrolled (m : Nat) : Bool := m == 0x10 || inR m 0x12 0x16

/-- SRAM_PATROL (R555): the arrays' own corrections are written back; an uncorrectable word is logged. -/
def execSramPatrol (errs : List (BitVec 64 × MemErr)) (s : State) : Host.Outcome State Fault Refusal :=
  .next (errs.foldl (fun s x => if patrolled (locMem x.1) then s.readErr x.1 x.2 255 else s) s)

/-! ### Partial writes (R556–R558) -/

/-- Write bytes into a codeword by its device-wide index. -/
def State.putCw (s : State) (cw off : Nat) (data : List Byte) : State :=
  if s.hbm.failed.getLsbD (cw / 65536 / 12288) then s
  else { s with hbm := { s.hbm with mem := Mem.writes s.hbm.mem (32 * cw + off) data } }

/-- Read, merge and write of part of an HBM codeword; `old` is what the read met. The access's port is open, a free value. -/
def State.partial_ (s : State) (loc : BitVec 64) (off : Nat) (data : List Byte) (old : MemErr) (src : Nat) : State :=
  let cw := locIdx loc
  let bad := s.integ.poison.contains cw
  let s := s.putCw cw off data
  if bad || old = .poison || old = .uncorrectable then
    let s := (s.poisonCw cw).setInteg fun g => g.record loc 4 src s.time74
    let s := s.setInteg fun g => { g with poisonCnt := upd g.poisonCnt (locMem loc) fun n => satN 65535 (n + 1) }
    s.note .poisonWrite (s.locHandle loc) (eccData loc 4 src 0)
  else if old = .corrected then
    s.setInteg fun g =>
      { (g.record loc 3 src s.time74).endEpisode loc false with corr := upd g.corr (locMem loc) fun n => satN (2 ^ 32 - 1) (n + 1) }
  else s.setInteg fun g => g.endEpisode loc false

/-- PARTIAL_WRITE (R556): a write of less than a whole codeword. In an SRAM array only the log shows it. -/
def execPartialWrite (loc : BitVec 64) (off : Nat) (data : List Byte) (old : MemErr) (s : State) : Host.Outcome State Fault Refusal :=
  let (v, s) := s.freeTake
  .next (
    if locMem loc < 4 then s.partial_ loc off data old (v.toNat % 12)
    else match old with
    | .corrected => s.setInteg fun g => { g.record loc 3 255 s.time74 with sramCorr := satN 65535 (g.sramCorr + 1) }
    | .uncorrectable | .poison => (s.setInteg fun g => g.record loc 4 255 s.time74).note .poisonWrite 0 (eccData loc 4 255 0)
    | .none => s)

end Sys2Proof.Machine
end

