-- ==== Sys2Proof/Machine/Hbm.lean ====
section
/-! DEFINITION. REGION_ALLOC and REGION_FREE, stack wakes, BAR4, refresh, panic, retraining, the HBM registers (R514–R539, R802). -/

namespace Sys2Proof.Machine

/-! ### REGION_ALLOC (R517–R522, R802) -/

/-- The granules of an allocation, in region order; none: too few (R518). -/
def allocGranules (s : State) (n : Nat) (pin : Option Nat) : Option (List Nat) :=
  match pin with
  | some k => if (stacksServing s).contains k then takeGranules n 0 [freeGranules s k] else none
  | none => let free := (stacksServing s).map (freeGranules s); takeGranules n (mostFree free) free

/-- Stacks a region uses. -/
def Region.stacks (r : Region) : List Nat := (List.range 4).filter fun k => r.granules.any fun g => g / 12288 == k

/-- A region's stack has still to leave self-refresh. -/
def State.asleep (s : State) (i : Nat) : List Nat := (s.region i).stacks.filter fun k => s.hbm.selfRef.getLsbD k

def allocOk (s : State) (d : Desc) : Bool :=
  d.clean [(0x08, 6)] && inR (d.u 0x08 4) 1 (12288 * stacksFitted s) && d.u 0x0C 1 ≤ 3 &&
  (!dBit d 0x0C 1 || decide (d.u 0x0D 1 < stacksFitted s)) && (!dBit d 0x0C 0 || d.u 0x08 4 ≤ 32768)

/-- Ask for the wake of each stack in order; none: a request is refused (R606, R610, R802). -/
def wakeStacks (r : Nat) (h : Handle) (wait : Bool) : List Nat → State → Option State
  | [], s => some s
  | k :: ks, s =>
    let need : Need := .stack (Fin.ofNat 4 k)
    if s.hbm.wake.getLsbD k then wakeStacks r h wait ks s
    else if s.hbm.wakeQueued.getLsbD k then if wait then wakeStacks r h wait ks (s.interim r) else none
    else match s.powerAnswer 0 13000 wait with
    | .granted => wakeStacks r h wait ks (s.charge need 13000 s.now)
    | .spaced due => wakeStacks r h wait ks ((s.charge need 13000 due).enqueue 0 ⟨need, 13000, some (Fin.ofNat 16 r), h, due, true, none⟩)
    | .queued =>
      let s := (s.enqueue 0 ⟨need, 13000, some (Fin.ofNat 16 r), h, s.now, false, some s.now⟩).interim r
      wakeStacks r h wait ks { s with hbm := { s.hbm with wakeQueued := setBit s.hbm.wakeQueued k true } }
    | .denied => none

/-- REGION_ALLOC: the claims and wakes are made; the zeroing completes it. -/
def regionAllocBody (d : Desc) (s : State) : Verdict :=
  let n := d.u 0x08 4
  let r := d.ring.val
  if !allocOk s d then fail .badParam d s
  else
    let win := if dBit d 0x0C 0 then (windowFor s n).map some else some none
    match s.claimIdx 256 (fun i => !(s.region i).alloc), allocGranules s n (if dBit d 0x0C 1 then some (d.u 0x0D 1) else none), win with
    | some i, some gs, some w =>
      let asleep := gs.any fun g => s.hbm.selfRef.getLsbD (g / 12288)
      let s := if asleep then s.toActive else s
      let s := { s with regions := upd s.regions i fun x => { Region.reset with gen := x.gen, alloc := true, granules := gs, window := w } }
      let h := s.handleOf 3 i
      let s := s.setInflight r (Option.map fun f => { f with handle := h })
      match wakeStacks r h d.waitForPower (s.asleep i) s with
      | some s => .wait .zeroing h s
      | none => fail .powerDenied d s
    | _, _, _ => fail .noCapacity d s

/-- Rings whose REGION_ALLOC waits for a stack. -/
def State.waitForStack (s : State) (k : Nat) : List Nat :=
  s.ringsWaiting fun f => f.op == .regionAlloc && f.stage == .zeroing && (s.asleep (hIdx f.handle)).contains k

/-- End a waiting REGION_ALLOC: its claims and its queued wake requests go, and with them the commands that wait on those (R802). -/
def State.regionAbort : (fuel : Nat) → (s : State) → (r : Nat) → (st : Status) → State
  | 0, s, _, _ => s
  | n + 1, s, r, st =>
    match s.waitsAt r .zeroing with
    | none => s
    | some f =>
      let own := s.pau.q0.filter fun q => !q.spaced && q.ring == some (Fin.ofNat 16 r)
      let ks := own.filterMap fun q => match q.need with | .stack k => some k.val | _ => none
      let s := ks.foldl (fun s k =>
        let s := s.dequeue (.stack (Fin.ofNat 4 k))
        { s with hbm := { s.hbm with wakeQueued := setBit s.hbm.wakeQueued k false } }) s
      let others := ks.flatMap fun k => (s.waitForStack k).filter (· != r)
      let s := (s.finish r st 0 0).freeRegion (hIdx f.handle)
      others.foldl (fun s q => s.regionAbort n q st) s

/-- A stack-wake request leaves its queue without a grant: every command that waits on it ends (R802). -/
def State.wakeRefused (s : State) (k : Nat) (st : Status) : State :=
  let s := s.dequeue (.stack (Fin.ofNat 4 k))
  let s := { s with hbm := { s.hbm with wakeQueued := setBit s.hbm.wakeQueued k false } }
  (s.waitForStack k).foldl (fun s r => s.regionAbort 16 r st) s

/-- Zero a region's granules: no data, no poison is left (R520). -/
def State.zeroRegion (s : State) (i : Nat) : State :=
  let gs := (s.region i).granules
  let inside := fun (cw : Nat) => gs.contains (cw / 65536)
  { s with
    hbm := { s.hbm with mem := gs.foldl (fun m g => Mem.clear m (g * granuleBytes) ((g + 1) * granuleBytes)) s.hbm.mem }
    integ := s.integ.wholeWrite ((s.integ.poison ++ (s.integ.episodes.filter fun e => locMem e.1 < 4).map fun e => locIdx e.1).filter inside) }

/-- REGION_ZEROING_DONE (R520, R522): the granules are zero and their stacks awake. -/
def execRegionZeroingDone (ring : Fin 16) (s : State) : Host.Outcome State Fault Refusal :=
  let r := ring.val
  .next (match s.waitsAt r .zeroing with
    | none => s
    | some f =>
      let i := hIdx f.handle
      if !(s.asleep i).isEmpty then s
      else
        let x := s.region i
        (s.zeroRegion i).finish r .ok (maskOf4 x.stacks) (x.window.getD (2 ^ 32 - 1)))
where
  maskOf4 (l : List Nat) : Nat := sumN (l.map fun k => 2 ^ k)

/-- STACK_WAKE_DONE (R537): a stack whose wake is granted has left self-refresh. -/
def execStackWakeDone (s4 : Fin 4) (s : State) : Host.Outcome State Fault Refusal :=
  let k := s4.val
  .next (if s.pwr.st = .active && s.hbm.wake.getLsbD k && !(s.pau.q0.any fun q => q.need == .stack s4) && !s.hbm.failed.getLsbD k then
      { s with hbm := { s.hbm with selfRef := setBit s.hbm.selfRef k false } }
    else s)

/-! ### REGION_FREE (R523) -/

def regionFreeBody (d : Desc) (s : State) : Verdict :=
  let i := hIdx d.handle
  let x := s.region i
  let fresh := s.ringsWaiting fun f => f.op == .regionAlloc && f.stage == .zeroing && f.handle == d.handle
  if !d.clean [] then fail .badParam d s
  else if x.writer ≠ .none || x.sink.isSome || !fresh.isEmpty || (s.mps.toList.any fun m => m.st == .running && m.inReg == d.handle) then
    fail .resourceBusy d s
  else .done .ok 0 0 d.handle (s.freeRegion i)

/-! ### BAR4 (R524, R538, R546) -/

/-- The region, offset and stack that answer a BAR4 byte; none: all ones or discarded. -/
def State.bar4Byte (s : State) (a : Nat) : Option (Nat × Nat) :=
  match bar4Region s a with
  | some (i, o) => if s.hbm.selfRef.getLsbD ((s.region i).addr o / granuleBytes / 12288) then none else some (i, o)
  | none => none

def State.bar4Drop (s : State) : State := { s with hbm := { s.hbm with bar4Drop := satN 255 (s.hbm.bar4Drop + 1) } }

/-- Pieces of [a, a + n) that lie each in one codeword: (start, length). -/
def codewordPieces (a n : Nat) : List (Nat × Nat) :=
  (List.range (n / 32 + 2)).filterMap fun k =>
    let lo := max a (a / 32 * 32 + 32 * k)
    let hi := min (a + n) (a / 32 * 32 + 32 * (k + 1))
    if lo < hi then some (lo, hi - lo) else none

/-- Read one piece: its bytes, whether the EP bit is set. The data of an uncorrectable codeword is a free value (log entry 2). -/
def State.bar4Piece (s : State) (a n : Nat) (e : MemErr) : State × List Byte × Bool :=
  match s.bar4Byte a with
  | none => (s, List.replicate n 0xFF#8, false)
  | some (i, o) =>
    let x := s.region i
    let cw := s.cwAt i o
    let data := readRegion s.hbm.mem x o n
    if s.hbm.failed.getLsbD (cw / 65536 / 12288) || e = .uncorrectable then
      let (v, s) := s.freeTake
      (s.uncorrectable (locHbm cw) 1 8, le n v.toNat, true)
    else if s.integ.poison.contains cw || e = .poison then (s.uncorrectable (locHbm cw) 2 8, data, true)
    else if e = .corrected then (s.corrected (locHbm cw) 8, data, false)
    else (s, data, false)

/-- BAR4_READ (R524, R538, R546): `errs` are what codewords of the range met, by offset in the request. -/
def execBar4Read (port : Fin 2) (addr len : Nat) (errs : List (Nat × MemErr)) (s : State) : Host.Outcome State Fault Refusal :=
  if len = 0 then .fault .illFormed
  else if !s.hasPort port.val then .next s
  else
    let ps := codewordPieces addr len
    let drop := ps.any fun p => (s.bar4Byte p.1).isNone
    let (s, bytes, ep) := ps.foldl (fun (acc : State × List Byte × Bool) p =>
      let e := match errs.find? fun e => decide (p.1 ≤ addr + e.1) && decide (addr + e.1 < p.1 + p.2) with | some e => e.2 | none => .none
      let (s, b, f) := acc.1.bar4Piece p.1 p.2 e
      (s, acc.2.1 ++ b, acc.2.2 || f)) (s, [], false)
    let s := if drop then s.bar4Drop else s
    .next (s.emit (.bar4 port bytes ep))

/-- The host may write a region: nothing but a sink has it as a write target (R524). -/
def Writer.hostMay : Writer → Bool
  | .none | .staging _ | .storage _ => true
  | _ => false

/-- BAR4_WRITE (R524, R535, R538, R556–R558). -/
def execBar4Write (port : Fin 2) (addr : Nat) (data : List Byte) (s : State) : Host.Outcome State Fault Refusal :=
  if data.isEmpty then .fault .illFormed
  else if !s.hasPort port.val then .next s
  else
    let may := fun (a : Nat) => match s.bar4Byte a with
      | some (i, o) => (s.region i).writer.hostMay && !s.hbm.failed.getLsbD (s.cwAt i o / 65536 / 12288)
      | none => false
    let ps := codewordPieces addr data.length
    let drop := ps.any fun p => !may p.1
    let s' := ps.foldl (fun s p =>
      match (if may p.1 then s.bar4Byte p.1 else none) with
      | none => s
      | some (i, o) =>
        let b := (data.drop (p.1 - addr)).take p.2
        if p.2 = 32 then s.putBytes i o b else s.partial_ (locHbm (s.cwAt i o)) (p.1 % 32) b .none 8) s
    .next (if drop then s'.bar4Drop else s')

/-! ### Panic, refresh, retraining (R528, R532, R534) -/

/-- A real-time port is in panic on a stack. -/
def State.panicOn (s : State) (k : Nat) : Bool := s.hbm.panic.toList.any fun b => b.getLsbD k

def State.setHbm (s : State) (f : Hbm → Hbm) : State := { s with hbm := f s.hbm }

/-- A stack is awake and in service. -/
def State.stackUp (s : State) (k : Nat) : Bool := !s.hbm.selfRef.getLsbD k && !s.hbm.failed.getLsbD k && decide (k < stacksFitted s)

/-- REFRESH_DUE (R532). -/
def execRefreshDue (pc : Fin 128) (s : State) : Host.Outcome State Fault Refusal :=
  let k := pc.val / 32
  .next (
    if !s.stackUp k || !s.panicOn k then s
    else s.setHbm fun h =>
      let o := nth h.owed pc.val 0 + 1
      let h := { h with owedMax := upd h.owedMax k fun m => max m o }
      if 8 ≤ o then { h with owed := upd h.owed pc.val fun _ => o - 1, forced := upd h.forced k fun n => satN 65535 (n + 1) }
      else { h with owed := upd h.owed pc.val fun _ => o })

/-- QOS_PANIC_ENTRY (R528): ports 0–3 only. -/
def execQosPanicEntry (p : Fin 12) (s4 : Fin 4) (s : State) : Host.Outcome State Fault Refusal :=
  .next (if p.val ≤ 3 && s.stackUp s4.val && !(nth s.hbm.panic p.val 0).getLsbD s4.val then
      s.setHbm fun h => { h with
        panic := upd h.panic p.val fun b => setBit b s4.val true, panics := upd h.panics p.val fun n => satN 255 (n + 1) }
    else s)

/-- A pseudo-channel retrains; a postponed retraining is no longer due. -/
def Hbm.retrain (h : Hbm) (pc : Nat) : Hbm :=
  { h with retrainLate := upd h.retrainLate pc fun _ => none, retrained := upd h.retrained pc (· + 1) }

/-- QOS_PANIC_EXIT (R528, R532, R534): with no port left in panic, owed refreshes and postponed retrainings run. -/
def execQosPanicExit (p : Fin 12) (s4 : Fin 4) (s : State) : Host.Outcome State Fault Refusal :=
  let k := s4.val
  .next (
    let s := s.setHbm fun h => { h with panic := upd h.panic p.val fun b => setBit b k false }
    if s.panicOn k then s
    else ((List.range 32).map (32 * k + ·)).foldl (fun s pc => s.setHbm fun h =>
      let h := { h with owed := upd h.owed pc fun _ => 0 }
      if (nth h.retrainLate pc none).isSome then h.retrain pc else h) s)

/-- RETRAIN_DUE (R534): a pseudo-channel's period has ended, or its retraining has been postponed for 100 ms. -/
def execRetrainDue (pc : Fin 128) (s : State) : Host.Outcome State Fault Refusal :=
  .next (
    if !s.stackUp (pc.val / 32) then s
    else if !s.panicOn (pc.val / 32) then s.setHbm fun h => h.retrain pc.val
    else match nth s.hbm.retrainLate pc.val none with
    | none => s.setHbm fun h => { h with retrainLate := upd h.retrainLate pc.val fun _ => some s.now }
    | some t => if t + 100000000 ≤ s.now then s.setHbm fun h => h.retrain pc.val else s)

/-- HBM_STACK_TEMPERATURE (R532, R539): the refresh interval follows the 85 °C line. -/
def execHbmStackTemperature (s4 : Fin 4) (celsius : Int) (s : State) : Host.Outcome State Fault Refusal :=
  .next (if s4.val < stacksFitted s then
      s.setHbm fun h => { h with temp := upd h.temp s4.val fun _ => celsius, hot := setBit h.hot s4.val (decide (85 < celsius)) }
    else s)

/-! ### Registers (R530, R539) -/

def State.hbmCfgErr (s : State) : State := s.setHbm fun h => { h with cfgErr := true }

def State.hbmCfg (s : State) (v : Word) : State :=
  if !inR (bits v.toNat 31 27) 8 16 || bits v.toNat 23 16 = 0 then s.hbmCfgErr else s.setHbm fun h => { h with cfg := v &&& 0xF8FF0000#32 }

def State.qosCfg (s : State) (p : Nat) (v : Word) : State :=
  let n := v.toNat
  if bits n 15 12 = 0 || bits n 11 0 = 0 || (p ≤ 3 && bits n 31 24 ≤ bits n 23 16) then s.hbmCfgErr
  else s.setHbm fun h => { h with qosCfg := upd h.qosCfg p fun _ => if p ≤ 3 then v else v &&& 0xFFFF#32 }

end Sys2Proof.Machine
end

