-- ==== Sys2Proof/Machine/MpCore.lean ====
section
/-! DEFINITION. One instruction of a measurement processor: fields, slots, addresses, loops, mailbox windows (manual chapter Measurement
processors, R476–R493). -/

namespace Sys2Proof.Machine

/-! ### Data memory (R473, R477) -/

namespace MpMem

/-- Read a word: what is listed, else 0. -/
def read : List (Nat × Word) → Nat → Word
  | [], _ => 0
  | (a, b) :: r, x => if a = x then b else read r x

/-- Write a word, keeping words rising and no listed zero. -/
def write : List (Nat × Word) → Nat → Word → List (Nat × Word)
  | [], x, v => if v = 0 then [] else [(x, v)]
  | (a, b) :: r, x, v =>
    if x < a then (if v = 0 then (a, b) :: r else (x, v) :: (a, b) :: r)
    else if x = a then (if v = 0 then r else (a, v) :: r)
    else (a, b) :: write r x v

def writes : List (Nat × Word) → Nat → List Word → List (Nat × Word)
  | m, _, [] => m
  | m, x, v :: vs => writes (write m x v) (x + 1) vs

end MpMem

/-! ### Fields (R481) -/

/-- An instruction's fields. -/
structure MpIns where
  aop : Nat
  a : Nat
  x : Nat
  y : Nat
  d : Nat
  k : Nat
  ar : Nat
  mop : Nat
  t : Nat
  p : Nat
  mode : Nat
  fmt : Nat
  imm : Nat
  deriving DecidableEq, Repr

def MpIns.ofWord (w : BitVec 64) : MpIns :=
  let v := w.toNat
  { aop := bits v 63 58, a := bits v 57 56, x := bits v 55 52, y := bits v 51 48, d := bits v 47 44, k := bits v 43 38
    ar := bits v 37 32, mop := bits v 31 27, t := bits v 26 23, p := bits v 22 20, mode := bits v 19 17, fmt := bits v 16 14
    imm := bits v 13 0 }

/-- Fields outside the named ones are zero (R482): a, x, y, d, k. -/
def MpIns.aOnly (i : MpIns) (a x y d k : Bool) : Bool :=
  (a || i.a == 0) && (x || i.x == 0) && (y || i.y == 0) && (d || i.d == 0) && (k || i.k == 0) && i.ar == 0 && i.k ≤ 47

/-- The A slot is legal (R482, R483). -/
def MpIns.aOk (i : MpIns) : Bool :=
  match i.aop with
  | 0x00 => i.aOnly false false false false false
  | 0x01 | 0x02 | 0x05 => i.aOnly true true true false false
  | 0x03 => i.aOnly false true true false false && i.x % 2 == 0 && i.y % 2 == 0
  | 0x04 => i.aOnly false true true false false && i.x % 4 == 0
  | 0x06 => i.aOnly false false false true false
  | 0x07 | 0x08 => i.aOnly true false false false true
  | 0x09 | 0x13 => i.aOnly true false true false false && i.y < 4
  | 0x0A => i.aOnly true true false false true
  | 0x0B => i.aOnly true false false true true
  | 0x0C | 0x0D | 0x10 | 0x11 => i.aOnly false true true true false
  | 0x0E => i.aOnly false true false true true && i.k ≤ 17
  | 0x0F => i.aOnly false true false true false
  | 0x12 => i.aOnly false true true false false
  | 0x14 => i.aOnly true false true false false
  | _ => false

/-- Fields outside the named ones are zero: t, p, mode, fmt, imm. -/
def MpIns.mOnly (i : MpIns) (t p mode fmt imm : Bool) : Bool :=
  (t || i.t == 0) && (p || i.p == 0) && (mode || i.mode == 0) && (fmt || i.fmt == 0) && (imm || i.imm == 0)

/-- A memory operand's mode, with its displacement (R486). -/
def MpIns.modeOk (i : MpIns) : Bool := i.mode ≤ 5 && (i.mode == 5 || i.imm == 0)

/-- The M slot is legal (R482, R484, R485). -/
def MpIns.mOk (i : MpIns) : Bool :=
  match i.mop with
  | 0x00 | 0x0D | 0x10 | 0x11 => i.mOnly false false false false false
  | 0x01 => i.modeOk && i.fmt ≤ 5 && (i.fmt != 5 || i.t % 2 == 0)
  | 0x02 => i.modeOk && i.fmt ≤ 5 && i.p % 2 == 0 && i.t % (if i.fmt = 5 then 4 else 2) == 0
  | 0x03 => i.modeOk && i.fmt ≤ 3 && (i.fmt != 1 || i.t ≤ 14) && (i.fmt < 2 || i.t < 4)
  | 0x04 => i.mOnly true false false false true
  | 0x05 | 0x06 => i.mOnly false true false false true
  | 0x07 => i.mOnly false false false true true && i.fmt ≤ 1
  | 0x08 | 0x09 => i.mOnly true true false false false
  | 0x0A => i.mOnly false false false true true && i.fmt ≤ 5 && i.imm < 4096
  | 0x0B => i.mOnly true false false false true && i.imm < 4096
  | 0x0C | 0x0E => i.mOnly false true false false false
  | 0x0F => i.mOnly true false false false false
  | _ => false

/-! ### Registers -/

def Mp.dr (m : Mp) (i : Nat) : Int := nth m.d i 0
def Mp.ac (m : Mp) (i : Nat) : Int := nth m.acc i 0
def Mp.ar (m : Mp) (i : Nat) : Nat := (nth m.a i 0).toNat
def Mp.mr (m : Mp) (i : Nat) : Int := nth m.m i 0

/-- What a slot writes at the end of the cycle (R478). -/
structure MpEff where
  d    : List (Nat × Int)
  acc  : List (Nat × Int)
  zn   : Option Int
  sat  : Bool
  /-- An accumulator takes a free value (LDACC beyond 48 bits). -/
  wild : Option Nat
  deriving DecidableEq, Repr

def MpEff.none : MpEff := ⟨[], [], .none, false, .none⟩

/-- Accumulators with new exact values, each saturated to 48 bits (R483). -/
def accSat (l : List (Nat × Int)) : MpEff :=
  { MpEff.none with acc := l.map fun (i, v) => (i, Machine.sat 48 v), sat := l.any fun (_, v) => Machine.sat 48 v != v }

/-- A data register saturated to 18 bits, with Z and N from the exact value when asked. -/
def dSat (d : Nat) (v : Int) (zn : Bool) : MpEff :=
  { MpEff.none with d := [(d, Machine.sat 18 v)], sat := Machine.sat 18 v != v, zn := if zn then some v else .none }

/-- One division step (R488): the new accumulator and remainder. -/
def divStep (acc dy : Int) : Int × Int :=
  let u := twos 48 acc
  let u2 := u * 2 % 2 ^ 48
  let r := sx 32 (u2 / 65536)
  let r' := sx 32 (twos 32 (if bit u 47 then r + dy else r - dy))
  let u3 := twos 32 r' * 65536 + u2 % 65536 / 2 * 2 + b2n (decide (0 ≤ r'))
  (sx 48 u3, r')

/-- The A slot (R483). -/
def MpIns.aSlot (i : MpIns) (m : Mp) : MpEff :=
  let x := m.dr i.x
  let y := m.dr i.y
  let acc := m.ac i.a
  match i.aop with
  | 0x01 => accSat [(i.a, acc + x * y)]
  | 0x02 => accSat [(i.a, acc - x * y)]
  | 0x03 =>
    let x1 := m.dr (i.x + 1)
    let y1 := m.dr (i.y + 1)
    accSat [(0, m.ac 0 + x * y), (1, m.ac 1 + x1 * y1), (2, m.ac 2 + x * y1), (3, m.ac 3 + x1 * y)]
  | 0x04 => accSat ((List.range 4).map fun j => (j, m.ac j + m.dr (i.x + j) * y))
  | 0x05 => accSat [(i.a, acc + x * x + y * y)]
  | 0x06 => { MpEff.none with acc := ((List.range 4).filter fun j => bit i.d j).map fun j => (j, 0) }
  | 0x07 => { MpEff.none with acc := [(i.a, asr acc i.k)] }
  | 0x08 => accSat [(i.a, acc * (2 ^ i.k : Nat))]
  | 0x09 => accSat [(i.a, acc + m.ac i.y)]
  | 0x0A =>
    let v := x * (2 ^ i.k : Nat)
    if Machine.sat 48 v = v then { MpEff.none with acc := [(i.a, v)] } else { MpEff.none with wild := some i.a }
  | 0x0B => dSat i.d (asr acc i.k) false
  | 0x0C => dSat i.d (x + y) true
  | 0x0D => dSat i.d (x - y) true
  | 0x0E => { MpEff.none with d := [(i.d, asr x i.k)] }
  | 0x0F => dSat i.d x.natAbs false
  | 0x10 => { MpEff.none with d := [(i.d, max x y)] }
  | 0x11 => { MpEff.none with d := [(i.d, min x y)] }
  | 0x12 => { MpEff.none with zn := some (x - y) }
  | 0x13 => { MpEff.none with zn := some (acc - m.ac i.y) }
  | 0x14 => let (v, r) := divStep acc y; { MpEff.none with acc := [(i.a, v)], zn := some r }
  | _ => MpEff.none

/-! ### Addresses (R486, R487) -/

/-- Reverse 14 bits. -/
def rev14 (v : Nat) : Nat := (List.range 14).foldl (fun r i => r + b2n (bit v i) * 2 ^ (13 - i)) 0

/-- Address of a mode, and the new A(p). -/
def Mp.addr (m : Mp) (p mode imm : Nat) : Nat × Nat :=
  let a := m.ar p
  let am := (a : Int) + m.mr p
  let w := fun (v : Int) => twos 14 v
  match mode with
  | 1 => (a, w am)
  | 2 => (w am, w am)
  | 3 => (a, rev14 ((rev14 a + rev14 (w (m.mr p))) % 2 ^ 14))
  | 4 =>
    let lo : Int := m.cbase.toNat
    let n : Int := m.clen.toNat
    (a, w (if lo + n ≤ am then am - n else if am < lo then am + n else am))
  | 5 => (w ((a : Int) + sx 14 imm), a)
  | _ => (a, a)

/-- What a load format puts into registers (R485). -/
def loadVal (fmt t : Nat) (v : Word) : List (Nat × Int) :=
  let n := v.toNat
  match fmt with
  | 0 => [(t, sx 18 n)]
  | 1 => [(t, sx 16 n)]
  | 2 => [(t, sx 16 (n / 65536))]
  | 3 => [(t, (n % 65536 : Nat))]
  | 4 => [(t, (n / 65536 : Nat))]
  | _ => [(t, sx 16 n), (t + 1, sx 16 (n / 65536))]

/-- The word a store format writes, and whether it clamped. -/
def Mp.storeVal (m : Mp) (fmt t : Nat) : Word × Bool :=
  match fmt with
  | 0 => (BitVec.ofInt 32 (m.dr t), false)
  | 1 =>
    let a := Machine.sat 16 (m.dr t)
    let b := Machine.sat 16 (m.dr (t + 1))
    (BitVec.ofNat 32 (twos 16 a + twos 16 b * 65536), a != m.dr t || b != m.dr (t + 1))
  | 2 => (BitVec.ofNat 32 (twos 48 (m.ac t) % 2 ^ 32), false)
  | _ => (BitVec.ofInt 32 (sx 16 (twos 48 (m.ac t) / 2 ^ 32)), false)

/-! ### Mailbox windows (R493–R500) -/

def Mp.inBase (m : Mp) (win : Nat) : Nat := if win = 1 then 16384 - m.wIn else 16384 - 2 * m.wIn
def Mp.outBase (m : Mp) (win : Nat) : Nat :=
  if win = 1 then 16384 - 2 * m.wIn - m.wOut else 16384 - 2 * m.wIn - 2 * m.wOut

/-- An input window that is neither filled nor held: the one after the last filled, else the other (R495). -/
def Mp.freeIn (m : Mp) : Option Nat :=
  [m.nextIn % 2, 1 - m.nextIn % 2].find? fun w => !(m.heldIn.contains w || m.filled.any fun (x, _) => x == w)

/-- An output window that is not held and whose last record has been written. -/
def Mp.freeOut (m : Mp) : Option Nat :=
  [m.nextOut % 2, 1 - m.nextOut % 2].find? fun w => !(m.heldOut == some w || m.outq.any fun o => o.win == w)

/-! ### One instruction -/

/-- How an instruction ends. -/
inductive MpEnd where
  | trap (cause detail : Nat) | waitIn | waitOut | run (m : Mp) (freeUsed : Bool) (halted : Bool)
  deriving DecidableEq, Repr

/-- Write the registers of a list. -/
def putAll {n : Nat} (v : Vector Int n) (l : List (Nat × Int)) : Vector Int n := l.foldl (fun v (i, x) => upd v i fun _ => x) v

/-- Where control goes after an instruction without a taken BR at `pc` (R490, R491): loops whose last instruction it is repeat or end. -/
def loopEnd (pc : Nat) : List MpLoop → Nat × List MpLoop
  | [] => (pc + 1, [])
  | l :: r => if l.last = pc then (if 1 < l.left then (l.first, { l with left := l.left - 1 } :: r) else loopEnd pc r) else (pc + 1, l :: r)

/-- The condition of a BR (R484). -/
def Mp.cond (m : Mp) : Nat → Bool
  | 0 => true | 1 => m.z | 2 => !m.z | 3 => m.n | 4 => !m.n | _ => m.sat

/-- Word addresses the M slot reads. -/
def MpIns.reads (i : MpIns) (m : Mp) : List Nat :=
  match i.mop with
  | 0x01 => [(m.addr i.p i.mode i.imm).1]
  | 0x02 => [(m.addr i.p i.mode i.imm).1, (m.addr (i.p + 1) i.mode i.imm).1]
  | _ => []

/-- What stops an instruction before either slot takes effect: illegal fields, loops too deep, mailbox misuse (R482–R499, R512). -/
def MpIns.trap (i : MpIns) (m : Mp) : Option Nat :=
  if !i.aOk || !i.mOk then some 3
  else match i.mop with
  | 0x0A => if m.loops.any fun l => l.last == m.pc then some 3 else none
  | 0x0B => if 4 ≤ m.loops.length then some 4 else if i.imm < m.pc + 1 then some 3 else none
  | 0x0C => if 2 ≤ m.heldIn.length then some 6 else none
  | 0x0D => if m.heldIn.isEmpty then some 6 else none
  | 0x0E => if m.heldOut.isSome then some 6 else none
  | 0x0F =>
    let n := twos 14 (m.dr i.t)
    if m.heldOut.isNone || n = 0 || m.wOut < n then some 6 else none
  | _ => none

/-- The M slot over the state before the instruction (`m0`), applied to the state after the A slot (`m`): registers, memory, control and
windows. The A slot's D registers stand (R479). -/
def MpIns.mSlot (i : MpIns) (m0 m : Mp) (keep : List Nat) : Mp :=
  let setD := fun (m : Mp) (l : List (Nat × Int)) => { m with d := putAll m.d (l.filter fun (r, _) => !keep.contains r) }
  let setA := fun (m : Mp) (p v : Nat) => { m with a := upd m.a p fun _ => BitVec.ofNat 14 v }
  let at1 := m0.addr i.p i.mode i.imm
  match i.mop with
  | 0x01 => setA (setD m (loadVal i.fmt i.t (MpMem.read m0.mem at1.1))) i.p at1.2
  | 0x02 =>
    let at2 := m0.addr (i.p + 1) i.mode i.imm
    let second := if i.fmt = 5 then i.t + 2 else i.t + 1
    setA (setA (setD m (loadVal i.fmt i.t (MpMem.read m0.mem at1.1) ++ loadVal i.fmt second (MpMem.read m0.mem at2.1)))
      i.p at1.2) (i.p + 1) at2.2
  | 0x03 => setA { m with mem := MpMem.write m.mem at1.1 (m0.storeVal i.fmt i.t).1 } i.p at1.2
  | 0x04 => setD m [(i.t, sx 14 i.imm)]
  | 0x05 => setA m i.p i.imm
  | 0x06 => { m with m := upd m.m i.p fun _ => sx 14 i.imm }
  | 0x07 => if i.fmt = 0 then { m with cbase := BitVec.ofNat 14 i.imm } else { m with clen := BitVec.ofNat 14 i.imm }
  | 0x08 => setA m i.p (twos 14 (m0.dr i.t))
  | 0x09 => setD m [(i.t, (m0.ar i.p : Nat))]
  | 0x0C =>
    match m0.filled with
    | (w, rec') :: r => setA { m with filled := r, heldIn := m.heldIn ++ [w], lastIn := some rec', cycles := 0 } i.p (m0.inBase w)
    | [] => m
  | 0x0D => { m with heldIn := m.heldIn.drop 1 }
  | 0x0E =>
    match m0.freeOut with
    | some w => setA { m with heldOut := some w, nextOut := 1 - w } i.p (m0.outBase w)
    | none => m
  | 0x0F =>
    let w := m0.heldOut.getD 0
    let words := (List.range (twos 14 (m0.dr i.t))).map fun k => MpMem.read m0.mem (m0.outBase w + k)
    { m with heldOut := none
             outq := m.outq ++ [{ win := w, words := words, hdr := (m0.lastIn.map fun x => x.hdr).getD (List.replicate 128 0), sat := m0.sat }] }
  | _ => m

/-- The instruction clears SAT (CLRSAT, MBPUT). -/
def MpIns.clears (i : MpIns) : Bool := i.mop == 0x11 || i.mop == 0x0F

/-- Control flow and cycles (R490, R491). -/
def MpIns.control (i : MpIns) (m0 m : Mp) : Mp :=
  let plain := loopEnd m0.pc m0.loops
  let m := { m with cycles := m.cycles + 1 }
  match i.mop with
  | 0x0A =>
    if m0.cond i.fmt then
      { m with pc := i.imm, cycles := m.cycles + 2, loops := m0.loops.filter fun l => decide (l.first ≤ i.imm) && decide (i.imm ≤ l.last) }
    else { m with pc := plain.1, loops := plain.2 }
  | 0x0B =>
    if m0.dr i.t ≤ 0 then let skip := loopEnd i.imm m0.loops; { m with pc := skip.1, loops := skip.2 }
    else { m with pc := m0.pc + 1, loops := ⟨m0.pc + 1, i.imm, (m0.dr i.t).toNat⟩ :: m0.loops }
  | _ => { m with pc := plain.1, loops := plain.2 }

/-- Both slots take effect (R478, R479). `free` gives a value where the manual leaves it open: an accumulator beyond 48 bits, and SAT
set and cleared by one instruction (log entry 2). -/
def MpIns.apply (i : MpIns) (m0 : Mp) (free : BitVec 64) : Mp × Bool :=
  let e := i.aSlot m0
  let acc := putAll m0.acc e.acc
  let acc := match e.wild with | some a => upd acc a fun _ => sx 48 free.toNat | none => acc
  let setSat := e.sat || (i.mop == 0x03 && (m0.storeVal i.fmt i.t).2)
  let clash := setSat && i.clears
  let m := { m0 with
    d := putAll m0.d e.d, acc := acc
    z := match e.zn with | some v => v == 0 | none => m0.z
    n := match e.zn with | some v => decide (v < 0) | none => m0.n
    sat := if clash then free.getLsbD 0 else if i.clears then false else m0.sat || setSat }
  (i.control m0 (i.mSlot m0 m (e.d.map Prod.fst)), clash || e.wild.isSome)

/-- One instruction of a RUNNING core (R478–R492, R498, R499, R512). -/
def Mp.instr (m : Mp) (err : MpErr) (free : BitVec 64) : MpEnd :=
  match (m.image.map fun g => g.prog).bind fun p => p[m.pc]? with
  | none => .trap 7 0
  | some w =>
    if err = .fetch then .trap 1 0
    else
      let i := MpIns.ofWord w
      match i.trap m with
      | some c => .trap c 0
      | none =>
        match (i.reads m).find? fun a => err == .data a with
        | some a => .trap 2 a
        | none =>
          if i.mop = 0x0C && m.filled.isEmpty then .waitIn
          else if i.mop = 0x0E && m.freeOut.isNone then .waitOut
          else
            let (m', used) := i.apply { m with waitIn := false, waitOut := false } free
            .run m' used (i.mop == 0x10)

end Sys2Proof.Machine
end

