-- ==== Sys2Proof/Machine/Seal.lean ====
section
/-! DEFINITION. Seal sessions at work: sealing a record, cutting and writing checkpoints, closing (R701–R708, R713, R716). -/

namespace Sys2Proof.Machine

def State.session (s : State) (k : Nat) : Session := nth s.sec.sessions k .reset

def State.setSession (s : State) (k : Nat) (f : Session → Session) : State :=
  { s with sec := { s.sec with sessions := upd s.sec.sessions k f } }

def Life.code : Life → Nat
  | .manufacture => 0 | .unowned => 1 | .owned => 2 | .decommissioned => 3

/-- Owner slot in use (R691, R717). -/
def Sec.slot (x : Sec) : Option Nat :=
  if x.life = .owned then x.owners.toList.findIdx? fun o => match o with | .key _ => true | _ => false else none

/-- Key digest of the owner slot in use. -/
def Sec.ownerKey (x : Sec) : Option (BitVec 384) :=
  x.owners.toList.findSome? fun o => match o with | .key k => some k | _ => none

/-! ### Sealing (R703, R704) -/

/-- The session that seals a sink's records, when it is open. -/
def State.sealer (s : State) (h : Handle) : Option Nat :=
  if h ≠ 0 && s.valid 8 h && !(s.session (hIdx h)).closing then some (hIdx h) else none

/-- Bytes of a sealed record, from its unsealed bytes (R703): filled header, payload and trailer, tag; and the tag. -/
def Session.sealed (x : Session) (h : Handle) (idx : Nat) (bytes : List Byte) : List Byte × List Byte :=
  let hdr := (bytes.take 0x70) ++ pack [(4, h.toNat), (4, 0), (8, idx)]
  let body := bytes.drop 128
  let nonce := pack [(4, x.salt.toNat), (8, idx)]
  if x.enc then
    let tag := Config.gcmTag x.key nonce hdr body
    (hdr ++ Config.gcmCipher x.key nonce body ++ tag, tag)
  else
    let tag := Config.gcmTag x.key nonce (hdr ++ body) []
    (hdr ++ body ++ tag, tag)

/-! ### Checkpoints (R705–R707) -/

/-- Bytes of a checkpoint's payload (R706). -/
def checkpointBytes (kind : Nat) : Nat := (if kind = 0 then 6664 else 4936)

/-- Cut a checkpoint between two records. -/
def State.cut (s : State) (k kind : Nat) (ring : Option (Fin 16)) : State :=
  let t := s.time74
  (s.setSession k fun x =>
    { x with cuts := x.cuts ++ [{ kind := kind, time := t, first := x.next - x.since, count := x.since, chain := x.chain, ring := ring }]
             since := 0, cutAt := s.now })

/-- Cut the checkpoints that fell due during a record's sealing. -/
def State.cutDue (s : State) (k : Nat) : State :=
  let due := (s.session k).due
  (due.foldl (fun s (kind, ring) => s.cut k kind ring) s).setSession k fun x => { x with due := [] }

/-- Entries of the journal the session has not written. -/
def State.unwritten (s : State) (k : Nat) : List Journal := s.sec.journal.filter fun e => decide ((s.session k).jNext ≤ e.index)

/-- A journal segment's payload (R707). -/
def segmentBytes (js : List Journal) : List Byte :=
  pack [(4, js.length), (4, ((js.head?).map fun e => e.index).getD 0)] ++ js.flatMap Journal.bytes

/-- The checkpoint region cannot take the next record of the front cut (R705). -/
def State.sealStuck (s : State) (k : Nat) : Bool :=
  let x := s.session k
  match x.cuts with
  | [] => false
  | c :: _ =>
    let js := s.unwritten k
    let n := if js.isEmpty then checkpointBytes c.kind else (segmentBytes js).length
    ((s.region x.region).appendAt n).isNone

/-- Time in 2^-32 s from the format of R74. -/
def timeOf74 (t : BitVec 64) : Nat := t.toNat / 2 ^ 24 * 2 ^ 32 + t.toNat % 2 ^ 24 * 2 ^ 8

/-- Last chain index a cut covers. -/
def Cut.last (c : Cut) : Nat := if c.count = 0 then 2 ^ 64 - 1 else c.first + c.count - 1

/-- A checkpoint's header and payload (R706), the signature over both before it. -/
def State.checkpoint (s : State) (k : Nat) (c : Cut) : Hdr × List Byte :=
  let x := s.session k
  let h := { Hdr.plain (s.handleOf 8 k) 0x0D 1 (timeOf74 c.time) with flags := fIf s.debugOpen fDebug, journal := s.sec.jNext - 1 }
  let fields := pack [(8, x.number), (1, c.kind), (1, s.sec.life.code), (1, (s.sec.slot).getD 255), (1, b2n x.enc + 2 * b2n x.paired),
    (4, c.count), (8, c.first), (8, c.last), (48, c.chain.toNat), (48, s.sec.head.toNat), (4, s.sec.jNext - 1), (4, 0),
    (8, s.ident.serial.toNat), (48, (Config.sha384 Config.aliasCerts).toNat), (8, c.time.toNat), (8, 0)]
  let extra := if c.kind = 0 then slice 0 1728 (pack [(4, x.salt.toNat), (4, 0), (48, x.recip.toNat)] ++ x.eph) else []
  let body := fields ++ extra
  let seq := (s.region x.region).nextSeq
  (h, padTo 8 (body ++ slice 0 4723 (Config.aliasSign (h.bytes seq (padTo 8 (body ++ List.replicate 4723 0)).length ++ body))))

/-- Release a session: its region, grant and handle (R92, R713). -/
def State.freeSession (s : State) (k : Nat) : State :=
  let s := (s.dropWriter (.session k)).setGrant (.session k) 0
  s.setSession k fun x => { Session.reset with gen := nextGen x.gen }

/-- Write the front cut: the journal segment first when there are entries, then the checkpoint; the state is unchanged when the region
has no room. The event is raised, and a session that closes is released. -/
def State.writeCut (s0 : State) (k : Nat) : State :=
  match (s0.session k).cuts with
  | [] => s0
  | c :: rest =>
    let js := s0.unwritten k
    let seg := if js.isEmpty then some s0
      else (s0.appendRecord (s0.session k).region (Hdr.plain (s0.handleOf 8 k) 0x0D 2 (timeOf74 c.time)) (segmentBytes js)).map
        fun s => s.setSession k fun x => { x with jNext := s0.sec.jNext }
    match seg with
    | none => s0
    | some s =>
      let (h, p) := s.checkpoint k c
      match s.appendRecord (s.session k).region h p with
      | none => s
      | some s =>
        let s := s.note .sealCheckpoint (s.handleOf 8 k) [(1, c.kind), (3, (s.session k).number % 2 ^ 24), (8, c.last)]
        let s := s.setSession k fun x => { x with cuts := rest, number := x.number + 1 }
        let salt := (s.session k).salt.toNat
        let s := if (s.session k).closing && rest.isEmpty then s.freeSession k else s
        match c.ring with
        | some r => if c.kind = 0 then s.finish r.val .ok k salt else s.finish r.val .ok 0 (if c.kind = 2 then c.last % 2 ^ 32 else 0)
        | none => s

/-- Close a session with a checkpoint of a kind: no further record is sealed. It is written at once when the region has room. -/
def State.closeSession (s : State) (k kind : Nat) (ring : Option (Fin 16)) : State :=
  let s := (s.cut k kind ring).setSession k fun x => { x with closing := true, sink := none }
  (List.range (s.session k).cuts.length).foldl (fun s _ => s.writeCut k) s

/-- Close every open session (R692, R716). -/
def State.closeSessions (s : State) (kind : Nat) : State :=
  (List.range 16).foldl (fun s k => if (s.session k).isOpen && !(s.session k).closing then s.closeSession k kind none else s) s

/-- The last byte of a record has passed: the chain advances, checkpoints that fell due meanwhile are cut, and a periodic one at N (R703, R705). -/
def State.sealDone (s : State) (k : Nat) (tag : List Byte) : State :=
  let s := (s.setSession k fun x =>
    { x with chain := Config.sha384 (le 48 x.chain.toNat ++ tag), next := x.next + 1, since := x.since + 1 }).cutDue k
  let x := s.session k
  if x.n ≠ 0 && x.n ≤ x.since then s.cut k 1 none else s

end Sys2Proof.Machine
end

