-- ==== Sys2Proof/Machine/Mp.lean ====
section
/-! DEFINITION. The measurement-processor commands and events (R473–R475, R493–R513, R714). -/

namespace Sys2Proof.Machine

def State.mp (s : State) (c : Nat) : Mp := nth s.mps c .reset

def State.setMp (s : State) (c : Nat) (f : Mp → Mp) : State := { s with mps := upd s.mps c f }

/-! ### Output records (R500, R501) -/

/-- The header of an output record, from the header of the input record of its MBPUT (R500). -/
def MpOut.header (o : MpOut) (gap : Bool) : Hdr :=
  let h := o.hdr
  { source := BitVec.ofNat 32 (num h 8 4), kind := 0x0A, fmt := 3, seg := 0, time := num h 24 8 % 2 ^ 40 * 2 ^ 32 + num h 40 4
    idx := num h 32 8
    flags := BitVec.ofNat 32 (num h 44 4) ||| fIf o.sat fSaturated ||| fIf gap fGap
    trig := some (num h 48 8), cause := BitVec.ofNat 32 (num h 56 4), pre := num h 60 4, cgen := num h 72 2, fgen := num h 74 2
    journal := num h 76 4, level := num h 80 1, log2d := num h 81 1, exp := num h 82 2, hop := num h 84 4
    nco := sx 64 (num h 88 8), fs := num h 96 8, unit := 255, mode := 255, ignored := 0 }

/-- Write the oldest record that an MBPUT has sent, or drop and count it. Its output window becomes free. -/
def State.mpWrite (s : State) (c : Nat) : State :=
  let m := s.mp c
  match m.outq with
  | [] => s
  | o :: rest =>
    let payload := padTo 8 (o.words.flatMap fun w => le 4 w.toNat)
    match s.appendRecord (hIdx m.outReg) (o.header m.gapNext) payload with
    | some s => s.setMp c fun m => { m with outq := rest, gapNext := false }
    | none => s.setMp c fun m => { m with outq := rest, dropped := satN 65535 (m.dropped + 1), gapNext := true }

/-- Write every record whose MBPUT has executed (R509). -/
def State.mpFlush (s : State) (c : Nat) : State := (s.mp c).outq.foldl (fun s _ => s.mpWrite c) s

/-! ### Leaving RUNNING (R508, R509, R511, R512) -/

/-- Leave RUNNING for a state: records already put are written, held windows discarded, the grant and the write target released. -/
def State.mpLeave (s : State) (c : Nat) (st : MpSt) : State :=
  let s := s.mpFlush c
  (s.dropWriter (.mp c)).setMp c fun m =>
    { m with st := st, filled := [], heldIn := [], heldOut := none, arriving := [], waitIn := false, waitOut := false, grant := 0 }

/-- A core at rest with the counts of MP_CNT, which only their reading clears. -/
def Mp.cleared (m : Mp) : Mp := { Mp.reset with gen := m.gen, skipped := m.skipped, dropped := m.dropped, gapNext := m.gapNext }

/-- Free the image and the handle (R92, R509). -/
def State.mpUnload (s : State) (c : Nat) : State := s.setMp c fun m => { m.cleared with gen := nextGen m.gen }

/-- What MP_STOP does to the program (R509). -/
def State.mpStopNow (s : State) (d : Desc) (c : Nat) : State :=
  let s := if (s.mp c).st = .running then s.mpLeave c .loaded else s
  if dBit d 0x08 1 then s.mpUnload c
  else if (s.mp c).st = .trapped then s.setMp c fun m => { m with st := .loaded }
  else s

/-- The core waits in MBGET with no input window filled or held, or runs no more (R509). -/
def Mp.drained (m : Mp) : Bool := m.st != .running || (m.waitIn && m.filled.isEmpty && m.heldIn.isEmpty)

/-- Complete an MP_STOP with DRAIN whose condition holds. -/
def State.mpDrainCheck (s : State) (c : Nat) : State :=
  if (s.mp c).drained then
    (s.ringsWaiting fun f => f.op == .mpStop && f.stage == .unitDrain && hIdx f.d.handle == c).foldl (fun s r =>
      match (s.cmdRing r).inflight with
      | some f => if s.valid 7 f.d.handle then (s.mpStopNow f.d c).finish r .ok 0 0 else s.finish r .badHandle 0 0
      | none => s) s
  else s

/-- A trap (R512). The error it reports, if any, has been logged. -/
def State.mpTrap (s : State) (c cause detail : Nat) : State :=
  let m := s.mp c
  let s := (s.mpLeave c .trapped).note .mpTrap (s.handleOf 7 c)
    [(1, cause), (1, 0), (2, m.pc % 65536), (4, ((m.lastIn.map fun x => x.seq).getD 0) % 2 ^ 32), (4, detail)]
  s.mpDrainCheck c

/-! ### MP_LOAD (R502–R505, R714) -/

/-- Cores that MP_LOAD commands in flight have claimed, each as the handle of its completion. -/
def State.mpClaimed (s : State) (c : Nat) : Bool :=
  s.io.cmd.toList.any fun r => r.inflight.any fun f => f.op == .mpLoad && f.handle == s.handleOf 7 c

/-- The core a new MP_LOAD with handle 0 claims: the lowest-numbered EMPTY one. -/
def State.mpPick (s : State) : Handle :=
  match s.claimIdx 16 fun c => (s.mp c).st == .empty && !s.mpClaimed c with
  | some c => s.handleOf 7 c
  | none => 0

/-- Bytes of the longest image: header, program, data, signature. -/
def mpImageMax : Nat := 64 + 8 * 4096 + 4 * 16128 + 4723

def mpLoadBody (d : Desc) (s : State) : Verdict :=
  let c := hIdx d.handle
  let n := d.u 0x10 4
  if (d.handle != 0 && (s.mp c).st = .running) || s.sec.life = .decommissioned then fail .wrongState d s
  else if !d.clean [(0x08, 12)] || !addrOk (d.u 0x08 8) n 8 || !inR n 64 mpImageMax then fail .badParam d s
  else if d.handle = 0 && s.mpPick = 0 then fail .noCapacity d s
  else match readBuffer d (d.u 0x08 8) n s with
  | .wait st _ s' => .wait st (if d.handle = 0 then s.mpPick else d.handle) s'
  | v => v

/-- The image of MP_LOAD has come (R502, R504, R505). -/
def mpLoadData (d : Desc) (buf : List Byte) (s : State) : Verdict :=
  let p := num buf 0x08 2
  let w := num buf 0x0C 4
  let sg := num buf 0x10 4
  let body := slice 64 (8 * p + 4 * w) buf
  let signed := sg != 0
  let sigOk := match s.sec.ownerKey with
    | some k => sg == 4723 && Config.verifies k (slice 0 (64 + 8 * p + 4 * w) buf) (slice (64 + 8 * p + 4 * w) sg buf)
    | none => false
  let h := if d.handle = 0 then ((s.cmdRing d.ring.val).inflight.map fun f => f.handle).getD 0 else d.handle
  let c := hIdx h
  if d.handle != 0 && !s.valid 7 d.handle then fail .badHandle d s
  else if (d.handle != 0 && (s.mp c).st = .running) || s.sec.life = .decommissioned then fail .wrongState d s
  else if num buf 0 4 != 0x504D4C54 || num buf 4 2 != 1 || num buf 6 2 != 64 || !inR p 1 4096 || p ≤ num buf 0x0A 2 ||
      16128 < w || (slice 0x18 40 buf).any (· != 0) || d.u 0x10 4 != 64 + 8 * p + 4 * w + sg ||
      (crc32c body).toNat != num buf 0x14 4 then fail .badParam d s
  else if (s.sec.life = .owned && !signed) || (signed && !sigOk) then fail .authFailed d s
  else if h = 0 then fail .noCapacity d s
  else
    let img : MpImage :=
      { prog := (List.range p).map fun i => BitVec.ofNat 64 (num body (8 * i) 8)
        data := (List.range w).map fun i => BitVec.ofNat 32 (num body (8 * p + 4 * i) 4)
        entry := num buf 0x0A 2, crc := crc32c body, digest := Config.sha384 buf }
    .done .ok c (num buf 0x14 4) h (s.setMp c fun m => { m.cleared with st := .loaded, image := some img })

/-! ### MP_START (R506–R508) -/

def mpIn (d : Desc) : Handle := BitVec.ofNat 32 (d.u 0x08 4)
def mpOut (d : Desc) : Handle := BitVec.ofNat 32 (d.u 0x0C 4)

/-- A window size (R493). -/
def mpWinOk (w : Nat) : Bool := w % 64 == 0 && inR w 64 4096

/-- The windows and the data-initialisation words fit in data memory (R507); a MP_LOAD may replace the image while MP_START waits. -/
def mpFits (d : Desc) (m : Mp) : Bool := decide (2 * (d.u 0x10 2 + d.u 0x12 2) + ((m.image.map fun g => g.data.length).getD 0) ≤ 16384)

/-- On the grant: both memories load again, the registers are set, the core starts (R476, R493, R508). -/
def mpStartGrant (d : Desc) (s : State) : Verdict :=
  let c := hIdx d.handle
  if !s.valid 3 (mpIn d) || !s.valid 3 (mpOut d) then fail .badHandle d s
  else if !mpFits d (s.mp c) then fail .badParam d s
  else if s.writerBusy (hIdx (mpOut d)) (.mp c) then fail .resourceBusy d s
  else
    let s := (s.setWriter (hIdx (mpOut d)) (.mp c)).setMp c fun m =>
      { m.cleared with
        st := .running, image := m.image, grant := m.grant
        pc := (m.image.map fun g => g.entry).getD 0
        mem := MpMem.writes [] 0 ((m.image.map fun g => g.data).getD [])
        inReg := mpIn d, outReg := mpOut d, wIn := d.u 0x10 2, wOut := d.u 0x12 2
        kind := if dBit d 0x14 0 then some (d.u 0x15 1) else none, watchdog := d.u 0x18 4 }
    .done .ok 0 0 d.handle s

def mpStartBody (d : Desc) (s : State) : Verdict :=
  let c := hIdx d.handle
  let m := s.mp c
  let wi := d.u 0x10 2
  let wo := d.u 0x12 2
  let waits := s.ringsWaiting fun f => f.op == .mpStart && f.stage == .power && f.d.handle == d.handle
  if !s.valid 3 (mpIn d) || !s.valid 3 (mpOut d) then fail .badHandle d s
  else if !(m.st = .loaded || m.st = .trapped) || !waits.isEmpty then fail .wrongState d s
  else if !d.clean [(0x08, 14), (0x18, 4)] || 2 ≤ d.u 0x14 1 || !mpWinOk wi || !mpWinOk wo ||
      !mpFits d m ||
      (s.region (hIdx (mpOut d))).bytes < 2 * slotBytes (4 * wo) then fail .badParam d s
  else if s.writerBusy (hIdx (mpOut d)) (.mp c) || mpIn d = mpOut d then fail .resourceBusy d s
  else .need (.mp c) 2 450 d.handle (s.setWriter (hIdx (mpOut d)) (.mp c)) (mpStartGrant d)

/-! ### MP_STOP (R509) -/

/-- Withdraw an MP_START that waits for its grant, because its program goes away (R95). -/
def State.mpWithdraw (s : State) (c : Nat) : State :=
  let rings := s.ringsWaiting fun f => f.op == .mpStart && f.stage == .power && hIdx f.d.handle == c
  if rings.isEmpty then s
  else rings.foldl (fun s r => s.finish r .badHandle 0 0) ((s.dequeue (.mp c)).setGrant (.mp c) 0)

def mpStopBody (d : Desc) (s : State) : Verdict :=
  let c := hIdx d.handle
  if !d.clean [(0x08, 1)] || 4 ≤ d.u 0x08 1 then fail .badParam d s
  else if dBit d 0x08 0 && !(s.mp c).drained then .wait .unitDrain d.handle s
  else .done .ok 0 0 d.handle ((if dBit d 0x08 1 then s.mpWithdraw c else s).mpStopNow d c |>.mpDrainCheck c)

/-- MP_STOP_DRAIN_TIMEOUT (R509): 100 ms have passed; the program keeps running. -/
def execMpStopDrainTimeout (ring : Fin 16) (s : State) : Host.Outcome State Fault Refusal :=
  .next (match s.waitsAt ring.val .unitDrain with
    | some f => if f.op = .mpStop then (s.until (f.since + 100000000)).finish ring.val .timeout 0 0 else s
    | none => s)

/-! ### Events of a core -/

/-- Run one instruction of a core. -/
def State.mpRun (s : State) (c : Nat) (err : MpErr) : State :=
  let m := s.mp c
  match m.instr err (Config.freeValue s.free) with
  | .trap cause detail =>
    let s := if cause = 1 then s.uncorrectable (locSram 0x15 c (m.pc / 2)) 1 255
      else if cause = 2 then s.uncorrectable (locSram 0x14 c (detail / 4)) 1 255
      else s
    s.mpTrap c cause detail
  | .waitIn => (s.setMp c fun m => { m with waitIn := true }).mpDrainCheck c
  | .waitOut => s.setMp c fun m => { m with waitOut := true }
  | .run m' used halted =>
    let s := { s.setMp c (fun _ => m') with free := s.free + b2n used }
    if halted then (s.mpLeave c .loaded).mpDrainCheck c else s

/-- MP_INSTRUCTION (R478): one two-slot instruction of a RUNNING core that does not wait for a window. -/
def execMpInstruction (c : Fin 16) (err : MpErr) (s : State) : Host.Outcome State Fault Refusal :=
  let m := s.mp c.val
  .next (if m.st = .running && !m.waitIn && !m.waitOut then s.mpRun c.val err else s)

/-- MP_MAILBOX_WAKE (R490): the window a core waits for has come; the waiting instruction runs. -/
def execMpMailboxWake (c : Fin 16) (s : State) : Host.Outcome State Fault Refusal :=
  let m := s.mp c.val
  .next (if m.st = .running && ((m.waitIn && !m.filled.isEmpty) || (m.waitOut && m.freeOut.isSome)) then s.mpRun c.val .none else s)

/-- The words of an input window (R495, R496). -/
def Mp.windowWords (m : Mp) (x : MpIn) : List Word :=
  let n := min x.payload.length (m.wIn - 40)
  let hdr := (x.hdr.take 112) ++ List.replicate 16 0
  [BitVec.ofNat 32 n, BitVec.ofNat 32 (b2n (decide (n < x.payload.length))), BitVec.ofNat 32 m.skipRec] ++ List.replicate 5 0 ++
    (words32 hdr).map (BitVec.ofNat 32) ++ x.payload.take n

/-- MP_INPUT_DELIVERY (R494–R497): the oldest copy on its way is put into a window, or skipped. -/
def execMpInputDelivery (c : Fin 16) (s : State) : Host.Outcome State Fault Refusal :=
  .next (
    let m := s.mp c.val
    match m.arriving with
    | [] => s
    | x :: rest =>
      if m.kind.any fun k => num x.hdr 12 1 != k then s.setMp c.val fun m => { m with arriving := rest }
      else match m.freeIn with
      | none => s.setMp c.val fun m =>
          { m with arriving := rest, skipped := satN 65535 (m.skipped + 1), skipRec := satN (2 ^ 32 - 1) (m.skipRec + 1) }
      | some w => s.setMp c.val fun m =>
          { m with arriving := rest, filled := m.filled ++ [(w, x)], nextIn := 1 - w, skipRec := 0
                   mem := MpMem.writes m.mem (m.inBase w) (m.windowWords x) })

/-- MP_OUTPUT_RECORD_WRITE (R500, R501). -/
def execMpOutputRecordWrite (c : Fin 16) (s : State) : Host.Outcome State Fault Refusal := .next (s.mpWrite c.val)

/-- MP_WATCHDOG_EXPIRY (R512, cause 5). -/
def execMpWatchdogExpiry (c : Fin 16) (s : State) : Host.Outcome State Fault Refusal :=
  let m := s.mp c.val
  .next (if m.st = .running && m.watchdog != 0 && (decide (m.watchdog ≤ m.cycles) || m.waitIn || m.waitOut) then s.mpTrap c.val 5 0 else s)

end Sys2Proof.Machine
end

