-- ==== Sys2Proof/Machine/Sinks.lean ====
section
/-! DEFINITION. Sinks at work: readiness, arbitration, host buffers, storage queues, delivery, halts, unbinding (R571–R599). -/

namespace Sys2Proof.Machine

/-! ### Places of a sink -/

def State.dring (s : State) (n : Nat) : DataRing := nth s.io.data n .reset
def State.setDring (s : State) (n : Nat) (f : DataRing → DataRing) : State := { s with io := { s.io with data := upd s.io.data n f } }
def State.queue (s : State) (q : Nat) : StoreQ := nth s.storeQ q .reset
def State.setQueue (s : State) (q : Nat) (f : StoreQ → StoreQ) : State := { s with storeQ := upd s.storeQ q f }
def State.hostPort (s : State) (p : Nat) : HostPort := nth s.io.ports p .reset

/-- A field of STORE_QUEUE_ATTACH at a descriptor offset (R589). -/
def StoreQ.u (q : StoreQ) (o n : Nat) : Nat := q.par.toNat / 2 ^ (8 * (o - 8)) % 2 ^ (8 * n)

/-- Port of a host sink's data ring. -/
def State.sinkPort (s : State) (k : Nat) : Nat := (s.dring (s.sink k).par.ring).port.val

/-- Count a UR, CA, poisoned or timed-out completion on a port (R600). -/
def State.cplError (s : State) (p : Nat) : State :=
  { s with io := { s.io with ports := upd s.io.ports p fun x => { x with cplErr := satN 65535 (x.cplErr + 1) } } }

/-- Record egress is open: not FENCED, not a hot secondary (R677, R681). -/
def State.egress (s : State) : Bool :=
  !(s.pair.role == .fenced) && !(s.pair.role == .secondary && !s.pair.warm)

/-- A switchover waits for watermarks: no new record starts (R685). -/
def State.switching (s : State) : Bool := s.io.cmd.toList.any fun c => c.inflight.any fun f => f.stage == .switchover

/-! ### Records of the source (R573) -/

/-- Sequence numbers on their way through a storage sink's queues. -/
def State.outstanding (s : State) (k : Nat) : List Nat :=
  (s.sink k).queues.flatMap fun q => ((s.queue q).recs.filter fun r : StoreRec => !r.flush && !r.gone).map fun r => r.seq

/-- Records that have passed into host buffers not yet written back. -/
def Sink.passed (x : Sink) : List Nat := (x.buf.toList ++ x.confirm.toList).flatMap fun b => b.ends

/-- The next record a sink takes: the lowest number at or after its place that is ready, undelivered and not already on its way. -/
def State.nextRec (s : State) (k : Nat) : Option Rec :=
  let x := s.sink k
  let busy := s.outstanding k ++ x.passed
  (s.region x.par.region).recs.find? fun r : Rec => r.ready && !r.delivered && decide (x.next ≤ r.seq) && !busy.contains r.seq

/-- Undelivered bytes that pace the sink (R577). -/
def Region.owed (r : Region) : Nat := sumN ((r.recs.filter fun x : Rec => x.ready && !x.delivered).map fun x => x.len)

/-- The session that is to seal a record (R704). -/
def State.recSealer (s : State) (k : Nat) (r : Rec) : Option Nat := if r.kind = 0x0D then none else s.sealer (s.sink k).par.session

/-- Bytes a record occupies at the target (R580). -/
def State.outLen (s : State) (k : Nat) (r : Rec) : Nat := r.len + (if r.sealInfo.isSome || (s.recSealer k r).isSome then 16 else 0)

/-- A record's bytes with DUP set in its flags and the CRC to match (R683, R464). -/
def dupBytes (l : List Byte) : List Byte :=
  let l := (l.take 0x2C) ++ le 4 (num l 0x2C 4 ||| fDup.toNat) ++ l.drop 0x30
  let n := l.length - 8
  let zeroed := (l.take 0x70) ++ List.replicate 16 0 ++ ((l.take n).drop 0x80)
  (l.take n) ++ le 4 (crc32c zeroed).toNat ++ l.drop (n + 4)

/-- The record was issued by a primary that is lost (R683). -/
def Sink.isDup (x : Sink) (seq : Nat) : Bool := x.dupUpTo.any fun u => decide (seq ≤ u)

/-- The bytes of a record as the target gets them: those of its first sealing again, or sealed now, or as they stand (R703, R598). -/
def State.outBytes (s : State) (k : Nat) (r : Rec) : List Byte :=
  let x := s.sink k
  let raw := readRegion s.hbm.mem (s.region x.par.region) r.off r.len
  let raw := if x.isDup r.seq then dupBytes raw else raw
  match r.sealInfo with
  | some (h, idx, rest) => (raw.take 0x70) ++ pack [(4, h.toNat), (4, 0), (8, idx)] ++ rest
  | none =>
    match s.recSealer k r with
    | some q => ((s.session q).sealed x.par.session (s.session q).next raw).1
    | none => raw

/-- Sealing does not let a new record start: a checkpoint finds no room (R705). -/
def State.sealHolds (s : State) (k : Nat) (r : Rec) : Bool :=
  match r.sealInfo, s.recSealer k r with
  | none, some q => s.sealStuck q
  | _, _ => false

/-! ### Pacing (R577) -/

/-- The start test on the fill alone. -/
def Sink.startTest (x : Sink) (r : Region) : Bool := x.par.high = 0 || decide (x.par.high * r.bytes ≤ 256 * r.owed)

/-- After a delivery: at LOW the channel stops and the start test applies again. -/
def State.pace (s : State) (k : Nat) : State :=
  let r := s.region (s.sink k).par.region
  s.setSink k fun x =>
    if x.moving && decide (256 * r.owed ≤ x.par.low * r.bytes) then { x with moving := x.startTest r } else x

/-! ### Delivery (R573, R600) -/

/-- Deliver records: their places are free, the KiB count advances, the delivered watermark goes to the peer (R675). -/
def State.deliver (s : State) (k : Nat) (seqs : List Nat) : State :=
  let x := s.sink k
  let bytes := sumN ((s.region x.par.region).recs.map fun r => if seqs.contains r.seq then s.outLen k r else 0)
  let s := { s with
    regions := upd s.regions x.par.region fun r =>
      { r with recs := r.recs.map fun y : Rec => if seqs.contains y.seq then { y with delivered := true } else y }
    dma := upd s.dma x.par.chan fun d =>
      { d with kib := satN (2 ^ 32 - 1) (d.kib + (d.bytes + bytes) / 1024), bytes := (d.bytes + bytes) % 1024 } }
  let s := match seqs.getLast? with
    | some q => if s.pair.role = Role.primary then s.emit (.seam (.delivered (Fin.ofNat 128 k) q)) else s
    | none => s
  s.pace k

/-! ### Host buffers (R580–R584) -/

/-- Write a buffer back: the quadword at 0x10, then the one at 0x18 with DONE (R83). OK and ABORTED deliver the records that end in it. -/
def State.writeBack (s : State) (k : Nat) (b : OpenBuf) (confirmed : Bool) : State :=
  let x := s.sink k
  let r := s.dring x.par.ring
  let slot := r.base.toNat + 32 * (b.buf.count.toNat % 2 ^ r.size)
  let status := b.code + 8 * b2n b.gap + 16 * b2n b.dup + 32 * b2n b.cont + 64 * b2n confirmed
  let io := s.io.write r.port.val (slot + 0x10) (pack [(4, b.used), (2, b.recs), (1, status), (1, 0)]) false
  let io := io.write r.port.val (slot + 0x18) (pack [(7, b.first), (1, 128 * b2n b.buf.phase + 64)]) false
  let s := { s with io := { io with data := upd io.data x.par.ring fun r => { r with cons := b.buf.count + 1 } } }
  let s := if s.pair.role = .primary then s.emit (.seam (.bufConfirmed (Fin.ofNat 128 k) b.buf.count.toNat)) else s
  if b.code = 0 || b.code = 3 then s.deliver k b.ends else s

/-- Close the open buffer with a code: with CONFIRM its last 4 bytes are read first (R581, R582). -/
def State.closeBuf (s : State) (k code : Nat) : State :=
  let x := s.sink k
  match x.buf with
  | none => s
  | some b =>
    let b := { b with code := code }
    let s := s.setSink k fun x => { x with buf := none }
    if x.par.confirm && 4 ≤ b.used then
      (s.emit (.hostRead (s.dring x.par.ring).port (b.buf.addr + b.used - 4) 4)).setSink k fun x => { x with confirm := some b }
    else s.writeBack k b false

/-- Take the next posted buffer; none when the ring holds none (R583). -/
def State.openBuf (s : State) (k : Nat) (first : Nat) (cont : Bool) : Option State :=
  let x := s.sink k
  match (s.dring x.par.ring).posted with
  | [] => none
  | p :: rest =>
    let s := s.setDring x.par.ring fun r => { r with posted := rest }
    let s := if s.pair.role = .primary then s.emit (.seam (.bufReserved (Fin.ofNat 128 k) p.count.toNat)) else s
    some (s.setSink k fun x =>
      { x with buf := some { buf := p, used := 0, recs := 0, first := first, cont := cont, gap := false, dup := false, tm := s.now
                             ends := [], code := 0, prev := x.last } })

/-- The first byte of a record goes out: the issued watermark (R675). -/
def State.issue (s : State) (k seq : Nat) : State :=
  let s := s.setSink k fun x => { x with issued := max x.issued (seq + 1) }
  if s.pair.role = .primary then s.emit (.seam (.issued (Fin.ofNat 128 k) seq)) else s

/-- A record begins in the open buffer. -/
def State.beginHost (s : State) (k : Nat) (r : Rec) : State :=
  let n := s.outLen k r
  (s.issue k r.seq).setSink k fun x =>
    let gap := x.gapDue || x.last.any fun l => l + 1 != r.seq
    { x with
      cur := some { seq := r.seq, done := 0, total := n, queue := 0, off := 0 }, gapDue := false
      buf := x.buf.map fun b =>
        { b with recs := b.recs + 1, first := if b.recs = 0 then r.seq else b.first, gap := if b.recs = 0 then gap else b.gap
                 prev := if b.recs = 0 then x.last else b.prev
                 dup := b.dup || x.isDup r.seq } }

/-- A record fits in what the open buffer has left; a fresh one takes any (R580). -/
def OpenBuf.takes (b : OpenBuf) (n : Nat) : Bool := !b.cont && (b.used == 0 || decide (b.used + n ≤ b.buf.len))

/-- Start the next record of a host sink, closing the open buffer when it does not fit. -/
def State.startHost (s : State) (k : Nat) (r : Rec) : State :=
  let n := s.outLen k r
  let s := match (s.sink k).buf with
    | some b => if b.takes n then s else s.closeBuf k 0
    | none => s
  if (s.sink k).confirm.isSome then s
  else if (s.sink k).buf.isSome then s.beginHost k r
  else match s.openBuf k r.seq false with
    | some s => s.beginHost k r
    | none => s

/-! ### Storage queues (R589–R594) -/

def StoreQ.sqSize (q : StoreQ) : Nat := q.u 0x0C 2 + 1
def StoreQ.cqSize (q : StoreQ) : Nat := q.u 0x0E 2 + 1
def StoreQ.lbaBytes (q : StoreQ) : Nat := 2 ^ q.u 0x34 1
def StoreQ.doorbell (q : StoreQ) (head : Bool) : Nat := q.u 0x18 8 + (2 * q.u 0x20 2 + b2n head) * (4 * 2 ^ q.u 0x22 1)

/-- End of the highest queue of a list, rounded up to 4 KiB (R591). -/
def queuesEnd (qs : List StoreQ) : Nat :=
  ceilDiv ((qs.map fun q => max (q.u 0x10 4 + 64 * q.sqSize) (q.u 0x14 4 + 16 * q.cqSize)).foldl max 0) 4096 * 4096

/-- PRP-list space of a list of queues. -/
def prpBytes (qs : List StoreQ) : Nat := sumN (qs.map fun q => 4096 * q.sqSize)

def State.queuesOf (s : State) (k : Nat) : List StoreQ := (s.sink k).queues.map s.queue

/-- The staging circle of a storage sink: first and end offset in its region (R591, R592). -/
def State.staging (s : State) (k : Nat) : Nat × Nat :=
  let qs := s.queuesOf k
  (queuesEnd qs + prpBytes qs, (s.region ((s.sink k).stRegion.getD 0)).bytes)

/-- Offset of the PRP list of a queue's submission slot. -/
def State.prpList (s : State) (k q slot : Nat) : Nat :=
  let ids := (s.sink k).queues
  let before := (ids.takeWhile (· != q)).map s.queue
  queuesEnd (s.queuesOf k) + prpBytes before + 4096 * slot

/-- Bytes of a record on the media: whole LBAs. -/
def StoreQ.media (q : StoreQ) (n : Nat) : Nat := ceilDiv n q.lbaBytes * q.lbaBytes

/-- Staging intervals in use. -/
def State.staged (s : State) (k : Nat) : List (Nat × Nat) :=
  ((s.sink k).queues.flatMap fun q => (s.queue q).recs.map fun r => (r.off, ceilDiv r.len 4096 * 4096)) ++
    (match (s.sink k).cur with | some c => [(c.off, ceilDiv ((s.queue c.queue).media c.total) 4096 * 4096)] | none => [])

/-- Room for n bytes in the staging circle. -/
def State.stagePlace (s : State) (k n : Nat) : Option Nat :=
  let (lo, hi) := s.staging k
  let len := ceilDiv n 4096 * 4096
  let o := if lo ≤ (s.sink k).stNext && (s.sink k).stNext + len ≤ hi then (s.sink k).stNext else lo
  if o + len ≤ hi && (s.staged k).all fun (a, l) => decide (a + l ≤ o) || decide (o + len ≤ a) then some o else none

/-- Whether a queue can take n bytes, and the LBA it writes them at. -/
def StoreQ.place (q : StoreQ) (n : Nat) : Option Nat :=
  let need := ceilDiv n q.lbaBytes
  let start := q.u 0x28 8
  let count := q.u 0x30 4
  if q.nextLba + need ≤ start + count then some q.nextLba
  else if bit (q.u 0x23 1) 1 && need ≤ count then some start
  else none

def StoreQ.striped (q : StoreQ) : Bool := q.attached && !q.spare && !q.failed && !q.full

/-- The queue for the next record, round-robin, with its place in the order; a queue whose range is exhausted becomes FULL (R592). -/
def State.pickQueue (s : State) (k n : Nat) : (ps : List Nat) → State × Option Nat
  | [] => (s, none)
  | p :: rest =>
    let ids := (s.sink k).queues
    let q := (ids[p % max 1 ids.length]?).getD 0
    if (s.queue q).striped then
      match (s.queue q).place n with
      | some _ => (s, some (p % max 1 ids.length))
      | none => (s.setQueue q fun x => { x with full := true }).pickQueue k n rest
    else s.pickQueue k n rest

/-- Bus address of a region byte behind BAR4. -/
def State.busOf (s : State) (k q o : Nat) : Nat :=
  Config.bar4Base ((s.queue q).u 0x35 1) + (((s.region ((s.sink k).stRegion.getD 0)).window).getD 0) * granuleBytes + o

/-- A submission entry (NVM Write or Flush) of command j of a record. -/
def State.sqe (s : State) (k q slot : Nat) (r : StoreRec) (j : Nat) : List Byte :=
  let x := s.queue q
  if r.flush then slice 0 64 (pack [(1, 0), (1, 0), (2, slot), (4, x.u 0x24 4)])
  else
    let off := r.off + j * 2 ^ 21
    let n := min (2 ^ 21) (r.len - j * 2 ^ 21)
    let prp2 := if n ≤ 4096 then 0 else if n ≤ 8192 then s.busOf k q (off + 4096) else s.busOf k q (s.prpList k q slot)
    let lba := r.lba + j * 2 ^ 21 / x.lbaBytes
    pack [(1, 1), (1, 0), (2, slot), (4, x.u 0x24 4), (8, 0), (8, 0), (8, s.busOf k q off), (8, prp2), (8, lba),
      (4, (n / x.lbaBytes - 1) + 2 ^ 30 * b2n (bit (x.u 0x23 1) 2)), (4, 0), (4, 0), (4, 0)]

/-- The PRP list of a command of more than two pages. -/
def State.prpEntries (s : State) (k q : Nat) (r : StoreRec) (j : Nat) : List Byte :=
  let n := min (2 ^ 21) (r.len - j * 2 ^ 21)
  (List.range (ceilDiv n 4096 - 1)).flatMap fun i => le 8 (s.busOf k q (r.off + j * 2 ^ 21 + 4096 * (i + 1)))

/-- Submit one command of the first record that has one left, while the submission queue has room. -/
def State.submitOne (s : State) (k q : Nat) : Option State :=
  let x := s.queue q
  let reg := (s.sink k).stRegion.getD 0
  if x.sqSize ≤ x.outstanding + 1 then none
  else match x.recs.findIdx? fun r : StoreRec => decide (r.sent < r.cmds) && !(r.failed && !r.flush) && !r.gone with
  | none => none
  | some i =>
    match x.recs[i]? with
    | none => none
    | some r =>
      let slot := x.tail
      let n := min (2 ^ 21) (r.len - r.sent * 2 ^ 21)
      let s := if !r.flush && 8192 < n then s.putBytes reg (s.prpList k q slot) (s.prpEntries k q r r.sent) else s
      let s := s.putBytes reg (x.u 0x10 4 + 64 * slot) (s.sqe k q slot r r.sent)
      some (s.setQueue q fun x =>
        { x with tail := (slot + 1) % x.sqSize, outstanding := x.outstanding + 1
                 recs := replaceAt x.recs i fun r => { r with sent := r.sent + 1 } })

/-- Submit what the queue has room for, then ring the tail doorbell (R590). A halted sink starts no command (R597). -/
def State.submit (s : State) (k q : Nat) : State :=
  if (s.sink k).halted then s
  else
    let rec' := fun (s : State) (_ : Nat) => (s.submitOne k q).getD s
    let s' := (List.range (s.queue q).sqSize).foldl rec' s
    if (s'.queue q).tail = (s.queue q).tail then s
    else { s' with io := s'.io.write ((s.queue q).u 0x35 1) ((s.queue q).doorbell false) (le 4 (s'.queue q).tail) false }

/-- Put a record on a queue at its next place and submit it. -/
def State.queueRec (s : State) (k q seq off len : Nat) : State :=
  let lba := ((s.queue q).place len).getD (s.queue q).nextLba
  let s := s.setQueue q fun x =>
    { x with nextLba := lba + len / x.lbaBytes
             recs := x.recs ++ [{ seq := seq, lba := lba, off := off, cmds := ceilDiv len (2 ^ 21), sent := 0, done := 0, failed := false
                                  again := false, flush := false, tm := s.now, len := len, gone := false }] }
  s.submit k q

/-! ### Halts (R595–R597) -/

/-- A record of the session's sink is being sealed. -/
def State.midSeal (s : State) (q : Nat) : Bool := match (s.session q).sink with
  | none => false
  | some k => (s.sink k).cur.any fun c => (s.region (s.sink k).par.region).recs.any fun r : Rec =>
      r.seq == c.seq && r.sealInfo.isNone && s.recSealer k r == some q

/-- A checkpoint is due: it is cut now, or after the record that is being sealed (R705). -/
def State.cutSoon (s : State) (q kind : Nat) (ring : Option (Fin 16)) : State :=
  if s.midSeal q then s.setSession q fun x => { x with due := x.due ++ [(kind, ring)] } else s.cut q kind ring

/-- The record in transfer goes without being sealed; checkpoints that waited for it are cut. -/
def State.dropCur (s : State) (k : Nat) : State :=
  let s := s.setSink k fun x => { x with cur := none }
  match s.sealer (s.sink k).par.session with
  | some q => s.cutDue q
  | none => s

/-- Halt a sink: the faulted buffer is written back, DMA_HALT is raised. `info` is the queue index for causes 3 and 4. -/
def State.haltSink (s : State) (k cause code seq : Nat) (info : Option Nat) : State :=
  let x := s.sink k
  let b := match x.buf with | some b => some b | none => x.confirm
  let count := match b with | some b => b.buf.count | none => (s.dring x.par.ring).cons
  let s := s.setSink k fun x =>
    { x with halted := true, cause := cause, cur := none, buf := none, confirm := none
             faultFirst := match b with | some b => b.first | none => seq
             faultSeq := seq
             faultPrev := match b with | some b => b.prev | none => x.last }
  let s := s.dropCur k
  let s := { s with dma := upd s.dma x.par.chan fun d => { d with cause := cause } }
  let s := match b with | some b => s.writeBack k { b with code := code } false | none => s
  let data := [(1, cause), (1, x.par.chan), (2, info.getD (count.toNat % 65536)), (8, seq)]
  if b.isSome then s.noteAfter (s.sinkPort k) .dmaHalt (s.handleOf 4 k) data else s.note .dmaHalt (s.handleOf 4 k) data

/-! ### Unbinding (R594, R599) -/

/-- Return a storage sink's queues to the host. -/
def State.dropQueues (s : State) (k : Nat) : State :=
  (s.sink k).queues.foldl (fun s q => s.setQueue q fun _ => .reset) (s.dropWriter (.storage k))

/-- What a queue still has under way ends without a delivery; what was not submitted goes (R599). -/
def StoreQ.orphan (x : StoreQ) : StoreQ :=
  { x with recs := (x.recs.filter fun r : StoreRec => decide (r.done < r.sent)).map fun r => { r with gone := true } }

/-- Release what a bound sink holds; with `release` its handle and queues too. -/
def State.unbindNow (s : State) (k : Nat) (release : Bool) : State :=
  let x := s.sink k
  let s := s.dropWriter (.staging k)
  let s := { s with
    regions := s.regions.map fun r : Region => if r.sink = some k then { r with sink := none } else r
    dma := if x.bound then upd s.dma x.par.chan fun d => { d with sink := none } else s.dma
    sec := { s.sec with sessions := s.sec.sessions.map fun q : Session => if q.sink = some k then { q with sink := none } else q } }
  let s := x.queues.foldl (fun (s : State) q => s.setQueue q StoreQ.orphan) s
  if release then (s.dropQueues k).setSink k fun x => { Sink.reset with gen := nextGen x.gen }
  else s.setSink k fun x =>
    { Sink.reset with gen := x.gen, alloc := true, storage := x.storage, queues := x.queues, stRegion := x.stRegion, stTurn := x.stTurn }

/-- Carry an unbind on as far as it goes now; true when the sink is free of work. -/
def State.unbindStep (s : State) (k : Nat) (drain : Bool) : State × Bool :=
  let x := s.sink k
  if x.halted || !x.bound then (s, true)
  else if x.cur.isSome || x.confirm.isSome || (drain && (s.nextRec k).isSome) then (s, false)
  else if !x.storage then
    let s := s.closeBuf k (if drain then 0 else 3)
    (s, (s.sink k).confirm.isNone)
  else match x.flushing with
    | some n => (s, n == 0)
    | none =>
      if !(s.outstanding k).isEmpty then (s, false)
      else
        let qs := x.queues.filter fun q => !(s.queue q).failed
        let s := s.setSink k fun x => { x with flushing := some qs.length }
        let s := qs.foldl (fun s q =>
          (s.setQueue q fun y =>
            { y with recs := y.recs ++ [{ seq := 0, lba := 0, off := 0, cmds := 1, sent := 0, done := 0, failed := false, again := false
                                          flush := true, tm := s.now, len := 0, gone := false }] }).submit k q) s
        (s, qs.isEmpty)

/-- Complete a SINK_UNBIND that waits, when the sink is free of work. -/
def State.unbindCheck (s : State) (k : Nat) : State :=
  match (s.sink k).draining with
  | none => s
  | some ring =>
    match s.waitsAt ring.val .unitDrain with
    | none => s
    | some f =>
      match s.unbindStep k (dBit f.d 0x08 0) with
      | (s, true) => (s.unbindNow k (dBit f.d 0x08 1)).finish ring.val .ok 0 0
      | (s, false) => s

/-! ### Fetching (R53) -/

/-- The read request for n slots of a ring from count i on; slots wrap at the ring's end. -/
def State.fetch (s : State) (port : Fin 2) (base k bytes : Nat) (i : Word) (n : Nat) : State :=
  let first := i.toNat % 2 ^ k
  let a := min n (2 ^ k - first)
  let s := { s with io := (s.io.leaveL1 port.val).emit (.hostRead port (base + bytes * first) (bytes * a)) }
  if a < n then s.emit (.hostRead port base (bytes * (n - a))) else s

/-- A data ring whose sink is halted latches counts and reads nothing (R597). -/
def State.ringHalted (s : State) (n : Nat) : Bool :=
  s.sinks.toList.any fun x => x.bound && !x.storage && x.par.ring == n && x.halted

/-- Ask for the slots of a data ring below its producer count that have not been asked for (R53, R61). -/
def State.fetchData (s : State) (n : Nat) : State :=
  let r := s.dring n
  if r.en && !r.parked && !s.ringHalted n && (s.hostPort r.port.val).linkUp && below r.cons r.asked r.prod then
    (s.fetch r.port r.base.toNat r.size 32 r.asked (r.prod - r.asked).toNat).setDring n fun r =>
      { r with asked := r.prod, reads := r.reads ++ [(r.asked, (r.prod - r.asked).toNat)] }
  else s

/-! ### A beat (R575) -/

/-- No new record may start: a SINK_UNBIND without DRAIN finishes the record in transfer only; a switchover waits. -/
def State.startHeld (s : State) (k : Nat) : Bool :=
  s.switching || (match (s.sink k).draining with
    | some ring => (s.waitsAt ring.val .unitDrain).any fun f => !dBit f.d 0x08 0
    | none => false)

/-- The sink's channel has work it can do now. -/
def State.sinkReady (s : State) (k : Nat) : Bool :=
  let x := s.sink k
  let startable := !s.startHeld k && match s.nextRec k with | some r => !s.sealHolds k r | none => false
  x.bound && x.moving && !x.halted && s.egress && x.confirm.isNone && (x.cur.isSome || startable) &&
  (if x.storage then x.cur.isSome || (match s.nextRec k with
      | some r =>
        let (s', q) := s.pickQueue k (s.outLen k r) ((List.range x.queues.length).map (· + x.stTurn))
        match q with
        | none => true
        | some p => (s'.stagePlace k ((s'.queue ((x.queues[p]?).getD 0)).media (s.outLen k r))).isSome
      | none => false)
   else (s.hostPort (s.sinkPort k)).linkUp && (s.dring x.par.ring).en && (x.buf.isSome || !(s.dring x.par.ring).posted.isEmpty))

/-- Sinks whose channels are ready, as (channel, sink), in channel order. -/
def State.readyChans (s : State) : List (Nat × Nat) :=
  (List.range 64).filterMap fun c => match (nth s.dma c .reset).sink with
    | some k => if s.sinkReady k then some (c, k) else none
    | none => none

/-- The channel the engine serves at this beat: the highest class present, and in it turns of 512 bytes in ascending order (R575). -/
def State.servedChan (s : State) : Option (Nat × Nat) :=
  let ready := s.readyChans
  let cls := fun c => (nth s.dma c .reset).cls
  let top := (ready.map fun (c, _) => cls c).foldl min 4
  let same := ready.filter fun (c, _) => cls c == top
  let (last, bytes) := nth s.io.arb top (0, 512)
  match same.find? fun (c, _) => c == last && decide (bytes < 512) with
  | some x => some x
  | none => match same.find? fun (c, _) => decide (last < c) with
    | some x => some x
    | none => same.head?

/-- Account a beat to its channel's turn. -/
def State.turn (s : State) (c n : Nat) : State :=
  let cls := (nth s.dma c .reset).cls
  { s with io := { s.io with arb := upd s.io.arb cls fun (last, b) => if last = c && b < 512 then (c, b + n) else (c, n) } }

/-- Start a storage sink's next record: its queue and its place in staging. With every queue FULL or FAILED the sink halts (R593). -/
def State.startStore (s : State) (k : Nat) (r : Rec) : State :=
  let x := s.sink k
  let n := s.outLen k r
  match s.pickQueue k n ((List.range x.queues.length).map (· + x.stTurn)) with
  | (s, none) => s.haltSink k 4 2 r.seq (x.queues.getLast?)
  | (s, some p) =>
    let q := (x.queues[p]?).getD 0
    match s.stagePlace k ((s.queue q).media n) with
    | none => s
    | some o =>
      (s.issue k r.seq).setSink k fun x =>
        { x with cur := some { seq := r.seq, done := 0, total := n, queue := q, off := o }, stTurn := p + 1
                 stNext := o + ceilDiv ((s.queue q).media n) 4096 * 4096 }

/-- Seal a record that has no seal yet: the filled fields and the tag go into its slot, the chain advances (R703). -/
def State.sealRec (s : State) (k : Nat) (r : Rec) : State :=
  let x := s.sink k
  let out := s.outBytes k r
  match r.sealInfo, s.recSealer k r with
    | none, some q =>
      let idx := (s.session q).next
      let tag := out.drop (out.length - 16)
      let s := s.putBytes x.par.region (r.off + 0x70) (pack [(4, x.par.session.toNat), (4, 0), (8, idx)])
      let s := s.putBytes x.par.region (r.off + r.len) tag
      let s := { s with regions := upd s.regions x.par.region fun g =>
        { g with recs := g.recs.map fun y : Rec => if y.seq = r.seq then { y with sealInfo := some (x.par.session, idx, out.drop 128) } else y } }
      s.sealDone q tag
    | _, _ => s

/-- The last byte of a record has passed: sealing ends, the sink moves on. -/
def State.recordPassed (s : State) (k : Nat) (r : Rec) : State :=
  (s.sealRec k r).setSink k fun x => { x with cur := none, next := r.seq + 1, last := some r.seq }

/-- Move one beat of the record in transfer. `err` is what the beat's read of HBM meets. -/
def State.moveBeat (s : State) (k : Nat) (c : Moving) (err : MemErr) : State :=
  let x := s.sink k
  match (s.region x.par.region).recs.find? fun r : Rec => r.seq == c.seq with
  | none => s.dropCur k
  | some r =>
    let s := if !x.storage && x.buf.isNone then (s.openBuf k r.seq true).getD s else s
    let x := s.sink k
    let room := if x.storage then 64 else match x.buf with | some b => b.buf.len - b.used | none => 0
    let m := min (min 64 (c.total - c.done)) room
    let isLast := decide (c.total ≤ c.done + m)
    let fromHbm := min m (r.len - c.done)
    let met := if fromHbm = 0 then none else s.readMeets x.par.region (r.off + c.done) fromHbm err
    let src := if (nth s.dma x.par.chan .reset).cls = 0 then 4 else 5
    let s := match met with | some (loc, e) => s.readErr loc e src | none => s
    let s := s.turn x.par.chan m
    if met.any fun (_, e) => e == .uncorrectable || e == .poison then
      let s := if isLast then s.setSink k fun x => { x with buf := x.buf.map fun b => { b with used := b.used + m } } else s
      s.haltSink k (if isLast then 1 else 0) (if isLast then 1 else 2) r.seq none
    else
      let bytes := ((s.outBytes k r).drop c.done).take m
      if x.storage then
        let reg := x.stRegion.getD 0
        let s := s.putBytes reg (c.off + c.done) bytes
        let s := s.setSink k fun x => { x with cur := some { c with done := c.done + m } }
        if isLast then
          let len := (s.queue c.queue).media c.total
          let s := s.putBytes reg (c.off + c.total) (List.replicate (len - c.total) 0)
          (s.recordPassed k r).queueRec k c.queue r.seq c.off len
        else s
      else match x.buf with
      | none => s
      | some b =>
        let p := (s.dring x.par.ring).port
        let s := s.emit (.hostWrite p (b.buf.addr + b.used) bytes (s.hostPort p.val).roEn)
        let used := b.used + m
        let s := s.setSink k fun x =>
          { x with cur := some { c with done := c.done + m }
                   buf := some { b with used := used, ends := if isLast then b.ends ++ [r.seq] else b.ends } }
        let s := if isLast then s.recordPassed k r else s
        let late := x.par.close ≠ 0 && b.tm + x.par.close * 100000 ≤ s.now
        if b.buf.len ≤ used || (isLast && (b.cont || late)) then s.closeBuf k 0 else s

/-- One beat of a sink: a record starts when none is in transfer, and its bytes move. -/
def State.sinkBeat (s : State) (k : Nat) (err : MemErr) : State :=
  let x := s.sink k
  let s := if x.cur.isSome then s
    else match s.nextRec k with
      | some r => if s.startHeld k || s.sealHolds k r then s else if x.storage then s.startStore k r else s.startHost k r
      | none => s
  let s := match (s.sink k).cur with
    | some c => s.moveBeat k c err
    | none => s
  s.unbindCheck k

end Sys2Proof.Machine
end

