-- ==== Sys2Proof/Machine/SinkRows.lean ====
section
/-! DEFINITION. The sink, DMA and storage-queue commands and events (R571–R600). -/

namespace Sys2Proof.Machine

/-! ### SINK_BIND (R578, R579, R586, R702) -/

def bindCorner (d : Desc) : Bool := dBit d 0x10 0

/-- Sink indices that commands in flight have claimed with handle 0, each as the handle of its completion. -/
def State.sinkClaimed (s : State) (k : Nat) : Bool :=
  s.io.cmd.toList.any fun r => r.inflight.any fun f =>
    (f.op == .sinkBind || f.op == .storeQueueAttach) && f.d.handle == 0 && f.handle == s.handleOf 4 k

/-- The sink a command with handle 0 allocates: the lowest free index; 0 when there is none. -/
def State.sinkPick (s : State) : Handle :=
  match s.claimIdx 128 fun k => !(s.sink k).alloc && !s.sinkClaimed k with
  | some k => s.handleOf 4 k
  | none => 0

/-- The data ring; a storage sink has none, and the field is ignored (R801). -/
def bindRing (d : Desc) : Nat := if d.u 0x0C 1 = 0 then d.u 0x0D 1 else 0

def bindRegion (d : Desc) : Handle := BitVec.ofNat 32 (d.u 0x08 4)
def bindSession (d : Desc) : Handle := BitVec.ofNat 32 (d.u 0x18 4)
def bindStaging (d : Desc) : Handle := BitVec.ofNat 32 (d.u 0x1C 4)

/-- The handles that the descriptor itself names pass R93. -/
def bindHandles (d : Desc) (s : State) : Bool :=
  (if bindCorner d then s.valid 3 (bindStaging d) else s.valid 3 (bindRegion d)) &&
  (bindSession d == 0 || s.valid 8 (bindSession d)) && !(d.u 0x0C 1 == 1 && d.handle == 0)

/-- The sink is not bound, and its ring is enabled or its queues take records. -/
def bindState (d : Desc) (s : State) : Bool :=
  let k := hIdx d.handle
  (d.handle == 0 || !(s.sink k).bound) &&
  (if d.u 0x0C 1 = 1 then (s.sink k).storage && (s.sink k).queues.any fun q => (s.queue q).striped
   else 128 ≤ d.u 0x0D 1 || d.u 0x0C 1 != 0 || (s.dring (d.u 0x0D 1)).en)

/-- Fields in range (R578); the ring of a storage sink and the region of a corner turn are ignored (R801). -/
def bindFields (d : Desc) (s : State) : Bool :=
  let high := d.u 0x11 1
  let low := d.u 0x12 1
  let ch := d.u 0x0E 1
  d.clean [(0x08, 11), (0x14, 21), (0x2A, 6)] && d.u 0x0C 1 ≤ 1 && bindRing d < 128 &&
  (d.u 0x0C 1 == 1 || d.handle == 0 || !(s.sink (hIdx d.handle)).storage) &&
  (ch < 64 || ch == 255) && d.u 0x0F 1 ≤ 3 && d.u 0x10 1 < 4 && !(high != 0 && high ≤ low) &&
  (if bindCorner d then
    inR (d.u 0x28 1) 1 128 && inR (d.u 0x2A 2) 1 4096 && inR (d.u 0x2C 2) 1 256 && 1 ≤ d.u 0x2E 2 &&
    addrOk (d.u 0x20 8) (4 * d.u 0x28 1) 4
   else d.u 0x1C 4 == 0 && d.u 0x20 8 == 0 && d.u 0x28 8 == 0)

/-- The unit of an input region, when it is continuous and takes product 1 or 2 (R586). -/
def State.ctInput (s : State) (i : Nat) : Option Acq :=
  match (s.region i).writer with
  | .acq u =>
    let a := s.acq u
    if a.par.mode = 3 && a.par.source = 3 && inR a.par.code 1 2 then some a else none
  | _ => none

/-- The conditions of R586 on the input regions and the staging region. -/
def State.ctOk (s : State) (d : Desc) (ins : List Nat) : Bool :=
  let us := ins.map s.ctInput
  us.all (·.isSome) && ins.eraseDups.length == ins.length &&
  (match us with
  | some a :: _ =>
    let key := fun (a : Acq) =>
      let c := s.chan a.par.srcIdx
      (a.par.code, c.fe.d, c.sp.l, c.sp.h, c.pr.f, c.pr.bins, c.pr.b, (s.stream c.stream).par.group)
    let pr := (s.chan a.par.srcIdx).pr
    let b := pr.bins / 2 ^ pr.b
    let n := ins.length
    let t := d.u 0x2C 2
    us.all (fun u => u.any fun v => key v == key a) &&
    decide (2 * (n * t * b * 4) +
      2 * slotBytes (64 + ceilDiv (2 * t * n) 8 * 8 + 4 * min (d.u 0x2A 2) b * t * n) ≤ (s.region (hIdx (bindStaging d))).bytes)
  | _ => false)

/-- The sink of SINK_BIND: the one named, or the one it has claimed or would. -/
def bindSink (d : Desc) (s : State) : Handle :=
  if d.handle = 0 then (((s.cmdRing d.ring.val).inflight.map fun f => f.handle).filter (· ≠ 0)).getD s.sinkPick else d.handle

/-- What the corner turns of other rings have claimed (R42). -/
def State.bindClaims (s : State) (ring : Nat) : List SinkPar :=
  s.sinks.toList.filterMap fun x : Sink => (x.claim.filter fun p => p.1 != ring).map (·.2)

/-- The set-up of SINK_BIND with its DMA channel. -/
def bindPar (d : Desc) (c : Nat) (ins : List Nat) : SinkPar :=
  { region := hIdx (if bindCorner d then bindStaging d else bindRegion d), target := d.u 0x0C 1, ring := bindRing d, chan := c
    cls := d.u 0x0F 1, corner := bindCorner d, confirm := dBit d 0x10 1, high := d.u 0x11 1, low := d.u 0x12 1, age := d.u 0x14 2
    close := d.u 0x16 2, session := bindSession d, inputs := ins, f := d.u 0x2A 2, t := d.u 0x2C 2, maxWait := d.u 0x2E 2 }

/-- The DMA channel that SINK_BIND takes, once its ring, its channel, its regions and its session are found free (R578, R579): the one it has
claimed, the one it names, or the lowest free one. -/
def bindClaim (d : Desc) (ins : List Nat) (s : State) : Except Status Nat :=
  let r := d.ring.val
  let k := hIdx (bindSink d s)
  let others := s.bindClaims r
  let src := (bindPar d 0 ins).region
  let taken := fun (c : Nat) => (nth s.dma c .reset).sink.isSome || others.any fun p => p.chan == c
  let ch := if d.u 0x0E 1 ≠ 255 then some (d.u 0x0E 1)
    else ((s.sink k).claim.map fun p => p.2.chan) <|> firstIdx 64 fun c => !taken c
  if (d.u 0x0E 1 ≠ 255 && taken (d.u 0x0E 1)) ||
      (d.u 0x0C 1 = 0 && ((s.sinks.toList.any fun x : Sink => x.bound && !x.storage && x.par.ring == d.u 0x0D 1) ||
        others.any fun p => p.target == 0 && p.ring == d.u 0x0D 1)) ||
      ((src :: ins).any fun i => (s.region i).sink.isSome || others.any fun p => p.region == i) ||
      (bindCorner d && s.writerBusy src (.staging k)) ||
      (bindSession d ≠ 0 && ((s.session (hIdx (bindSession d))).sink.isSome || others.any fun p => p.session == bindSession d)) then
    .error .resourceBusy
  else match ch with
  | some c => if bindSink d s = 0 then .error .noCapacity else .ok c
  | none => .error .noCapacity

/-- The rest of SINK_BIND, with the input regions of a corner turn. -/
def sinkBindRest (d : Desc) (ins : List Nat) (s : State) : Verdict :=
  let h := bindSink d s
  let k := hIdx h
  let corner := bindCorner d
  let src := (bindPar d 0 ins).region
  if corner && !s.ctOk d ins then fail .badParam d s
  else match bindClaim d ins s with
  | .error st => fail st d s
  | .ok c =>
      let owed := sumN ((if corner then ins else [src]).map fun i => (s.region i).owed)
      let par := bindPar d c ins
      let s := s.setSink k fun x =>
        { x with alloc := true, bound := true, par := par, moving := par.high == 0, halted := false, next := 0, last := none
                 cur := none, buf := none, confirm := none, gapDue := false, issued := 0, ctNext := 0, claim := none }
      let s := { s with
        dma := upd s.dma c fun x => { x with sink := some k, cls := par.cls }
        regions := (src :: ins).foldl (fun v i => upd v i fun r => { r with sink := some k }) s.regions }
      let s := if corner then s.setWriter src (.staging k) else s
      let s := if bindSession d = 0 then s else s.setSession (hIdx (bindSession d)) fun x => { x with sink := some k }
      .done .ok c (owed % 2 ^ 32) h s

/-- A corner turn holds its DMA channel, ring, staging region and session from acceptance, and reads its input list then (R42, R65). -/
def sinkBindBody (d : Desc) (s : State) : Verdict :=
  if !bindHandles d s then fail .badHandle d s
  else if !bindState d s then fail .wrongState d s
  else if !bindFields d s then fail .badParam d s
  else if bindCorner d then
    match bindClaim d [] s with
    | .error st => fail st d s
    | .ok c =>
      let h := bindSink d s
      let par := bindPar d c []
      match readBuffer d (d.u 0x20 8) (4 * d.u 0x28 1)
          ((s.setWriter par.region (.staging (hIdx h))).setSink (hIdx h) fun x => { x with claim := some (d.ring.val, par) }) with
      | .wait st _ s' => .wait st h s'
      | v => v
  else sinkBindRest d [] s

/-- The input list of a corner turn has come. -/
def sinkBindData (d : Desc) (buf : List Byte) (s : State) : Verdict :=
  let hs := (words32 (buf.take (4 * d.u 0x28 1))).map (BitVec.ofNat 32)
  if !bindHandles d s || !(hs.all fun h => s.valid 3 h) then fail .badHandle d s
  else if !bindState d s then fail .wrongState d s
  else sinkBindRest d (hs.map hIdx) s

/-! ### SINK_UNBIND (R594, R599) -/

def sinkUnbindBody (d : Desc) (s : State) : Verdict :=
  let k := hIdx d.handle
  if !d.clean [(0x08, 1)] || 4 ≤ d.u 0x08 1 then fail .badParam d s
  else if (s.sink k).draining.isSome then fail .wrongState d s
  else match s.unbindStep k (dBit d 0x08 0) with
    | (s, true) => .done .ok 0 0 d.handle (s.unbindNow k (dBit d 0x08 1))
    | (s, false) => .wait .unitDrain d.handle (s.setSink k fun x => { x with draining := some d.ring })

/-! ### STORE_QUEUE_ATTACH (R589, R591) -/

def attachRegion (d : Desc) : Handle := BitVec.ofNat 32 (d.u 0x08 4)

/-- A queue pair as the descriptor gives it. -/
def attachQueue (d : Desc) (k : Nat) : StoreQ :=
  { StoreQ.reset with attached := true, spare := dBit d 0x23 0, sink := k, par := d.params, nextLba := d.u 0x28 8 }

/-- The two queues of a pair as byte ranges of the region. -/
def StoreQ.ranges (q : StoreQ) : List (Nat × Nat) := [(q.u 0x10 4, 64 * q.sqSize), (q.u 0x14 4, 16 * q.cqSize)]

def attachOk (d : Desc) (s : State) (k : Nat) : Bool :=
  let q := attachQueue d k
  let i := hIdx (attachRegion d)
  let rs := q.ranges ++ (s.queuesOf k).flatMap StoreQ.ranges
  d.clean [(0x08, 46)] && 1 ≤ d.u 0x0C 2 && 1 ≤ d.u 0x0E 2 && d.u 0x10 4 % 4096 == 0 && d.u 0x14 4 % 4096 == 0 &&
  d.u 0x18 8 % 4 == 0 && 1 ≤ d.u 0x20 2 && d.u 0x22 1 ≤ 15 && d.u 0x23 1 < 8 && 1 ≤ d.u 0x30 4 && d.u 0x28 8 + d.u 0x30 4 ≤ 2 ^ 64 &&
  (d.u 0x34 1 == 9 || d.u 0x34 1 == 12) && d.u 0x35 1 ≤ (if s.ident.small then 0 else 1) &&
  (s.region i).window.isSome && ((s.sink k).stRegion.all fun j => j == i) &&
  q.ranges.all (fun (a, n) => decide (a + n ≤ (s.region i).bytes)) &&
  rs.zipIdx.all fun ((a, n), x) => rs.zipIdx.all fun ((b, m), y) => x == y || decide (a + n ≤ b) || decide (b + m ≤ a)

def storeQueueAttachBody (d : Desc) (s : State) : Verdict :=
  let h := if d.handle = 0 then s.sinkPick else d.handle
  let k := if h = 0 then 128 else hIdx h
  let i := hIdx (attachRegion d)
  let qs := s.queuesOf k ++ [attachQueue d k]
  if !s.valid 3 (attachRegion d) then fail .badHandle d s
  else if (s.sink k).bound && !(s.sink k).halted then fail .wrongState d s
  else if !attachOk d s k || (d.handle ≠ 0 && !(s.sink k).storage) then fail .badParam d s
  else if s.writerBusy i (.storage k) then fail .resourceBusy d s
  else match firstIdx 32 fun q => !(s.queue q).attached with
  | none => fail .noCapacity d s
  | some q =>
    if h = 0 || (s.region i).bytes < queuesEnd qs + prpBytes qs then fail .noCapacity d s
    else
      let s := (s.setQueue q fun _ => attachQueue d k).setWriter i (.storage k)
      let s := s.setSink k fun x => { x with alloc := true, storage := true, stRegion := some i, queues := x.queues ++ [q] }
      .done .ok qs.length (((s.region i).bytes - queuesEnd qs - prpBytes qs) / 1024) h s

/-! ### DMA_RESTART (R598) -/

/-- A spare queue takes the place of a FAILED one in the striping (R593). -/
def State.stripeSpare (s : State) (k : Nat) : Option (State × Nat) :=
  let ids := (s.sink k).queues
  match ids.find? (fun q => (s.queue q).attached && (s.queue q).spare), ids.findIdx? fun q => (s.queue q).failed with
  | some sp, some p =>
    let ids' := ((ids.map fun q => if q = sp then none else some q).filterMap id)
    let p' := min p ids'.length
    let s := (s.setQueue sp fun x => { x with spare := false }).setSink k fun x =>
      { x with queues := (ids'.take p') ++ [sp] ++ ids'.drop p', stTurn := p' }
    some (s, sp)
  | _, _ => none

def dmaRestartBody (d : Desc) (s : State) : Verdict :=
  let k := hIdx d.handle
  let x := s.sink k
  let skip := d.u 0x08 1
  if !x.halted then fail .wrongState d s
  else if !d.clean [(0x08, 1)] || 3 ≤ skip then fail .badParam d s
  else
    let gone := if skip = 0 then [] else if skip = 1 then [x.faultSeq]
      else ((s.region x.par.region).recs.filter fun r : Rec => decide (x.faultFirst ≤ r.seq) && decide (r.seq ≤ x.faultSeq)).map fun r => r.seq
    let s := { s with regions := upd s.regions x.par.region fun g =>
      { g with recs := g.recs.map fun r : Rec => if gone.contains r.seq then { r with delivered := true } else r } }
    let first := if skip = 2 then x.faultSeq + 1 else x.faultFirst
    let s := s.setSink k fun x =>
      { x with halted := false, next := first, last := if skip = 0 then x.faultPrev else x.last
               gapDue := skip != 0 }
    let s := if x.storage && x.cause = 3 then (match s.stripeSpare k with | some (s, _) => s | none => s) else s
    let s := x.queues.foldl (fun s q => s.submit k q) s
    let s := if x.storage then s else s.fetchData x.par.ring
    .done .ok 0 ((((s.nextRec k).map fun r => r.seq).getD first) % 2 ^ 32) d.handle s

/-- SINK_UNBIND_DRAIN_TIMEOUT (R599): 1 s has passed; the sink stays bound. -/
def execSinkUnbindDrainTimeout (ring : Fin 16) (s : State) : Host.Outcome State Fault Refusal :=
  .next (match s.waitsAt ring.val .unitDrain with
    | some f =>
      if f.op = .sinkUnbind && dBit f.d 0x08 0 then
        ((s.until (f.since + 1000000000)).setSink (hIdx f.d.handle) fun x => { x with draining := none, flushing := none }).finish ring.val
          .timeout 0 0
      else s
    | none => s)

/-! ### Events -/

/-- DMA_BEAT (R575): the engine serves this sink's channel only when arbitration gives it the beat. -/
def execDmaBeat (k : Fin 128) (err : MemErr) (s : State) : Host.Outcome State Fault Refusal :=
  .next (if s.servedChan.any fun (_, j) => j == k.val then s.sinkBeat k.val err else s)

/-- SINK_PACING_START (R577): HIGH is reached, or the oldest undelivered record has waited AGE. -/
def execSinkPacingStart (k : Fin 128) (s : State) : Host.Outcome State Fault Refusal :=
  .next (
    let x := s.sink k.val
    let r := s.region x.par.region
    let go := fun (s : State) => s.setSink k.val fun x => { x with moving := true }
    if !x.bound || x.moving || x.halted then s
    else if x.startTest r then go s
    else match (r.recs.find? fun y : Rec => y.ready && !y.delivered) with
    | some y => if x.par.age ≠ 0 then go (s.until (y.tm + x.par.age * 1000000)) else s
    | none => s)

/-- BUFFER_CLOSE_TIME (R581): the close time has passed since the buffer's first byte; a record in transfer ends first. -/
def execBufferCloseTime (k : Fin 128) (s : State) : Host.Outcome State Fault Refusal :=
  .next (
    let x := s.sink k.val
    match x.buf with
    | some b =>
      if x.par.close ≠ 0 && x.cur.isNone && b.used ≠ 0 then
        ((s.until (b.tm + x.par.close * 100000)).closeBuf k.val 0).unbindCheck k.val
      else s
    | none => s)

/-- CONFIRM_READ_DONE (R582, R595): the write-back is written; an error completion is a last-beat fault. -/
def execConfirmReadDone (k : Fin 128) (r : ReadResult) (s : State) : Host.Outcome State Fault Refusal :=
  .next (
    match (s.sink k.val).confirm with
    | none => s
    | some b =>
      match r with
      | .ok _ => ((s.setSink k.val fun x => { x with confirm := none }).writeBack k.val b true).unbindCheck k.val
      | _ => ((s.cplError (s.sinkPort k.val)).haltSink k.val 1 1 ((b.ends.getLast?).getD b.first) none).unbindCheck k.val)

/-- The end of one command of the r-th record of a queue (R590, R592, R593). -/
def State.nvmeEnd (s : State) (q r : Nat) (ok : Bool) : State :=
  let x := s.queue q
  let k := x.sink
  match x.recs[r]? with
  | none => s
  | some y =>
    let y := { y with done := y.done + 1, failed := y.failed || (!ok && !y.flush) }
    let s := s.setQueue q fun x => { x with outstanding := x.outstanding - 1, recs := replaceAt x.recs r fun _ => y }
    let drop := fun (s : State) => s.setQueue q fun x => { x with recs := x.recs.eraseIdx r }
    let s :=
      if y.done < y.sent || (!y.failed && !y.gone && y.done < y.cmds) then s
      else if y.gone then drop s
      else if y.flush then (drop s).setSink k fun x => { x with flushing := x.flushing.map (· - 1) }
      else if !y.failed then (drop s).deliver k [y.seq]
      else if !y.again then
        s.setQueue q fun x => { x with recs := replaceAt x.recs r fun y => { y with sent := 0, done := 0, failed := false, again := true } }
      else
        let s := (drop s).setQueue q fun x => { x with failed := true }
        match s.stripeSpare k with
        | some (s, sp) => s.queueRec k sp y.seq y.off y.len
        | none => s.haltSink k 3 2 y.seq (some q)
    (s.submit k q).unbindCheck k

/-- A command of that record is under way. -/
def StoreQ.busy (x : StoreQ) (r : Nat) : Bool := x.attached && (x.recs[r]?).any fun y : StoreRec => decide (y.done < y.sent)

/-- NVME_COMPLETION (R590): a completion entry of the r-th record's commands; the head doorbell is written after it is consumed. -/
def execNvmeCompletion (q : Fin 32) (r : Nat) (ok : Bool) (s : State) : Host.Outcome State Fault Refusal :=
  .next (
    let x := s.queue q.val
    if x.busy r then
      let head := (x.head + 1) % x.cqSize
      let s := s.setQueue q.val fun x => { x with head := head, phase := if head = 0 then !x.phase else x.phase }
      let s := { s with io := s.io.write (x.u 0x35 1) (x.doorbell true) (le 4 head) false }
      s.nvmeEnd q.val r ok
    else s)

/-- NVME_COMMAND_TIMEOUT (R593): a command has not completed within 1 s and fails its record on that queue. -/
def execNvmeCommandTimeout (q : Fin 32) (r : Nat) (s : State) : Host.Outcome State Fault Refusal :=
  .next (if (s.queue q.val).busy r then
      (s.until ((((s.queue q.val).recs[r]?).map fun y : StoreRec => y.tm).getD 0 + 1000000000)).nvmeEnd q.val r false
    else s)

/-- CORNER_TURN_BLOCK_EMIT (R588): every input has supplied the open block's T steps. -/
def execCornerTurnBlockEmit (k : Fin 128) (s : State) : Host.Outcome State Fault Refusal :=
  .next (
    let x := s.sink k.val
    match s.ctOpen k.val with
    | some b => if x.bound && x.par.corner && s.ctFull k.val b then (s.ctEmit k.val b 0).getD s else s
    | none => s)

/-- CORNER_TURN_WAIT_EXPIRY (R588): the maximum wait has passed since the block's first record. -/
def execCornerTurnWaitExpiry (k : Fin 128) (s : State) : Host.Outcome State Fault Refusal :=
  .next (
    let x := s.sink k.val
    match s.ctOpen k.val with
    | some b =>
      if x.bound && x.par.corner then
        let tms := x.par.inputs.flatMap fun i =>
          ((s.ctSteps i).filter fun c : CtStep => c.step / max 1 x.par.t == b).map fun c => c.rec'.tm
        let first := tms.foldl min (tms.headD s.now)
        let s := s.until (first + x.par.maxWait * 10000)
        (s.ctEmit k.val b 0).getD s
      else s
    | none => s)

end Sys2Proof.Machine
end

