-- ==== Sys2Proof/Machine/Rings.lean ====
section
/-! DEFINITION. NOP, DEV_INFO, BAD_OPCODE; doorbells and fetching; enabling and disabling rings; port resets, links, L1, interrupt timers
(R46–R62, R84, R104, R105, R565–R569, R723, R724, R782–R784, R799, R800). -/

namespace Sys2Proof.Machine

/-! ### Commands -/

/-- NOP (R104). -/
def nopBody (d : Desc) (s : State) : Verdict :=
  if d.clean [] then .done .ok 0 0 0 s else fail .badParam d s

/-- Granules of the serving stacks that are not retired. -/
def State.usableGranules (s : State) : Nat :=
  sumN ((stacksServing s).map fun k =>
    12288 - ((s.integ.retired ++ s.store.retired).eraseDups.filter fun g => g / 12288 == k).length)

/-- The block of DEV_INFO (R105, R3). -/
def State.devInfo (s : State) : List Byte :=
  let n := if s.ident.small then 1 else 2
  pack [(2, if s.ident.small then 0x7064 else 0x7128), (1, s.ident.stepping.toNat), (1, s.sec.life.code), (2, 1), (2, 0),
    (4, s.ident.fw.toNat), (2, s.sec.step), (2, 0), (8, s.ident.serial.toNat), (1, 32 * n), (1, 32), (1, 4 * n), (1, 8 * n), (1, 32 * n),
    (1, n), (1, n), (1, 2 * n), (4, s.usableGranules), (28, 0)]

def devInfoBody (d : Desc) (s : State) : Verdict :=
  if !d.clean [(0x08, 12)] || d.u 0x10 4 < 64 || !addrOk (d.u 0x08 8) (d.u 0x10 4) 64 then fail .badParam d s
  else result d (d.u 0x08 8) s.devInfo 0 0 s

def badOpcodeBody (d : Desc) (s : State) : Verdict := fail .badOpcode d s

/-! ### Fetching (R50, R53, R54) -/

/-- Phase expected of the entry with count i in a ring of 2^k entries (R50). -/
def phaseOf (k : Nat) (i : Word) : Bool := i.toNat / 2 ^ k % 2 == 0

def State.setCmd (s : State) (n : Nat) (f : CmdRing → CmdRing) : State := { s with io := { s.io with cmd := upd s.io.cmd n f } }

/-- A command ring takes the slot with count i of an answered read: a stale phase parks the ring, which asks for that slot again at the next
doorbell; a slot that the ring is not at any more is dropped (R53, R54). -/
def CmdRing.take (c : CmdRing) (n : Fin 16) (i : Word) (w : BitVec 512) : CmdRing :=
  if i ≠ c.fetched || c.parked then c
  else if w.getLsbD 511 != phaseOf c.size i then { c with parked := true, asked := i }
  else { c with fetched := i + 1, backlog := c.backlog ++ [decodeDesc n w] }

/-- Take command descriptors as the slots come that have been asked for, in order. -/
def State.takeCmds (s : State) (n : Nat) : List (BitVec 512) → State
  | [] => s
  | w :: rest =>
    match popSlot (s.cmdRing n).reads with
    | none => s
    | some (i, reads) => State.takeCmds (s.setCmd n fun c => { c.take (Fin.ofNat 16 n) i w with reads := reads }) n rest

/-- A data ring takes the slot with count i of an answered read (R82). -/
def DataRing.take (r : DataRing) (i : Word) (w : BitVec 256) : DataRing :=
  if i ≠ r.fetched || r.parked then r
  else if w.getLsbD 255 != phaseOf r.size i then { r with parked := true, asked := i }
  else
    { r with
      fetched := i + 1
      posted := r.posted ++ [⟨(w.extractLsb' 0 64).toNat, (w.extractLsb' 64 32).toNat, i, w.getLsbD 255⟩] }

/-- Take data descriptors as the slots come that have been asked for, in order. -/
def State.takeData (s : State) (n : Nat) : List (BitVec 256) → State
  | [] => s
  | w :: rest =>
    match popSlot (s.dring n).reads with
    | none => s
    | some (i, reads) => State.takeData (s.setDring n fun r => { r.take i w with reads := reads }) n rest

/-- Ask for the slots of a command ring below its producer count that have not been asked for (R53, R61). -/
def State.fetchCmd (s : State) (n : Nat) : State :=
  let c := s.cmdRing n
  if c.en && !c.parked && (s.hostPort c.port.val).linkUp && below c.cons c.asked c.prod then
    (s.fetch c.port c.base.toNat c.size 64 c.asked (c.prod - c.asked).toNat).setCmd n fun c =>
      { c with asked := c.prod, reads := c.reads ++ [(c.asked, (c.prod - c.asked).toNat)] }
  else s

/-- A read of command slots has met an error completion: the ring parks at the first slot that it brings, when it is at it (log entry 60). -/
def State.lostCmds (s : State) (n : Nat) : State :=
  s.setCmd n fun c => match c.reads with
    | (i, _) :: rest => if i = c.fetched && !c.parked then { c with parked := true, asked := i, reads := rest } else { c with reads := rest }
    | [] => c

/-! ### Doorbells (R56–R62, R800) -/

/-- A refused doorbell is counted. -/
def State.badDoorbell (s : State) (n : Nat) : State :=
  { s with io := { s.io with dbBad := upd s.io.dbBad n fun c => satN 65535 (c + 1) } }

/-- What a read of BAR2 answers: zero, whatever its offset and width, with no effect (R57). The table of commands has no row for such a read. -/
def bar2Read (_off : BitVec 20) (width : Nat) : List Byte := List.replicate width 0

/-- The doorbell number a BAR2 write names; none: another write (R57). -/
def doorbellOf (off : BitVec 20) (width : Nat) : Option Nat := if width = 4 && off.toNat % 4096 = 0 then some (off.toNat / 4096) else none

/-- An accepted doorbell: the peer gets the count first (R675), an IDLE device may wake (R628). -/
def State.rung (s : State) (n : Nat) (value : Word) : State :=
  let s := if s.pair.role = .primary then s.emit (.seam (.doorbell (Fin.ofNat 160 n) value)) else s
  s.wakeIdle 0

def execCommandDoorbell (port : Fin 2) (off : BitVec 20) (width : Nat) (value : Word) (slots : List (BitVec 512)) (s : State) :
    Host.Outcome State Fault Refusal :=
  .next (match doorbellOf off width with
    | none => s
    | some n =>
      let c := s.cmdRing n
      if !s.serving || !s.hasPort port.val || 16 ≤ n then s
      else if !c.en || c.port ≠ port || 2 ^ c.size < (value - c.cons).toNat then s.badDoorbell n
      else
        let s := s.rung n value
        ((s.setCmd n fun c => { c with prod := value, parked := false }).fetchCmd n).takeCmds n slots)

def execDataDoorbell (port : Fin 2) (off : BitVec 20) (width : Nat) (value : Word) (slots : List (BitVec 256)) (s : State) :
    Host.Outcome State Fault Refusal :=
  .next (match doorbellOf off width with
    | none => s
    | some n =>
      if !s.serving || !s.hasPort port.val || n < 32 || 160 ≤ n then s
      else
        let k := n - 32
        let r := s.dring k
        if !r.en || r.port ≠ port || 2 ^ r.size < (value - r.cons).toNat then s.badDoorbell n
        else
          let s := (s.rung n value).setDring k fun r => { r with prod := value, parked := false }
          if s.ringHalted k then s else (s.fetchData k).takeData k slots)

def execEventDoorbell (port : Fin 2) (off : BitVec 20) (width : Nat) (value : Word) (s : State) : Host.Outcome State Fault Refusal :=
  .next (match doorbellOf off width with
    | none => s
    | some n =>
      if !s.serving || !s.hasPort port.val || n < 16 || 32 ≤ n then s
      else
        let k := n - 16
        let r := nth s.io.evt k .reset
        if !r.en || r.port ≠ port || 2 ^ r.size < (r.written - value).toNat then s.badDoorbell n
        else
          let s := s.rung n value
          { s with io := Io.evtDrain 64 { s.io with evt := upd s.io.evt k fun r => { r with consumed := value } } k })

/-! ### Enabling and disabling rings (R47, R48, R782–R784) -/

/-- A FENCE that firmware has read from a command ring and not accepted is dropped with the ring's descriptors (R69). -/
def Io.dropFence (io : Io) (n : Nat) : Io :=
  { io with fence := io.fence.filter fun f => f.ring.val != n || (nth io.cmd n .reset).inflight.any fun g => g.d.fence }

/-- A command ring disabled: it accepts no more, what it has read is dropped, what it has accepted runs on. -/
def CmdRing.disable (c : CmdRing) : CmdRing := { c with en := false, parked := false, backlog := [], reads := [] }

/-- A write to CMD_RING_CFG[n]. -/
def State.cmdRingCfg (s : State) (n : Nat) (v : Word) : State :=
  let c := s.cmdRing n
  let set := s.setCmd n
  let size := bits v.toNat 20 16
  let port := Fin.ofNat 2 (bits v.toNat 27 27)
  let evt := Fin.ofNat 16 (bits v.toNat 3 0)
  let e := nth s.io.evt evt.val .reset
  let on := v.getLsbD 31
  let err := c.err && !v.getLsbD 30
  if c.en && on then set fun c => { c with err := err }
  else if c.en then
    let s := { s with io := s.io.dropFence n }
    s.setCmd n fun c => { c.disable with err := err }
  else if !on && !inR size 6 16 then s.badValue (0x010010 + 0x20 * n)
  else if !on then set fun c => { c with err := err, size := size, port := port, evt := evt }
  else if !inR size 6 16 then set fun c => { c with err := true }
  else if c.base.toNat % 4096 ≠ 0 || c.wb.toNat % 4 ≠ 0 || !s.hasPort port.val || !e.en || e.port ≠ port then
    set fun c => { c with err := true, size := size, port := port, evt := evt }
  else set fun c =>
    { c with err := err, en := true, size := size, port := port, evt := evt, prod := 0, cons := 0, fetched := 0, asked := 0, reads := []
             parked := false, backlog := [], old := c.inflight.isSome }

/-- An event ring still owes a CMD_DONE, or holds one (R783). -/
def EvtRing.owes (r : EvtRing) : Bool := r.reserved != 0 || r.held.any fun e => e.code == 1

/-- A write to EVT_RING_CFG[n]. -/
def State.evtRingCfg (s : State) (n : Nat) (v : Word) : State :=
  let r := nth s.io.evt n .reset
  let set := fun (f : EvtRing → EvtRing) => { s with io := { s.io with evt := upd s.io.evt n f } }
  let size := bits v.toNat 20 16
  let port := Fin.ofNat 2 (bits v.toNat 27 27)
  let on := v.getLsbD 31
  let err := r.err && !v.getLsbD 30
  let named := s.io.cmd.toList.any fun c => c.en && c.evt.val == n
  if r.en then
    if on then set fun r => { r with err := err }
    else if named || r.owes then set fun r => { r with err := true }
    else set fun r => { r with err := err, en := false, held := [], unsig := 0 }
  else if !on && !inR size 6 16 then s.badValue (0x010408 + 0x20 * n)
  else if !on then set fun r => { r with err := err, size := size, port := port, vector := BitVec.ofNat 6 (v.toNat % 64) }
  else if !inR size 6 16 then set fun r => { r with err := true }
  else if r.base.toNat % 4096 ≠ 0 || !s.hasPort port.val then
    set fun r => { r with err := true, size := size, port := port, vector := BitVec.ofNat 6 (v.toNat % 64) }
  else
    let s := set fun r =>
      { r with err := err, en := true, size := size, port := port, vector := BitVec.ofNat 6 (v.toNat % 64), written := 0, consumed := 0, unsig := 0 }
    { s with io := Io.evtDrain 64 s.io n }

/-- A data ring serves a bound sink (R783). -/
def State.ringServes (s : State) (n : Nat) : Bool := s.sinks.toList.any fun x => x.bound && !x.storage && x.par.ring == n

/-- A write to DATA_RING_CFG[n]. -/
def State.dataRingCfg (s : State) (n : Nat) (v : Word) : State :=
  let r := s.dring n
  let size := bits v.toNat 20 16
  let port := Fin.ofNat 2 (bits v.toNat 27 27)
  let on := v.getLsbD 31
  let err := r.err && !v.getLsbD 30
  if r.en then
    if on then s.setDring n fun r => { r with err := err }
    else if s.ringServes n then s.setDring n fun r => { r with err := true }
    else s.setDring n fun r => { r with err := err, en := false, posted := [], reads := [] }
  else if !on && !inR size 6 16 then s.badValue (0x011008 + 0x10 * n)
  else if !on then s.setDring n fun r => { r with err := err, size := size, port := port }
  else if !inR size 6 16 then s.setDring n fun r => { r with err := true }
  else if r.base.toNat % 4096 ≠ 0 || !s.hasPort port.val then
    s.setDring n fun r => { r with err := true, size := size, port := port }
  else s.setDring n fun r =>
    { r with err := err, en := true, size := size, port := port, prod := 0, cons := 0, fetched := 0, asked := 0, reads := []
             parked := false, posted := [] }

/-! ### Port resets and links (R569, R723, R724, R799) -/

/-- The sinks of a port halt with cause 5 (R596). -/
def State.haltPort (s : State) (p : Nat) : State :=
  (List.range 128).foldl (fun s k =>
    let x := s.sink k
    if x.bound && !x.halted && (if x.storage then x.queues.any fun q => (s.queue q).attached && (s.queue q).u 0x35 1 == p else s.sinkPort k == p) then
      s.haltSink k 5 2 (match x.cur with | some c => c.seq | none => x.next) none
    else s) s

/-- A port's link is down. Slot reads that are not answered are asked for again when it returns (R799). -/
def State.linkLost (s : State) (p : Nat) : State :=
  { s with io := { s.io with
    cmd := s.io.cmd.map fun c : CmdRing => if c.port.val = p then { c with reads := [], asked := c.fetched } else c
    data := s.io.data.map fun r : DataRing => if r.port.val = p then { r with reads := [], asked := r.fetched } else r
    ports := upd s.io.ports p fun x => { x with linkUp := false, l1 := false, speed := 0, width := 0 } } }

/-- Of what waited for a port at its reset, the events for rings of the other port are written; the writes are dropped (R723). -/
def Io.eventOnly (io : Io) : Waiting → Io
  | .write _ => io
  | .event n r => io.evtPost n.val r

/-- PORT_RESET: the link is gone, the port's rings are disabled, their event records are kept, its sinks halt, every engine runs on. -/
def execPortReset (port : Fin 2) (s : State) : Host.Outcome State Fault Refusal :=
  .next (if !s.hasPort port.val then s
    else
      let s := (s.linkLost port.val).haltPort port.val
      let events := (s.hostPort port.val).waiting
      let s := (List.range 16).foldl (fun s n =>
        let c := s.cmdRing n
        if c.en && c.port = port then ({ s with io := s.io.dropFence n }).setCmd n CmdRing.disable else s) s
      let s := { s with io := { s.io with
        cmd := s.io.cmd.map fun c : CmdRing =>
          { c with inflight := c.inflight.map fun f : Inflight => if f.port = port then { f with back := false } else f }
        evt := s.io.evt.map fun r : EvtRing => if r.en && r.port = port then { r with en := false, unsig := 0 } else r
        data := s.io.data.map fun r : DataRing => if r.en && r.port = port then { r with en := false, posted := [], reads := [] } else r
        ports := upd s.io.ports port.val fun p => { HostPort.reset with cplErr := p.cplErr, perst := p.perst } } }
      { s with io := events.foldl Io.eventOnly s.io })

/-- PCIE_LINK_DOWN without a port reset. -/
def execPcieLinkDown (port : Fin 2) (s : State) : Host.Outcome State Fault Refusal :=
  .next (if !(s.hostPort port.val).linkUp then s
    else (s.linkLost port.val).haltPort port.val)

/-- L1_ENTRY_REQUEST: asked only while the port has no undelivered record and no ring work. -/
def execL1EntryRequest (port : Fin 2) (s : State) : Host.Outcome State Fault Refusal :=
  let p := port.val
  let sinkWork := (List.range 128).any fun k =>
    let x := s.sink k
    x.bound && (if x.storage then x.queues.any fun q => (s.queue q).u 0x35 1 == p else s.sinkPort k == p) && (s.nextRec k).isSome
  let ringWork := (s.io.cmd.toList.any fun c => c.port == port && (!c.backlog.isEmpty || c.inflight.isSome)) ||
    s.io.evt.toList.any fun r => r.port == port && r.en && !r.held.isEmpty
  .next (if (s.hostPort p).linkUp && !(s.hostPort p).l1 && !sinkWork && !ringWork then
      ({ s with io := { s.io with ports := upd s.io.ports p fun x => { x with l1 := true } } }).emit (.l1Request port)
    else s)

/-- INTERRUPT_TIMER_EXPIRY: the oldest unsignalled record has waited TIMER µs (R84). -/
def execInterruptTimerExpiry (n : Fin 16) (s : State) : Host.Outcome State Fault Refusal :=
  let r := nth s.io.evt n.val .reset
  .next (if r.en && r.timer ≠ 0 && 0 < r.unsig then { s with io := s.io.signal n.val } else s)

/-! ### The rows that write a ring's set-up register -/

def execCmdRingEnable (n : Fin 16) (value : Word) (s : State) : Host.Outcome State Fault Refusal :=
  .next (if s.serving && value.getLsbD 31 then s.cmdRingCfg n.val value else s)
def execCmdRingDisable (n : Fin 16) (value : Word) (s : State) : Host.Outcome State Fault Refusal :=
  .next (if s.serving && !value.getLsbD 31 then s.cmdRingCfg n.val value else s)
def execEvtRingEnable (n : Fin 16) (value : Word) (s : State) : Host.Outcome State Fault Refusal :=
  .next (if s.serving && value.getLsbD 31 then s.evtRingCfg n.val value else s)
def execEvtRingDisable (n : Fin 16) (value : Word) (s : State) : Host.Outcome State Fault Refusal :=
  .next (if s.serving && !value.getLsbD 31 then s.evtRingCfg n.val value else s)
def execDataRingEnable (n : Fin 128) (value : Word) (s : State) : Host.Outcome State Fault Refusal :=
  .next (if s.serving && value.getLsbD 31 then s.dataRingCfg n.val value else s)
def execDataRingDisable (n : Fin 128) (value : Word) (s : State) : Host.Outcome State Fault Refusal :=
  .next (if s.serving && !value.getLsbD 31 then s.dataRingCfg n.val value else s)

end Sys2Proof.Machine
end

