-- ==== Sys2Proof/Machine/Streams.lean ====
section
/-! DEFINITION. Streams: their parameters, rates and claims on lanes, opening and closing, status, going down (manual chapter Ingest
lanes and streams, R170–R172, R177–R179, R190–R208). -/

namespace Sys2Proof.Machine

/-! ### Parameters and rates (R178, R190–R192) -/

/-- The parameters of STREAM_OPEN. -/
def parOf (d : Desc) : StreamPar :=
  let l := d.u 0x20 1
  { fs := d.u 0x08 8, map := (List.range (min l 16)).map fun j => d.u (0x10 + j) 1, l := l, m := d.u 0x21 1, n := d.u 0x22 1
    n' := d.u 0x23 1, cs := d.u 0x24 1, csMap := d.u 0x25 1, s := 2 ^ d.u 0x26 1, f := 2 ^ d.u 0x27 1, e := d.u 0x28 1
    fec := d.u 0x29 1 == 1, group := Fin.ofNat 16 (d.u 0x2A 1), discover := dBit d 0x2B 0, rbd := d.u 0x2C 2
    alignPs := dInt d 0x30 4 }

/-- Lane rate f_s·8F·66/(64·S) in 1/128 bit/s, exact because S divides 32 (R191). -/
def StreamPar.rate (p : StreamPar) : Nat := p.fs * p.f * 33 * 32 / max 1 p.s

/-- The sample slot layouts (R178). -/
def slotLayouts : List (Nat × Nat × Nat) :=
  [(8, 8, 0), (12, 12, 0), (12, 16, 0), (12, 16, 1), (12, 16, 2), (14, 16, 0), (14, 16, 1), (14, 16, 2), (16, 16, 0)]

def laneCount (s : State) : Nat := if s.ident.small then 32 else 64

/-- No entry stands twice. -/
def distinct (l : List Nat) : Bool := l.eraseDups.length == l.length

/-- The checks of R192, with R16. -/
def streamOk (s : State) (d : Desc) : Bool :=
  let p := parOf d
  d.clean [(0x08, 38), (0x30, 4)] && inR p.l 1 16 && inR p.m 1 2 && slotLayouts.contains (p.n, p.n', p.cs) && p.csMap < 4 &&
  d.u 0x26 1 ≤ 5 && d.u 0x27 1 ≤ 8 && (p.e == 1 || p.e == 2 || p.e == 4) && d.u 0x29 1 ≤ 1 && d.u 0x2A 1 ≤ 15 &&
  d.u 0x2B 1 ≤ 1 && decide (p.rbd < 256 * p.e) &&
  ((List.range 16).all fun j => decide (j < p.l) || d.u (0x10 + j) 1 == 255) &&
  (p.map.all fun x => decide (x < laneCount s)) && distinct p.map && decide (p.m * p.s * p.n' ≤ 8 * p.f * p.l) &&
  inR p.rate (6375000000 * 128) (32500000000 * 128) && decide (p.fs ≤ (if p.m = 1 then 40 else 20) * giga)

/-- Samples per converter in a multiblock period (R200), and in an extended multiblock (R186). -/
def StreamPar.period (p : StreamPar) : Nat := 256 * p.s / max 1 p.f
def StreamPar.lemc (p : StreamPar) : Nat := max 1 (p.e * p.period)

/-! ### Lanes of streams -/

def State.lane (s : State) (l : Nat) : Lane := nth s.lanes l .reset
def State.setLane (s : State) (l : Nat) (f : Lane → Lane) : State := { s with lanes := upd s.lanes l f }
def State.setLanes (s : State) (ls : List Nat) (f : Lane → Lane) : State := ls.foldl (fun s l => s.setLane l f) s

/-- The open or HELD stream a lane belongs to. -/
def State.laneStream (s : State) (l : Nat) : Option Nat :=
  (List.range 32).find? fun i => (s.stream i).st != .free && (s.stream i).lanes.contains l

/-- Logical number of a lane in its stream. -/
def Stream.logical (x : Stream) (l : Nat) : Nat := x.lanes.findIdx fun y => y == l

/-- A STREAM_OPEN accepted and not completed, on another ring: its parameters (R36, R196). -/
def State.opening (s : State) (ring : Nat) : List StreamPar :=
  (s.io.cmd.toList.mapIdx fun r c => (r, c.inflight)).filterMap fun (r, f) =>
    match f with
    | some f => if r ≠ ring && f.op == .streamOpen then some (parOf f.d) else none
    | none => none

/-- Two claims collide: a lane in both, or one lane group at two rates (R170, R193). -/
def lanesClash (p q : StreamPar) : Bool :=
  (p.map.any fun x => q.map.contains x) || (p.rate != q.rate && p.map.any fun x => q.map.any fun y => x / 8 == y / 8)

/-- The lane map a stream holds now. -/
def Stream.claim (x : Stream) : StreamPar := { x.par with map := x.lanes }

/-- A scan of a lane that leaves LP0 ends with every count at 65,535 (R176). -/
def State.eyeLeave (s : State) (ls : List Nat) : State :=
  if s.eye.busy && ls.contains s.eye.lane.toNat then
    { s with eye := { s.eye with busy := false, start := false, map := List.replicate 4096 65535 } }
  else s

/-- A lane without any bring-up state. In LP1 it holds its CDR and equaliser (R205). -/
def Lane.idle (l : Lane) (p : BitVec 2) : Lane :=
  let held := p == 1
  { l with stage := 0, pstate := p, sigDet := held && l.sigDet, cdrLock := held && l.cdrLock, adapted := held && l.adapted
           blockLock := false, polInverted := false, marker := false, mbLock := false, order := none, warm := false }

/-- Save the equaliser state of lanes that run or are held, and put all in LP2 (R195, R196). A lane in LP2 has none but what it saved before. -/
def State.parkLanes (s : State) (ls : List Nat) (rate : Nat) : State :=
  (s.eyeLeave ls).setLanes ls fun l => { l.idle 2 with saved := if l.pstate = 2 then l.saved else some rate }

/-- A lane restarts at stage 1 in LP0 from its present equaliser state; a late-arrival episode of its stream ends (R181, R187, R201). -/
def State.restartLane (s : State) (i l : Nat) : State :=
  (s.setLane l fun x => { x.idle 0 with stage := 1, warm := true, order := x.order }).setStream i fun x =>
    { x with lateEpisode := false, deskewed := false }

def State.restartAll (s : State) (i : Nat) : State := (s.stream i).lanes.foldl (fun s l => s.restartLane i l) s

/-- Raise LANE_FAULT (R204). -/
def State.laneFault (s : State) (i l cause stage value : Nat) : State :=
  s.note .laneFault (s.handleOf 1 i) [(1, l), (1, cause), (1, stage), (1, 0), (4, value), (4, 0)]

/-! ### Going down (R201) -/

/-- STREAM_DOWN, with the last released index; with none released the manual states no value, a free value (log entry 2). -/
def State.streamDownEvent (s : State) (i cause lane : Nat) : State :=
  let (v, s) := match (s.stream i).lastReleased with
    | some k => (k, s)
    | none => let (v, s) := s.freeTake; (v.toNat, s)
  s.note .streamDown (s.handleOf 1 i) [(1, cause), (1, lane), (2, 0), (8, v)]

/-- Mark a stream DOWN and raise the event. With an epoch's first aligned sample still to come, its index counts from that edge. -/
def State.markDown (s : State) (i cause lane : Nat) : State :=
  (s.setStream i fun x => { x with 
    st := .down, downs := x.downs + 1, since := s.now, deskewed := false, lateEpisode := false
    next := if x.align.isSome then some 0 else x.next, t0 := (x.align.map (·.2)).getD x.t0, align := none }).streamDownEvent i cause lane

/-- Take a stream down by a fault of one of its lanes: channels starve, records close, the lane restarts, the others hold stage 6. -/
def State.streamDown (s : State) (i cause lane : Nat) : State :=
  let s := s.markDown i cause lane
  let s := (s.chansOf i).foldl (fun s ch => s.starveChan ch fGap) s
  let s := (s.acqsOf 1 i).foldl (fun s u => s.acqBreak u fGap) s
  let s := (s.eyeLeave (s.stream i).lanes).setLanes (s.stream i).lanes fun l => { l with stage := 6 }
  s.restartLane i lane

/-! ### STREAM_OPEN (R190–R195, R207, R208) -/

/-- A lane begins its bring-up at a rate: warm from LP1 or from equaliser state saved at that rate. A lane from LP1 at its old rate keeps its CDR
locked (R205–R208). -/
def Lane.start (l : Lane) (rate old : Nat) : Lane :=
  let kept := l.pstate == 1 && rate == old
  { l.idle (if kept then 1 else 0) with pstate := 0, stage := 1, warm := if l.pstate = 1 then rate == old else l.saved == some rate }

/-- Rest of STREAM_OPEN once the grant is held: the lanes begin bring-up; Result A is the lane rate in Mbit/s. -/
def streamOpenGrant (i : Nat) (d : Desc) (s : State) : Verdict :=
  let p := parOf d
  let x := s.stream i
  let old := x.par.rate
  let dropped := x.lanes.filter fun l => !p.map.contains l
  let s := if x.reopening then s.parkLanes dropped old else s
  let s := s.setLanes p.map fun l => l.start p.rate old
  let s := s.setStream i fun x => { Stream.reset with
    gen := x.gen, st := .bringup, par := p, lanes := p.map, since := s.now, grant := 400 * p.l }
  .done .ok (p.rate / 128000000 % 65536) 0 (s.handleOf 1 i) s

/-- STREAM_OPEN (R194, R195). One on a HELD stream whose reopening is under way is WRONG_STATE (log entry 74). A new stream is BRINGUP from
acceptance on, its lanes in LP2 while the grant is awaited (log entry 75). -/
def streamOpenBody (d : Desc) (s : State) : Verdict :=
  let p := parOf d
  let reopen := d.handle != 0
  let own := hIdx d.handle
  let others := ((List.range 32).filter fun i => (s.stream i).st != .free && !(reopen && i == own)).map fun i => (s.stream i).claim
  if reopen && (!((s.stream own).st = .held || (s.stream own).st = .closed) || (s.stream own).reopening) then fail .wrongState d s
  else if !streamOk s d then fail .badParam d s
  else if (others ++ s.opening d.ring.val).any (lanesClash p) then fail .resourceBusy d s
  else if reopen then
    let s := s.setStream own fun x => { x with reopening := true }
    let cold := p.map.filter fun l => (s.lane l).pstate == 2
    if cold.isEmpty then streamOpenGrant own d s
    else .need (.lanes own) 0 (400 * cold.length) d.handle s (streamOpenGrant own d)
  else match s.claimIdx 32 fun i => (s.stream i).st == .free with
  | none => fail .noCapacity d s
  | some i =>
    let s := s.setStream i fun x => { Stream.reset with gen := x.gen, st := .bringup, par := p, lanes := p.map }
    .need (.lanes i) 0 (400 * p.l) (s.handleOf 1 i) s (streamOpenGrant i d)

/-! ### STREAM_CLOSE, STREAM_STATUS (R196, R197) -/

/-- A channel, a raw tap or unit, or an open in progress uses the stream. -/
def State.streamUsed (s : State) (i ring : Nat) : Bool :=
  !(s.chansOf i).isEmpty || !(s.acqsOf 1 i).isEmpty || (s.stream i).reopening ||
  (s.ringsWaiting fun f => f.op == .streamOpen && hIdx f.handle == i && f.handle != 0).any fun r => r != ring

def streamCloseBody (d : Desc) (s : State) : Verdict :=
  let i := hIdx d.handle
  let x := s.stream i
  if !d.clean [(0x08, 1)] || 1 < d.u 0x08 1 then fail .badParam d s
  else if s.streamUsed i d.ring.val then fail .resourceBusy d s
  else if dBit d 0x08 0 then
    let s := (s.eyeLeave x.lanes).setLanes x.lanes fun l => l.idle 1
    .done .ok 0 0 d.handle (s.setStream i fun x => { x with st := .held, next := none, deskewed := false, lateEpisode := false })
  else
    let s := s.parkLanes x.lanes x.par.rate
    .done .ok 0 0 d.handle (s.setStream i fun x => { Stream.reset with gen := nextGen x.gen })

def StreamSt.code : StreamSt → Nat
  | .free | .bringup => 0 | .up => 1 | .down => 2 | .held | .closed => 3

/-- The status block. A stream closed on a warm secondary reads as HELD (log entry 64). The index of the last released sample before any is released is a free value (log entry 2). -/
def streamStatusBody (d : Desc) (s : State) : Verdict :=
  let x := s.stream (hIdx d.handle)
  let addr := d.u 0x08 8
  if !d.clean [(0x08, 12)] || d.u 0x10 4 < 128 || !addrOk addr (d.u 0x10 4) 64 then fail .badParam d s
  else
    let (last, s) := match x.lastReleased with
      | some k => (k, s)
      | none => let (v, s) := s.freeTake; (v.toNat, s)
    let pad := fun (v : Nat) (l : List Nat) => (l ++ List.replicate (16 - l.length) v).map fun b => (1, b)
    let stages := x.lanes.map fun l => (s.lane l).stage
    let code := x.st.code
    result d addr
      (pack ([(1, code), (1, x.par.l), (1, x.basis), (1, 0), (4, x.par.rate / 128000)] ++ pad 255 x.lanes ++ pad 0 stages ++
        [(4, x.skewPs), (4, 0), (8, last), (8, x.zeroed), (8, x.saturated), (4, x.crcBad), (4, x.fecCorr), (4, x.downs), (44, 0)]))
      code (sumN (stages.mapIdx fun j g => if g = 9 then 2 ^ j else 0)) s

end Sys2Proof.Machine
end

