-- ==== Sys2Proof/Machine/Clocks.lean ====
section
/-! DEFINITION. PLL_S: enabling, locking, coasting, the return of the reference, loss of lock (R108, R109, R114–R117, R130–R142). -/

namespace Sys2Proof.Machine

def State.setClk (s : State) (f : Clk → Clk) : State := { s with clk := f s.clk }

/-- Every sync group's records carry TIME_SUSPECT until its next epoch. -/
def State.suspectAll (s : State) : State := { s with time := { s.time with groupSuspect := Vector.replicate 16 true } }

/-- A slew cut short leaves TIME_SUSPECT to the next epoch (R137). -/
def State.abortSlew (s : State) : State := if s.clk.slewing then (s.setClk fun c => { c with slewing := false }).suspectAll else s

/-! ### Loss of lock (R140, R142) -/

/-- Units that a stream or one of its channels feeds. -/
def State.unitsOf (s : State) (i : Nat) : List Nat :=
  (List.range 128).filter fun u => (s.acq u).st != .none && s.acqStream (s.acq u) == i

/-- Streams that a loss of lock takes: open and not HELD. -/
def State.clockedStreams (s : State) : List Nat :=
  (List.range 32).filter fun i => (s.stream i).st.runs

/-- Step 5 for one stream: its records, its channels' and its units', close with CLOCK_LOSS. -/
def State.closeClocked (s : State) (i : Nat) : State :=
  let us := s.unitsOf i
  let s := (s.chansOf i).foldl (fun s ch => if (s.chan ch).emits then s.closeChan ch fClockLoss else s) s
  us.foldl (fun s u => s.acqBreak u fClockLoss) s

/-- Step 7 for one stream: it goes down, its lanes hold stage 6, its channels starve or stop. -/
def State.clockDown (s : State) (i : Nat) : State :=
  let x := s.stream i
  let s := if x.st = .up then s.markDown i 4 255 else s
  let s := s.setLanes x.lanes fun l => { l with stage := if x.st = .up then 6 else min 8 l.stage }
  let s := if x.st = .up then s.eyeLeave x.lanes else s
  let s := s.setStream i fun x => { x with deskewed := false }
  (s.chansOf i).foldl (fun s ch => s.starveChan ch fClockLoss) s

/-- The calibration sources go off, and gated outputs are gated, until the next cycle start after relock (R333). -/
def State.drivesOff (s : State) : State :=
  (List.range 4).foldl (fun s d => if (s.drive d).on then s.driveSource d false else s) s

/-- PLL_S lock is declared lost: the steps of R140, each over every stream before the next; then the pending epochs time out (R160). -/
def State.loseLock (s : State) (cause : Nat) (drift : Int) : State :=
  let s := s.setClk fun c => { c with lock := false, coast := false, measuring := false, coastStart := none }
  let s := s.refreshOuts.drivesOff
  let s := (s.note .clockLoss 0 [(1, cause), (3, 0), (4, twos 32 drift), (4, 0)]).setClk fun c => { c with lost := true }
  let s := { s with streams := s.streams.map fun (x : Stream) => { x with next := none, align := none } }
  let mine := s.clockedStreams
  let s := mine.foldl (fun s i => (s.chansOf i).foldl (fun s ch => s.flushFrames ch) s) s
  let units := mine.flatMap s.unitsOf
  let s := mine.foldl (fun s i => s.closeClocked i) s
  let s := units.foldl (fun s u => s.acqIdle u) s
  let s := mine.foldl (fun s i => s.clockDown i) s
  let s := { s with groups := s.groups.map Group.forget }
  let s := s.abortSlew.suspectAll
  let s := s.setClk fun c => { c with ppsValid := false, ppsGood := 0, ppsBad := 0, comparePps := false }
  let s := { s with time := { s.time with afterLoss := 0xFFFF#16, lastEdge := none } }
  (s.ringsWaiting fun f => f.stage == .epoch).foldl (fun s r => s.finish r .timeout 0 0) s

/-- A loss that is not by drift: in a coast it reports the drift as last measured (R131, R166); the closed loop has none, a free value (log
entry 2). -/
def State.loseLockFree (s : State) (cause : Nat) : State :=
  if s.clk.coast then s.loseLock cause s.clk.driftPpb
  else
    let (v, s) := s.freeTake
    s.loseLock cause v.toNat

/-! ### Registers -/

/-- A write to PLL_S_CFG (R113–R116, R805). -/
def State.pllCfg (s : State) (v : Word) : State :=
  if s.clk.en then
    if v.getLsbD 28 then s
    else
      let held := s.clk.lock || s.clk.coast
      let s := s.setClk fun c => { c with cfg := c.cfg &&& ~~~0x10000000#32, cfgErr := false }
      if held then s.loseLockFree 6 else s
  else if !inR (bits v.toNat 27 24) 1 8 || !inR (bits v.toNat 11 0) 112 2880 then s.badValue 0x040000
  else
    let s := s.setClk fun c => { c with cfg := v &&& 0xFFC00FFF#32 }
    if v.getLsbD 28 then (s.setClk fun c => { c with cfgErr := !c.lockable }).refreshOuts else s

/-- A write to CLK_COAST_CFG (R128, R129). -/
def State.coastCfg (s : State) (v : Word) : State :=
  let n := v.toNat
  if bits n 31 30 = 3 || 1000 < bits n 29 20 || !inR (bits n 19 12) 1 100 || bits n 11 4 = 0 then s.badValue 0x040008
  else s.setClk fun c => { c with coastCfg := v &&& 0xFFFFFFF0#32 }

def Clk.window (c : Clk) : Nat := bits c.coastCfg.toNat 29 20
def Clk.policy (c : Clk) : Nat := bits c.coastCfg.toNat 31 30

/-- PLL_S is off: the device sleeps (manual chapter Architecture and data flow, Power domains; log entry 16). -/
def State.clocksOff (s : State) : Bool := (s.pwr.st == .idle && s.pwr.slept) || s.pwr.st == .retain || s.pwr.st == .dormant

/-! ### Events -/

/-- PLL_S_LOCK (R117, R141): the loop has locked; the outputs restart. -/
def execPllSLock (s : State) : Host.Outcome State Fault Refusal :=
  let c := s.clk
  .next (if c.en && !c.cfgErr && c.refPresent && !c.lock && !c.coast && !s.clocksOff then
      (s.setClk fun c => { c with lock := true, ppsValid := false, ppsGood := 0, ppsBad := 0 }).refreshOuts
    else s)

/-- REFIN_ABSENT (R108, R130, R132): PLL_S coasts, or loses lock when WINDOW is 0. Cause 0: missing edges; 1: frequency. -/
def execRefinAbsent (cause : Fin 2) (s : State) : Host.Outcome State Fault Refusal :=
  let s := s.setClk fun c => { c with refPresent := false, measuring := false }
  .next (
    if !s.clk.lock then s
    else if s.clk.window = 0 then s.loseLockFree 5
    else
      let s := s.abortSlew.setClk fun c => { c with lock := false, coast := true, driftPpb := 0, coastStart := some s.now }
      s.note .clockCoast 0 [(1, cause.val), (3, 0), (4, s.clk.window), (4, 0)])

/-- REFIN_PRESENT (R109, R134): during a coast the offset measurement begins. -/
def execRefinPresent (s : State) : Host.Outcome State Fault Refusal :=
  .next (s.setClk fun c => { c with refPresent := true, measuring := c.coast })

/-- Raise CLOCK_RESTORED (R166). -/
def State.restored (s : State) (kind : Nat) : State := s.note .clockRestored 0 [(1, kind), (3, 0), (4, s.clk.coastUs), (4, 0)]

/-- Raise TIME_BREAK (R166). -/
def State.timeBreak (s : State) (cause : Nat) (ps periods : Int) : State :=
  let c := max (-(2 ^ 31 - 1 : Int)) (min (2 ^ 31 - 1) ps)
  s.note .timeBreak 0 [(1, cause), (3, 0), (4, twos 32 c), (4, twos 32 periods)]

/-- VCO cycles in a phase offset, toward minus infinity (R136). -/
def Clk.vcoCycles (c : Clk) (ps : Int) : Int := ps * (c.fref * c.m : Nat) / (c.p * 1000000000000 : Nat)

/-- The loop closes with a frequency offset of at most 1 ppm that takes the phase offset away; how much is a free value (R137, log entry 2). -/
def State.beginSlew (s : State) (ps : Int) : State :=
  let (v, s) := s.freeTake
  let k : Int := (v.toNat % 1000 + 1 : Nat)
  s.setClk fun c => { c with slewing := true, slewPpb := if ps < 0 then -k else k }

/-- PHASE_OFFSET_MEASURED (R135–R138): the loop closes by the policy, or lock is lost. -/
def execPhaseOffsetMeasured (ps : Int) (s : State) : Host.Outcome State Fault Refusal :=
  let c := s.clk
  let inside := decide (ps.natAbs ≤ 10 * bits c.coastCfg.toNat 11 4)
  .next (
    if !(c.coast && c.measuring) then s
    else if !inside && c.policy = 2 then s.loseLockFree 2
    else
      let us := (s.now - c.coastStart.getD s.now) / 1000
      let s := s.setClk fun c =>
        { c with lock := true, coast := false, measuring := false, coastStart := none, coastUs := us, comparePps := true }
      if inside then s.restored 0
      else if c.policy = 0 then
        (((s.setClk fun c => { c with realign := c.realign + c.vcoCycles ps }).timeBreak 0 ps 0).restored 1).suspectAll
      else s.beginSlew ps)

/-- SLEW_END (R137). -/
def execSlewEnd (s : State) : Host.Outcome State Fault Refusal :=
  .next (if s.clk.slewing then (s.setClk fun c => { c with slewing := false }).restored 2 else s)

/-- COAST_WINDOW_EXPIRY (R132): the coast has lasted WINDOW ms. -/
def execCoastWindowExpiry (s : State) : Host.Outcome State Fault Refusal :=
  .next (match s.clk.coast, s.clk.coastStart with
    | true, some t => (s.until (t + s.clk.window * 1000000)).loseLockFree 0
    | _, _ => s)

/-- COAST_DRIFT_EXCEEDED (R131, R132): the drift measured in a coast is held; beyond DRIFT lock is lost. -/
def execCoastDriftExceeded (ppb : Int) (s : State) : Host.Outcome State Fault Refusal :=
  .next (
    if !s.clk.coast then s
    else if 100 * bits s.clk.coastCfg.toNat 19 12 < ppb.natAbs then s.loseLock 1 ppb
    else s.setClk fun c => { c with driftPpb := ppb })

/-- PLL_S_PHASE_ERROR (R132): the closed loop is out by more than ±2 ns. -/
def execPllSPhaseError (s : State) : Host.Outcome State Fault Refusal := .next (if s.clk.lock then s.loseLockFree 3 else s)

/-- CRYSTAL_STOPPED (R132, R146): the monitor's finding is held; during a coast lock is lost. -/
def execCrystalStopped (s : State) : Host.Outcome State Fault Refusal :=
  let s := { s with boot := { s.boot with xtal50 := false } }
  .next (if s.clk.coast then s.loseLockFree 4 else s)

end Sys2Proof.Machine
end

