-- ==== Sys2Proof/Machine/Time.lean ====
section
/-! DEFINITION. PPSIN, the time base, synchronisation epochs, TIME_SET (R110–R112, R139, R148–R165, R803). -/

namespace Sys2Proof.Machine

/-! ### PPS edges (R110–R112, R803) -/

/-- The instant, on `tb`, of the next edge that lies `ns` from a second boundary of the time base, and the boundary nearest to it. It comes
at least 1 ms after the last edge (log entry 61). -/
def State.nextEdge (s : State) (ns : Int) : Nat × Nat :=
  let off := ns * (unitNs : Int)
  let least : Int := match s.time.lastEdge with
    | some l => (s.time.tb : Int) + max 0 ((l : Int) + 1000000 * unitNs - s.time.run)
    | none => s.time.tb
  let e := ((least - off + (unitS : Int) - 1) / (unitS : Int) * unitS + off).toNat
  (e, (2 * e + unitS) / (2 * unitS) * unitS)

/-- An edge at instant e of `run` lies in its place: 1 s after the edge before it, within `w` ns; while PPSIN is valid, on the flywheel's
second (R110, R111). -/
def State.inPlace (s : State) (w e : Nat) : Bool := match s.time.lastEdge with
  | none => false
  | some l =>
    let d := e - l
    if s.clk.ppsValid then decide (unitS ≤ 2 * d) && decide ((d + w * unitNs) % unitS ≤ 2 * w * unitNs)
    else decide (unitS ≤ d + w * unitNs) && decide (d ≤ unitS + w * unitNs)

/-- The edge is the last one seen. -/
def State.sawEdge (s : State) (e : Option Nat) : State := { s with time := { s.time with lastEdge := e } }

/-- An accepted edge: EDGE_ERR, the comparison of R139, and the second boundary moves to the edge. `t` is that boundary. -/
def State.acceptEdge (s : State) (ns : Int) (t : Nat) : State :=
  let pd := s.clk.pdPs
  let diff := -ns * 1000
  let jump := s.clk.comparePps && decide (pd < 2 * diff.natAbs)
  let s := s.setClk fun c => { c with edgeErr := max (-32767) (min 32767 ns), comparePps := false, ppsBad := 0 }
  let s := if jump then (s.timeBreak 1 diff ((2 * diff + pd) / (2 * pd : Nat))).suspectAll else s
  { s with time := { s.time with tb := t } }

/-- Time since the last edge, in units. -/
def State.edgeSpan (s : State) : Nat := s.time.run - s.time.lastEdge.getD s.time.run

/-- The RTC is disciplined, unless a TIME_SET loads at this edge (R662). -/
def State.edgeRtc (s : State) : State :=
  if (s.ringsWaiting fun f => f.stage == .pps).isEmpty then s.setThim fun t => t.discipline s.edgeSpan else s

/-- An edge in its place counts towards validity, or is accepted. -/
def State.goodEdge (s : State) (ns : Int) (t : Nat) : State :=
  let s := s.setClk fun c => { c with ppsGood := satN 3 (c.ppsGood + 1) }
  if s.clk.ppsGood < 3 then s
  else if s.pllOk then ((s.setClk fun c => { c with ppsValid := true }).acceptEdge ns t).edgeRtc
  else s.setThim fun t => t.discipline s.edgeSpan

/-- An expected edge is misplaced or missing. -/
def State.badEdge (s : State) (edge : Option Nat) : State :=
  if s.clk.ppsValid then
    let bad := s.clk.ppsBad + 1
    if 3 ≤ bad then (s.setClk fun c => { c with ppsValid := false, ppsGood := 0, ppsBad := 0 }).sawEdge edge
    else s.setClk fun c => { c with ppsBad := bad, missed := satN 65535 (c.missed + 1) }
  else (s.setClk fun c => { c with ppsGood := 0 }).sawEdge edge

/-- PPS_EDGE (R110–R112): a rising edge, `ns` after the time base's second boundary. The window is ±100 ns, ±2 µs on the crystal. -/
def execPpsEdge (offsetNs : Int) (s : State) : Host.Outcome State Fault Refusal :=
  let (at?, t) := s.nextEdge offsetNs
  let e := s.time.run + (at? - s.time.tb)
  let good := s.inPlace (if s.pllOk then 100 else 2000) e
  let s := s.untilTb at?
  .next (if good then (s.goodEdge offsetNs t).sawEdge (some e) else s.badEdge (some e))

/-- PPS_EDGE_MISSING (R110, R111). -/
def execPpsEdgeMissing (s : State) : Host.Outcome State Fault Refusal := .next (s.badEdge none)

/-! ### SYNC_SCHEDULE (R152–R157) -/

def epochSecond (d : Desc) : Nat := d.u 0x08 8
def epochMask (d : Desc) : Nat := d.u 0x10 2

/-- Accepted epochs that wait, by ring. -/
def State.epochs (s : State) : List Nat := s.ringsWaiting fun f => f.op == .syncSchedule && f.stage == .epoch

def syncScheduleBody (d : Desc) (s : State) : Verdict :=
  let sec := epochSecond d
  let sr := d.u 0x12 1
  let out := sr % 16
  let busy := s.epochs.any fun r => match (s.cmdRing r).inflight with
    | some f => (epochMask f.d) &&& (epochMask d) != 0
    | none => false
  if !d.clean [(0x08, 13)] || 2 ^ 40 ≤ sec || bits sr 6 4 ≠ 0 || 4 ≤ d.u 0x14 1 || decide (sec * unitS < s.time.tb + 2 * unitS) ||
      decide (s.time.tb + 3600 * unitS < sec * unitS) || epochMask d = 0 || (bit sr 7 && !inR (d.u 0x13 1) 1 16) then fail .badParam d s
  else if bit sr 7 && outFunc (nth s.clk.outCfg out 0) ≠ 2 then fail .pinNotAssigned d s
  else if !s.pllOk || (!s.clk.ppsValid && !dBit d 0x14 1) then fail .wrongState d s
  else if busy then fail .resourceBusy d s
  else .wait .epoch d.handle s

/-! ### Epochs (R157–R160, R186, R202) -/

/-- A stream at an epoch: its LEMC aligns to the internal SYSREF instant, `run` on the count and `t0` in TAI. An UP stream has index 0 at its first
aligned sample; the others count from that edge once they come up. -/
def State.epochStream (s : State) (i run t0 : Nat) : State :=
  s.setStream i fun x =>
    let t := ((t0 : Int) + x.par.alignPs * (unitPs : Int)).toNat
    let x := { x with suspect := false, arrivalRef := none, lemc0 := some run, zeroEdge := 0 }
    if x.st = .up then { x with align := some (run, t) } else { x with t0 := t, next := some 0, align := none }

/-- Apply an epoch of the groups in `mask`, the internal SYSREF instant `sysrefPs` after its edge; the streams given index 0. -/
def State.applyEpoch (s : State) (mask sec sysrefPs : Nat) (sup : Bool) : State × Nat :=
  let mine := (List.range 32).filter fun i =>
    let x := s.stream i
    x.st.runs && bit mask x.par.group.val
  let live := mine.filter fun i => (s.stream i).st == .up
  let s := mine.foldl (fun s i => s.epochStream i (s.time.run + sysrefPs * unitPs) (sec * unitS)) s
  let s := mine.foldl (fun s i => (s.chansOf i).foldl (fun s ch => s.epochChan ch sup ((s.stream i).st == .up)) s) s
  let keep := !s.time.timeSet
  ({ s with time := { s.time with
      groupSuspect := Vector.ofFn fun g => if bit mask g.val then keep else nth s.time.groupSuspect g.val false
      afterLoss := s.time.afterLoss &&& ~~~(BitVec.ofNat 16 mask) } }, live.length)

/-- A SYSREF output can pulse: enabled, its function SYSREF, within its limit (R119, R123, R125). -/
def State.sysrefReady (s : State) (n : Nat) : Bool :=
  let cfg := nth s.clk.outCfg n 0
  cfg.getLsbD 31 && outFunc cfg == 2 && !s.clk.tooFast cfg

/-- Send the SYSREF pulses of an epoch, and the ps from its edge to the first pulse. That the divided clock rises so long after the edge is a
free value below its period (R125, log entry 2). -/
def State.sendSysref (s : State) (d : Desc) : Nat × State :=
  match epochOutput d with
  | none => (0, s)
  | some n =>
    let (v, s) := s.freeTake
    let s := if s.hotSecondary || !s.sysrefReady n then s else s.emit (.sysref n (d.u 0x13 1))
    (v.toNat % max 1 (s.clk.outPs (nth s.clk.outCfg n 0)), s)

/-- SYNC_EPOCH (R157–R160): the boundary that starts the epoch second of the SYNC_SCHEDULE in flight on a ring. -/
def execSyncEpoch (ring : Fin 16) (s : State) : Host.Outcome State Fault Refusal :=
  let r := ring.val
  .next (match s.waitsAt r .epoch with
    | none => s
    | some f =>
      let sec := epochSecond f.d
      let label := match s.time.loadedAt with
        | some (old, at?) => if old = sec && at? = s.now then s.time.tb / unitS else sec
        | none => sec
      let s := if label = sec then s.untilTb (sec * unitS) else s
      if !s.clk.ppsValid && !dBit f.d 0x14 1 then s.finish r .timeout 0 0
      else
        let (ps, s) := s.sendSysref f.d
        let (s, n) := s.applyEpoch (epochMask f.d) label ps (dBit f.d 0x14 0)
        s.finish r .ok n label)

/-! ### TIME_SET (R162–R165) -/

/-- Load the time base and the RTC at `tb`; `edge` is the second the PPS edge had, for a load at an edge. The status, as R165 states. -/
def State.loadTime (s : State) (force : Bool) (tb : Nat) (edge : Option Nat) : State × Status :=
  let running := s.chans.toList.any fun c => c.st == .running
  if running && !force then (s, .wrongState)
  else
    let step : Int := (tb : Int) - s.time.tb
    let s := { s with
      time := { s.time with tb := tb, timeSet := true, loadedAt := edge.map fun e => (e, s.now) }
      thim := { s.thim with rtc := tb } }
    let s := if running then (s.timeBreak 2 (step / (unitPs : Int)) 0).suspectAll else s
    let late := s.epochs.filter fun r => match (s.cmdRing r).inflight with
      | some f => decide (epochSecond f.d * unitS ≤ tb) && edge != some (epochSecond f.d)
      | none => false
    (late.foldl (fun s r => s.finish r .timeout 0 0) s, .ok)

def timeSetBody (d : Desc) (s : State) : Verdict :=
  let sec := d.u 0x08 8
  if !d.clean [(0x08, 13)] || 2 ^ 40 ≤ sec || 4 ≤ d.u 0x14 1 then fail .badParam d s
  else if dBit d 0x14 0 then
    match s.loadTime (dBit d 0x14 1) (sec * unitS + d.u 0x10 4 * unitF) none with
    | (s', .ok) => .done .ok 0 0 d.handle s'
    | (_, st) => fail st d s
  else .wait .pps d.handle s

/-- TIME_SET_LOAD (R163, R165): the next valid PPS edge has come for the TIME_SET in flight on a ring. -/
def execTimeSetLoad (ring : Fin 16) (s : State) : Host.Outcome State Fault Refusal :=
  let r := ring.val
  .next (match s.waitsAt r .pps with
    | none => s
    | some f =>
      if !s.clk.ppsValid then s
      else
        let edge := (2 * s.time.tb + unitS) / (2 * unitS)
        match s.loadTime (dBit f.d 0x14 1) (f.d.u 0x08 8 * unitS) (some edge) with
        | (s', st) => s'.finish r st 0 0)

/-- TIME_SET_TIMEOUT (R164): PPSIN has not been valid within 2 s. -/
def execTimeSetTimeout (ring : Fin 16) (s : State) : Host.Outcome State Fault Refusal :=
  let r := ring.val
  .next (match s.waitsAt r .pps with
    | none => s
    | some f => if s.clk.ppsValid then s else (s.until (f.since + 2000000000)).finish r .timeout 0 0)

end Sys2Proof.Machine
end

