-- ==== Sys2Proof/Machine/Pair.lean ====
section
/-! DEFINITION. The redundant pair: roles, PAIR_JOIN, PAIR_ROLE, PAIR_STATUS, mirrored state, what a takeover does without the commands
(manual chapter Redundant pair). -/

namespace Sys2Proof.Machine

def Role.code : Role → Nat
  | .solo => 0 | .primary => 1 | .secondary => 2 | .fenced => 3

def State.setPair (s : State) (f : Pair → Pair) : State := { s with pair := f s.pair }

def State.setMirror (s : State) (f : Mirror → Mirror) : State := s.setPair fun p => { p with mirror := f p.mirror }

/-! ### Roles (R669, R679) -/

/-- GPIO24 follows PAIR_OK when it has that function. -/
def pairPin (old new : State) : State :=
  if nth new.pins.func 24 0 = 6 && old.pairOk != new.pairOk then new.emit (.pin 24 new.pairOk) else new

/-- Take a role: mirroring, clock outputs and PAIR_OK follow (R669, R675, R677, R679). -/
def State.setRole (s : State) (role : Role) : State :=
  let s' := s.setPair fun p => { p with role := role }
  pairPin s ({ s' with io := { s'.io with mirrors := role == Role.primary } }).refreshOuts

/-- The Seam is off: no width, its grant released (R602). -/
def State.seamOff (s : State) : State :=
  (s.setGrant .seam 0).setPair fun p => { p with trained := false, width := 0, peerOk := false, agreed := false, waitArb := none, missedRun := 0 }

/-- Handles in use, kind by kind. -/
def State.liveHandles (s : State) : List Handle :=
  [1, 2, 3, 4, 5, 6, 7, 8].flatMap fun kind =>
    ((List.range 256).filter fun i => (s.objGen kind i).isSome).map fun i => s.handleOf kind i

/-- The shadow is ready (R686): nothing unshadowed, every channel at work has passed an epoch since the join. -/
def State.shadowReady (s : State) : Bool :=
  (s.pair.role == .primary || s.pair.role == .secondary) && s.pair.unshadowed.isEmpty &&
  (List.range 128).all fun i => let c := s.chan i; !(c.st == .running || c.st == .starved) || s.pair.passed.getLsbD i

/-! ### PAIR_JOIN (R670, R798) -/

/-- After the local checks: the Seam is powered and trains. -/
def pairJoinGrant (d : Desc) (s : State) : Verdict := .wait .join d.handle (s.setPair fun p => { p with trained := false, agreed := false })

def pairJoinBody (d : Desc) (s : State) : Verdict :=
  let prim := d.u 0x08 1 = 1
  if !d.clean [(0x08, 3), (0x0C, 2), (0x10, 8)] || !inR (d.u 0x08 1) 1 2 || 1 < d.u 0x09 1 || 1 < d.u 0x0A 1 || !inR (d.u 0x0C 2) 1 1000 then
    fail .badParam d s
  else if !(s.pair.role = .solo || (s.pair.role = .fenced && !prim)) || (!prim && !s.liveHandles.isEmpty) || s.pair.arb != prim ||
      !(s.ringsWaiting fun f => f.op == .pairJoin && (f.stage == .join || f.stage == .power)).isEmpty then
    fail .wrongState d s
  else .need .seam 0 5400 d.handle s (pairJoinGrant d)

/-- The PAIR_JOIN that waits for its peer. -/
def State.joining (s : State) : Option (Nat × Inflight) :=
  (List.range 16).findSome? fun r => (s.waitsAt r .join).map fun f => (r, f)

/-- Offer of a PAIR_JOIN to the peer. -/
def State.offer (s : State) (d : Desc) : SeamFrame :=
  .joinOffer s.ident.serial (BitVec.ofNat 64 (d.u 0x10 8)) (d.u 0x08 1) (d.u 0x09 1) (d.u 0x0A 1) s.ident.fw s.sec.life.code true

/-- Own enrolment names both devices. -/
def State.enrolled (s : State) (peer : BitVec 64) : Bool :=
  match s.store.enrol with
  | some (a, b) => (a == s.ident.serial && b == peer) || (b == s.ident.serial && a == peer)
  | none => false

/-- Both devices have agreed and trained: the pair exists. The primary copies its live objects and its ring counts. -/
def State.joined (s : State) (r : Nat) (d : Desc) : State :=
  let prim := d.u 0x08 1 = 1
  let live := s.liveHandles
  let s := s.setPair fun p =>
    { p with
      warm := d.u 0x09 1 == 1, rate := d.u 0x0A 1 == 1, arbWait := d.u 0x0C 2, peer := BitVec.ofNat 64 (d.u 0x10 8)
      peerOk := true, waitArb := none, missed := 0, missedTotal := 0, missedRun := 0, unshadowed := [], diverged := false, divTag := 0, divOp := 0
      divSt := 0, longest := 0, mirror := .reset, lastBeat := s.now, passed := 0 }
  let s := s.setRole (if prim then .primary else .secondary)
  if prim then
    let s := live.foldl (fun s h => s.emit (.seam (.copied h))) s
    let s := (List.range 16).foldl (fun s n =>
      let e := nth s.io.evt n .reset
      if e.en && e.written ≠ 0 then
        (s.emit (.seam (.evtReserved (Fin.ofNat 16 n) (e.written - 1)))).emit (.seam (.evtWritten (Fin.ofNat 16 n) (e.written - 1)))
      else s) s
    s.finish r .ok s.pair.width live.length
  else
    let (v, s) := s.freeTake
    s.finish r .ok s.pair.width (v.toNat % 2 ^ 32)

/-- End a PAIR_JOIN without a pair. -/
def State.joinFails (s : State) (r : Nat) (st : Status) : State := (s.finish r st 0 0).seamOff

/-- The peer's offer against ours, in the order of R670. -/
def State.joinOffer (s : State) (serial peer : BitVec 64) (role mode rate : Nat) (fw : Word) (lifecycle : Nat) (agrees : Bool) : State :=
  match s.joining with
  | none => s
  | some (r, f) =>
    if role = f.d.u 0x08 1 || mode ≠ f.d.u 0x09 1 || rate ≠ f.d.u 0x0A 1 then s.joinFails r .badParam
    else if serial.toNat ≠ f.d.u 0x10 8 || peer ≠ s.ident.serial || !s.enrolled serial || lifecycle ≠ s.sec.life.code ||
        s.sec.life ≠ .owned || fw ≠ s.ident.fw || !agrees then s.joinFails r .authFailed
    else
      let s := s.setPair fun p => { p with agreed := true }
      if s.pair.trained then s.joined r f.d else s

/-- Widest width that the working lanes allow (R667). -/
def seamWidth (ok : Nat) : Nat := if 8 ≤ ok then 8 else if 4 ≤ ok then 4 else if 2 ≤ ok then 2 else ok

/-- PAIR_JOIN_TIMEOUT: no agreeing peer within 1 s. -/
def execPairJoinTimeout (ring : Fin 16) (s : State) : Host.Outcome State Fault Refusal :=
  .next (match s.waitsAt ring.val .join with
    | some f => (s.until (f.since + 1000000000)).joinFails ring.val .timeout
    | none => s)

/-! ### PAIR_ROLE (R685) -/

/-- CAL_OUT pins follow the schedule in force again (R682). -/
def State.releaseCal (s : State) : State :=
  (List.range 4).foldl (fun s d =>
    let v := s.drive d
    if v.owner.isSome && v.usePin then
      ({ s with pins := { s.pins with calOut := upd s.pins.calOut d fun _ => v.on } }).emit (.pin (16 + d) v.on)
    else s) s

/-- The pair is dissolved on this device; what a hot secondary held low follows the schedule again (R677, R685). -/
def State.dissolved (s : State) : State :=
  let s' := s.seamOff.setRole .solo
  if s.hotSecondary then s'.releaseCal else s'

def pairRoleBody (d : Desc) (s : State) : Verdict :=
  let a := d.u 0x08 1
  let paired := s.pair.role = .primary || s.pair.role = .secondary
  if !d.clean [(0x08, 1)] || 2 < a then fail .badParam d s
  else if a = 0 then
    if !paired then fail .wrongState d s else .done .ok 0 0 d.handle ((s.emit (.seam .dissolve)).dissolved)
  else if a = 1 then
    if s.pair.role ≠ .primary || s.switching then fail .wrongState d s else .wait .switchover d.handle s
  else if s.pair.role ≠ .fenced then fail .wrongState d s
  else .done .ok 0 0 d.handle (s.setRole .solo)

/-- Every record that a sink has issued is delivered. -/
def State.quiet (s : State) : Bool :=
  (List.range 128).all fun k =>
    let x := s.sink k
    !x.bound || (x.cur.isNone && (s.region x.par.region).recs.all fun r : Rec => r.delivered || decide (x.issued ≤ r.seq))

/-- The command that waits to switch over. -/
def State.switchRing (s : State) : Option Nat := (List.range 16).find? fun r => (s.waitsAt r .switchover).isSome

/-- SWITCHOVER_TIMEOUT: after 1 s the roles are unchanged. -/
def execSwitchoverTimeout (ring : Fin 16) (s : State) : Host.Outcome State Fault Refusal :=
  .next (match s.waitsAt ring.val .switchover with
    | some f => (s.until (f.since + 1000000000)).finish ring.val .timeout 0 0
    | none => s)

/-! ### PAIR_STATUS (R686) -/

def State.pairBlock (s : State) : List Byte :=
  let p := s.pair
  pack [(1, p.role.code), (1, b2n p.warm), (1, p.width), (1, b2n p.peerOk + 2 * b2n s.shadowReady + 4 * b2n p.arb + 8 * b2n p.diverged),
    (4, p.unshadowed.length), (4, satN (2 ^ 32 - 1) p.missedTotal), (4, twos 32 p.offsetPs), (2, p.divTag.toNat), (1, p.divOp.toNat),
    (1, p.divSt.toNat), (4, satN (2 ^ 32 - 1) p.longest), (8, p.peer.toNat), (32, 0)]

def pairStatusBody (d : Desc) (s : State) : Verdict :=
  if !d.clean [(0x08, 12)] || d.u 0x10 4 < 64 || !addrOk (d.u 0x08 8) (d.u 0x10 4) 64 then fail .badParam d s
  else result d (d.u 0x08 8) s.pairBlock s.pair.role.code s.pair.unshadowed.length s

/-! ### Mirrored state (R675, R676) -/

/-- An ARR step of the primary: the unit takes the level at the primary's item (R457, R676). -/
def State.shadowStep (s : State) (u item level : Nat) : State :=
  let open_ := s.chunkFrom (s.acq u)
  let s := s.setAcq u fun a =>
    if a.par.source = 3 || item ≤ open_ then { a with level := level, newLevel := none, levelFrom := 0, lastStep := s.now }
    else { a with newLevel := some level, levelFrom := item, lastStep := s.now }
  let a := s.acq u
  let s := if a.par.source = 3 then
      s.setChan a.par.srcIdx fun c => { c with level := ((s.acqsOf 3 a.par.srcIdx).map fun v => (s.acq v).level).foldl max 0 }
    else s
  s.ctBreak a.region

/-- The primary's tables for a group, with their swap spectrum (R676). -/
def State.shadowSwap (s : State) (ref ms gen : Nat) (table : List Byte) : State :=
  match s.driveOf ref with
  | none => s
  | some d =>
    let v := s.drive d
    let g := (v.swaps.find? fun g => !g.asked).getD (.empty v.count)
    let parts := (swapParts 16 table).map fun p => (p.1, { p.2 with tag := g.tag, live := g.live })
    let s := if v.swaps.any (·.asked) then s else s.setGroupGen d ref (if gen ≤ 1 then 0 else gen - 1)
    let s := s.setDrive d fun v => { v with
      count := max v.count (g.tag + 1), swaps := (v.swaps.filter fun x => x.tag != g.tag) ++ [{ g with ms := ms, parts := parts }] }
    s.askParts d g.tag

/-- The delivered watermark of a sink passes its records: they are sealed as the primary sealed them, and their places are free (R676, R708). -/
def State.shadowDeliver (s : State) (k seq : Nat) : State :=
  let mine := (s.region (s.sink k).par.region).recs.filter fun y : Rec => decide (y.seq ≤ seq) && y.ready && !y.delivered
  let s := if (s.sink k).bound then mine.foldl (fun s r => s.sealRec k r) s else s
  { s with regions := upd s.regions (s.sink k).par.region fun r =>
      { r with recs := r.recs.map fun y : Rec => if y.seq ≤ seq then { y with delivered := true } else y } }

/-- The primary has written a record on a ring: the oldest kept CMD_DONE of that ring is confirmed (R682). -/
def dropDone (n : Fin 16) : List (Fin 16 × EvtRecord) → List (Fin 16 × EvtRecord)
  | [] => []
  | x :: rest => if x.1 = n then rest else x :: dropDone n rest

/-- A mirrored item other than a command. -/
def State.mirrored (s : State) (f : SeamFrame) : State :=
  match f with
  | .doorbell n c => s.setMirror fun m => { m with doorbell := upd m.doorbell n.val fun _ => c }
  | .evtReserved n c => s.setMirror fun m => { m with evtRes := upd m.evtRes n.val fun _ => some c }
  | .evtWritten n c => s.setMirror fun m => { m with evtWr := upd m.evtWr n.val fun _ => some c, done := dropDone n m.done }
  | .bufReserved k c => s.setMirror fun m => { m with bufRes := upd m.bufRes k.val fun _ => some c }
  | .bufConfirmed k c => s.setMirror fun m => { m with bufConf := upd m.bufConf k.val fun _ => some c }
  | .issued k q => s.setMirror fun m => { m with issued := upd m.issued k.val fun _ => some q }
  | .delivered k q => (s.setMirror fun m => { m with delivered := upd m.delivered k.val fun _ => some q }).shadowDeliver k.val q
  | .calTables ref ms gen table => if s.pair.warm then s else s.shadowSwap ref.val ms gen table
  | .arrStep u item level => if s.pair.warm then s else s.shadowStep u.val item level
  | _ => s

/-! ### Taking the rings over (R682–R684) -/

/-- Records that are sent again with DUP: issued by the primary, not delivered (R683). -/
def State.resent (s : State) (k : Nat) : Nat :=
  match nth s.pair.mirror.issued k none with
  | none => 0
  | some i => match nth s.pair.mirror.delivered k none with
    | some w => i - w
    | none => i + 1

/-- The rings of a device that begins to serve: event counts, data buffers, doorbells, commands not confirmed. -/
def State.takeRings (s : State) : State :=
  let m := s.pair.mirror
  let s := { s with io := { s.io with
    evt := Vector.ofFn fun n : Fin 16 =>
      let e := nth s.io.evt n.val .reset
      let q := nth m.doorbell (16 + n.val) 0
      let e := match nth m.evtWr n.val none with | some c => { e with written := c } | none => e
      { e with consumed := if q = 0 then e.consumed else q } } }
  let s := (List.range 128).foldl (fun s k =>
    let x := s.sink k
    if !x.bound || x.storage then s
    else
      let ring := x.par.ring
      let from' := match nth m.bufConf k none with | some c => BitVec.ofNat 32 c + 1 | none => (s.dring ring).cons
      let s := s.setDring ring fun r =>
        { r with cons := from', fetched := from', asked := from', reads := [], parked := false, prod := nth m.doorbell (32 + ring) 0, posted := [] }
      s.fetchData ring) s
  let s := (List.range 16).foldl (fun s n =>
    let c := s.cmdRing n
    if !c.en then s
    else
      let mine := m.late.filter fun x : Op × Desc × List Byte × Handle => x.2.1.ring.val == n
      let prod := nth m.doorbell n 0
      let prod := if prod = 0 then c.prod else prod
      let owed := c.inflight.any fun f : Inflight => f.owed == 0
      let again := mine.map fun x : Op × Desc × List Byte × Handle => (x.1, x.2.1)
      let s := { s with io := { s.io with
        cmd := upd s.io.cmd n fun c : CmdRing =>
          { c with prod := prod, asked := c.fetched, reads := [], backlog := again ++ c.backlog
                   inflight := c.inflight.map fun f : Inflight => if f.owed = 0 then { f with owed := 2 } else f }
        evt := if owed then upd s.io.evt ((c.inflight.map fun f : Inflight => f.evt).getD c.evt).val fun e => { e with reserved := e.reserved + 2 } else s.io.evt } }
      s.fetchCmd n) s
  s.setMirror fun m => { m with late := [] }

/-- A filler at each count from the last written to the last reserved (R682). -/
def State.fillers (s : State) (n : Nat) : State :=
  match nth s.pair.mirror.evtRes n none with
  | none => s
  | some last =>
    let from' := (nth s.io.evt n .reset).written
    let rec' : EvtRecord :=
      { code := 0x0600#16, sev := 4, lost := true, cls := 9, handle := 0, time := s.time74
        data := evtData [(1, 1), (1, b2n s.pair.warm), (2, 0), (4, 0), (4, 0)] }
    { s with io := (List.range (min 128 ((last - from').toNat + 1))).foldl (fun io _ => io.evtWrite n rec') s.io }

/-- The places of the sinks (R682–R684). -/
def State.takeSinks (s : State) (dup : Bool) : State :=
  let m := s.pair.mirror
  (List.range 128).foldl (fun s k =>
    if !(s.sink k).bound then s
    else match nth m.delivered k none, nth m.issued k none with
    | w, i =>
      let s := s.setSink k fun x =>
        { x with cur := none, buf := none, confirm := none, next := (w.map (· + 1)).getD x.next, last := if w.isSome then w else x.last
                 dupUpTo := if dup then i else none }
      if s.pair.warm then
        match i with
        | some q =>
          let s := { s with regions := upd s.regions (s.sink k).par.region fun r => { r with nextSeq := max r.nextSeq (q + 1) } }
          s.setSink k fun x => { x with next := q + 1, gapDue := true }
        | none => s
      else s) s

/-- CMD_DONE of the commands whose completion the primary has not confirmed (R682). -/
def State.resendDone (s : State) : State :=
  let s' := s.pair.mirror.done.foldl (fun s (n, rec') => { s with io := s.io.evtPost n.val rec' }) s
  s'.setMirror fun m => { m with done := [] }

end Sys2Proof.Machine
end

