-- ==== Sys2Proof/Machine/Security.lean ====
section
/-! DEFINITION. The seal commands, checkpoints in time, SPDM requests, lifecycle and debug access (R689–R717). -/

namespace Sys2Proof.Machine

/-! ### SEAL_OPEN (R709, R710) -/

def sealRegion (d : Desc) : Handle := BitVec.ofNat 32 (d.u 0x18 4)

def sealOpenFields (d : Desc) (s : State) : Bool :=
  let n := d.u 0x1C 4
  let t := d.u 0x20 2
  let seg := slotBytes (padTo 8 (segmentBytes s.sec.journal)).length
  d.clean [(0x08, 13), (0x18, 10), (0x24, 4)] && (d.u 0x10 4 == 1665 || d.u 0x10 4 == 6388) && d.u 0x14 1 < 2 &&
  n ≤ 2 ^ 24 && t ≤ 3600 && !(n == 0 && t == 0) && inR (d.u 0x24 4) 1 1000000 && addrOk (d.u 0x08 8) (d.u 0x10 4) 8 &&
  (!s.valid 3 (sealRegion d) || decide (slotBytes 6664 + seg ≤ (s.region (hIdx (sealRegion d))).bytes / 2))

/-- The lifecycle or debug access forbids a session (R710). -/
def State.sealBarred (s : State) : Bool :=
  match s.sec.life with
  | .manufacture | .decommissioned => true
  | .owned => s.sec.debugTok.isSome
  | .unowned => false

/-- Declared rates of the sessions open or claimed, but for those that ring `r` has claimed. -/
def State.sealRates (s : State) (r : Nat) : Nat :=
  sumN (s.sec.sessions.toList.map fun x : Session => if (x.isOpen || x.claim.isSome) && x.claim != some r then x.rate else 0)

/-- The session that SEAL_OPEN on ring r takes (R64, R701): the one it has claimed, or the lowest free one. -/
def sealClaim (d : Desc) (s : State) : Except Status Nat :=
  let r := d.ring.val
  let own := (List.range 16).find? fun k => (s.session k).claim == some r
  if (s.region (hIdx (sealRegion d))).writer != .none && own.all fun k => s.writerBusy (hIdx (sealRegion d)) (.session k) then .error .resourceBusy
  else match own <|> s.claimIdx 16 fun k => !(s.session k).isOpen && (s.session k).claim.isNone with
  | none => .error .noCapacity
  | some k => if 1000000 < s.sealRates r + d.u 0x24 4 then .error .noCapacity else .ok k

/-- SEAL_OPEN holds its session, its region and its rate from acceptance (R42, R64). -/
def sealOpenBody (d : Desc) (s : State) : Verdict :=
  if !sealOpenFields d s then fail .badParam d s
  else if !s.valid 3 (sealRegion d) then fail .badHandle d s
  else if s.sealBarred then fail .wrongState d s
  else match sealClaim d s with
  | .error st => fail st d s
  | .ok k =>
    let s := (s.setWriter (hIdx (sealRegion d)) (.session k)).setSession k fun x =>
      { Session.reset with gen := x.gen, claim := some d.ring.val, rate := d.u 0x24 4 }
    match readBuffer d (d.u 0x08 8) (d.u 0x10 4) s with
    | .wait st _ s' => .wait st (s.handleOf 8 k) s'
    | v => v

/-- The random source gives its next 256 bits (R689). -/
def State.draw (s : State) : BitVec 256 × State := (Config.random s.sec.draws, { s with sec := { s.sec with draws := s.sec.draws + 1 } })

/-- The new session (R701); in a pair both devices take salt, C and K from what the primary adds to the block (R708). -/
def sealSession (d : Desc) (buf : List Byte) (k : Nat) (s : State) : State :=
  let n := d.u 0x10 4
  let given := decide (n < buf.length)
  let recip := slice 0 1665 buf
  let digest := Config.sha384 recip
  let seed := s.sec.draws
  let (v, s) := s.draw
  let salt := if given then BitVec.ofNat 32 (num buf n 4) else v.setWidth 32
  let chain := if given then BitVec.ofNat 384 (num buf (n + 4) 48)
    else Config.sha384 ([0x54, 0x4C, 0x53, 0x45, 0x41, 0x4C] ++ le 4 salt.toNat ++ le 48 digest.toNat)
  let key := if given then buf.drop (n + 52) else Config.sealKey seed recip s.ident.serial salt
  s.setSession k fun x =>
    { Session.reset with
      gen := x.gen, isOpen := true, closing := true, key := key, salt := salt, chain := chain, enc := dBit d 0x14 0
      region := hIdx (sealRegion d), n := d.u 0x1C 4, t := d.u 0x20 2, rate := d.u 0x24 4, eph := Config.sealEphemeral seed recip
      recip := digest }

/-- On the grant: the region becomes the write target, the open checkpoint and its segment are written. -/
def sealOpenGrant (d : Desc) (s : State) : Verdict :=
  let h := ((s.cmdRing d.ring.val).inflight.map fun f => f.handle).getD 0
  let k := hIdx h
  if !s.valid 3 (sealRegion d) then fail .badHandle d s
  else if s.writerBusy (hIdx (sealRegion d)) (.session k) then fail .resourceBusy d s
  else
    let s := (s.setWriter (hIdx (sealRegion d)) (.session k)).setSession k fun x => { x with closing := false }
    let s := (s.cut k 0 none).writeCut k
    if (s.session k).cuts.isEmpty then .done .ok k (s.session k).salt.toNat h s
    else .wait .checkpoint h (s.setSession k fun x => { x with cuts := x.cuts.map fun c => { c with ring := some d.ring } })

/-- The recipient block has come. -/
def sealOpenData (d : Desc) (buf : List Byte) (s : State) : Verdict :=
  let n := d.u 0x10 4
  let signed := n = 6388
  let good := match s.sec.ownerKey with
    | some key => Config.verifies key (slice 0 1665 buf) (slice 1665 4723 buf)
    | none => false
  if !sealOpenFields d s then fail .badParam d s
  else if !s.valid 3 (sealRegion d) then fail .badHandle d s
  else if s.sealBarred then fail .wrongState d s
  else if (s.sec.life = .owned && !signed) || (signed && !good) then fail .authFailed d s
  else match sealClaim d s with
  | .error st => fail st d s
  | .ok k =>
      let s := (sealSession d buf k s).setWriter (hIdx (sealRegion d)) (.session k)
      let h := s.handleOf 8 k
      .need (.session k) 1 (5600 * d.u 0x24 4 / 1000000) h (s.setInflight d.ring.val (Option.map fun f => { f with handle := h })) (sealOpenGrant d)

/-! ### SEAL_CHECKPOINT, SEAL_CLOSE (R712, R713) -/

def sealCheckpointBody (d : Desc) (s : State) : Verdict :=
  let k := hIdx d.handle
  if !d.clean [] then fail .badParam d s
  else if (s.session k).closing then fail .wrongState d s
  else .wait .checkpoint d.handle (s.cutSoon k 2 (some d.ring))

def sealCloseBody (d : Desc) (s : State) : Verdict :=
  let k := hIdx d.handle
  if !d.clean [] then fail .badParam d s
  else if (s.session k).sink.isSome then fail .resourceBusy d s
  else if (s.session k).closing then fail .wrongState d s
  else .wait .checkpoint d.handle ((s.cut k 3 (some d.ring)).setSession k fun x => { x with closing := true })

/-- SEAL_CHECKPOINT_TIMER (R705): T seconds since the last cut. -/
def execSealCheckpointTimer (k : Fin 16) (s : State) : Host.Outcome State Fault Refusal :=
  let x := s.session k.val
  .next (if x.isOpen && !x.closing && x.t ≠ 0 && !(x.due.any fun c => c.1 == 1) then (s.until (x.cutAt + x.t * 1000000000)).cutSoon k.val 1 none else s)

/-- CHECKPOINT_WRITE (R705). -/
def execCheckpointWrite (k : Fin 16) (s : State) : Host.Outcome State Fault Refusal := .next (s.writeCut k.val)

/-! ### SPDM (R698) -/

/-- The device answers on a port's mailbox. -/
def State.answers (s : State) (p : Fin 2) : Bool := s.boot.ready && (s.hostPort p.val).linkUp && !(s.ident.small && p == 1)

/-- Send a response when the device answers. -/
def State.reply (s : State) (p : Fin 2) (bytes : List Byte) : State := if s.answers p then s.emit (.spdm p bytes) else s

/-- The SPDM error InvalidRequest. -/
def spdmInvalid : List Byte := [0x7F, 0x01]

/-- GET_VERSION: 1.2 and 1.3. -/
def execGetVersion (port : Fin 2) (s : State) : Host.Outcome State Fault Refusal := .next (s.reply port [0x04, 2, 0x12, 0x13])

/-- GET_CAPABILITIES: certificates, challenge, signed measurements; no secure session. -/
def execGetCapabilities (port : Fin 2) (s : State) : Host.Outcome State Fault Refusal := .next (s.reply port [0x61, 0x16])

/-- NEGOTIATE_ALGORITHMS: P-384 and SHA-384 only. -/
def execNegotiateAlgorithms (port : Fin 2) (s : State) : Host.Outcome State Fault Refusal := .next (s.reply port [0x63, 0x80, 0x02])

/-- GET_DIGESTS: the digest of the certificate chain. -/
def execGetDigests (port : Fin 2) (s : State) : Host.Outcome State Fault Refusal :=
  .next (s.reply port (0x01 :: le 48 (Config.sha384 Config.aliasCerts).toNat))

/-- GET_CERTIFICATE: a part of the chain. -/
def execGetCertificate (port : Fin 2) (off len : Nat) (s : State) : Host.Outcome State Fault Refusal :=
  .next (s.reply port (0x02 :: (Config.aliasCerts.drop off).take len))

/-- Issue a challenge (R692, R715). -/
def State.issueChallenge (s : State) : BitVec 256 × State :=
  let (v, s) := s.draw
  (v, { s with sec := { s.sec with challenges := s.sec.challenges ++ [(v, s.now)] } })

/-- CHALLENGE: the response carries the certificates' digest and the device's own fresh challenge, signed by the alias keys. -/
def execChallenge (port : Fin 2) (nonce : BitVec 256) (s : State) : Host.Outcome State Fault Refusal :=
  .next (if s.answers port then
      let (v, s) := s.issueChallenge
      let body := le 32 nonce.toNat ++ le 48 (Config.sha384 Config.aliasCerts).toNat ++ le 32 v.toNat
      s.reply port (0x03 :: body ++ Config.aliasSign body)
    else s)

/-- A measurement block (R698). -/
def State.measurement (s : State) (i : Nat) : Option (List Byte) :=
  if i = 1 then some (le 48 Config.romDigest.toNat)
  else if i = 2 then some (le 48 Config.imageDigest.toNat ++ le 2 s.ident.secVer)
  else if i = 3 then some (pack [(1, s.sec.life.code), (1, s.sec.slot.getD 255), (2, s.sec.step), (1, b2n s.debugOpen)])
  else if i = 4 then some (pack [(2, 1), (1, b2n s.ident.small), (1, s.ident.stepping.toNat)])
  else if i = 5 then some (pack [(48, s.sec.head.toNat), (4, s.sec.jNext - 1)])
  else if 16 ≤ i && i ≤ 31 then some (le 48 (((nth s.mps (i - 16) .reset).image.map fun g : MpImage => g.digest).getD 0).toNat)
  else none

/-- GET_MEASUREMENTS: one block, or with index 0xFF every block; index 0 asks for their number. -/
def execGetMeasurements (port : Fin 2) (index : Byte) (s : State) : Host.Outcome State Fault Refusal :=
  let all := [1, 2, 3, 4, 5] ++ (List.range 16).map (· + 16)
  let body := if index = 0 then [BitVec.ofNat 8 all.length]
    else (if index = 0xFF then all else [index.toNat]).flatMap fun i => (s.measurement i).getD []
  .next (if index ≠ 0 && index ≠ 0xFF && (s.measurement index.toNat).isNone then s.reply port spdmInvalid
    else s.reply port (0x60 :: body ++ Config.aliasSign body))

/-! ### Lifecycle (R691–R693) -/

/-- Records being sealed are completed (R716). -/
def State.finishSealed (s : State) : State :=
  (List.range 128).foldl (fun s k =>
    match (s.sink k).cur with
    | some c =>
      if (s.sealer (s.sink k).par.session).isSome then
        (List.range (c.total / 64 + 2)).foldl (fun s _ => match (s.sink k).cur with | some c => s.moveBeat k c .none | none => s) s
      else s
    | none => s) s

/-- Every session closes, after the record that it is sealing (R692, R716). -/
def State.closeAll (s : State) (kind : Nat) : State := s.finishSealed.closeSessions kind

/-- The message a request's signature covers. -/
def lifeMsg (r : LifeReq) (kind : Nat) : List Byte :=
  pack [(1, kind), (8, r.serial.toNat), (32, r.challenge.toNat), (8, r.peer.toNat), (1, r.mask.toNat), (4, r.expiry)] ++ r.key

/-- The request names this device and a fresh challenge of its own, not used before. -/
def State.lifeFresh (s : State) (serial : BitVec 64) (challenge : BitVec 256) : Bool :=
  serial == s.ident.serial && s.sec.challenges.any fun (v, t) => v == challenge && decide (s.now ≤ t + 60000000000)

/-- The owner's signature verifies. -/
def State.byOwner (s : State) (msg sig : List Byte) : Bool :=
  match s.sec.ownerKey with
  | some k => Config.verifies k msg sig
  | none => false

/-- Use up a challenge. -/
def State.spend (s : State) (v : BitVec 256) : State :=
  { s with sec := { s.sec with challenges := s.sec.challenges.filter fun c => c.1 != v } }

/-- Carry out an accepted request and answer it; else refuse it (R692). -/
def lifeStep (r : LifeReq) (kind : Nat) (ok : Bool) (effect : State → State) (s : State) : State :=
  if !s.answers r.port then s
  else if ok && s.lifeFresh r.serial r.challenge then
    ((effect (s.spend r.challenge)).journal 6 0xFF 0 0 (Config.sha384 (lifeMsg r kind))).reply r.port [0x7E]
  else s.reply r.port spdmInvalid

def State.setSec (s : State) (f : Sec → Sec) : State := { s with sec := f s.sec }

/-- CLAIM: the new owner's digest goes into the lowest blank slot. -/
def execClaim (r : LifeReq) (s : State) : Host.Outcome State Fault Refusal :=
  let slot := s.sec.owners.toList.findIdx? (· == .blank)
  let ok := s.sec.life = .unowned && slot.isSome && r.key.length = 2689 && Config.verifies (Config.sha384 r.key) (lifeMsg r 0) r.sig
  .next (lifeStep r 0 ok (fun s => s.setSec fun x =>
    { x with owners := upd x.owners (slot.getD 0) fun _ => .key (Config.sha384 r.key), life := .owned }) s)

/-- RELEASE: sessions close, the slot is void, the enrolment is erased. -/
def execRelease (r : LifeReq) (s : State) : Host.Outcome State Fault Refusal :=
  let ok := s.sec.life = .owned && s.byOwner (lifeMsg r 1) r.sig
  .next (lifeStep r 1 ok (fun s =>
    let s := s.closeAll 3
    let slot := s.sec.slot.getD 0
    { s with
      sec := { s.sec with owners := upd s.sec.owners slot fun _ => .void, life := .unowned, debugTok := none }
      store := { s.store with enrol := none } }) s)

/-- ENROL_PAIR. -/
def execEnrolPair (r : LifeReq) (s : State) : Host.Outcome State Fault Refusal :=
  let ok := s.sec.life = .owned && s.byOwner (lifeMsg r 2) r.sig
  .next (lifeStep r 2 ok (fun s => { s with store := { s.store with enrol := some (s.ident.serial, r.peer) } }) s)

/-- DECOMMISSION: for good. -/
def execDecommission (r : LifeReq) (s : State) : Host.Outcome State Fault Refusal :=
  let ok := s.sec.life = .unowned || (s.sec.life = .owned && s.byOwner (lifeMsg r 3) r.sig)
  .next (lifeStep r 3 ok (fun s => (s.closeAll 3).setSec fun x => { x with life := .decommissioned, debugTok := none }) s)

/-! ### Debug access (R715, R716) -/

/-- A token is accepted: every session closes with a checkpoint of kind 4, access opens until the expiry. -/
def State.unlock (s : State) (mask : Byte) (expiry : Nat) : State :=
  let s := s.closeAll 4
  (s.setSec fun x => { x with debugTok := some (mask, s.now + expiry * 1000000000) }).journal 5 0xFF 0 0 (Config.sha384 (pack [(1, mask.toNat), (4, expiry)]))

/-- Access locks again. -/
def State.relock (s : State) : State :=
  if s.sec.debugTok.isSome then (s.setSec fun x => { x with debugTok := none }).journal 5 0xFF 0 0 (Config.sha384 []) else s

/-- DEBUG_TOKEN presented by SPDM. -/
def execDebugToken (r : LifeReq) (s : State) : Host.Outcome State Fault Refusal :=
  let ok := s.sec.life = .owned && inR r.expiry 1 86400 && r.mask.toNat < 4 && s.byOwner (lifeMsg r 4) r.sig
  .next (if !s.answers r.port then s
    else if ok && s.lifeFresh r.serial r.challenge then ((s.spend r.challenge).unlock r.mask r.expiry).reply r.port [0x7E]
    else s.reply r.port spdmInvalid)

/-- DEBUG_GRANT_EXPIRY. -/
def execDebugGrantExpiry (s : State) : Host.Outcome State Fault Refusal :=
  .next (match s.sec.debugTok with
    | some (_, t) => (s.until t).relock
    | none => s)

end Sys2Proof.Machine
end

