-- ==== Sys2Proof/Machine/Grants.lean ====
section
/-! DEFINITION. The PAU's queues at work: examining, granting, refusing, withdrawing; POWER_BUDGET, POWER_QUERY, SLEEP (R606–R612,
R623–R632). -/

namespace Sys2Proof.Machine

/-! ### What a command does on its grant, and what it gives back (R68, R72) -/

/-- The rest of a command whose grant comes from a queue; `h` is the handle of its completion. -/
def grantOf (op : Op) (h : Handle) (d : Desc) (s : State) : Verdict :=
  match op with
  | .streamOpen => streamOpenGrant (hIdx h) d s
  | .chanStart | .chanResume => chanStartGrant d s
  | .sweepRun => .done .ok 0 0 d.handle ((s.setSweep (hIdx d.handle) fun x => { x with run := true, restart := true }).sweepMask (hIdx d.handle) 0)
  | .mpStart => mpStartGrant d s
  | .densSet => densSetGrant d s
  | .sealOpen => sealOpenGrant d s
  | .pairJoin => pairJoinGrant d s
  | _ => .done .ok 0 0 h s

/-- Release what a command that waited for power had claimed (R72). -/
def undoOf (op : Op) (h : Handle) (d : Desc) (s : State) : State :=
  match op with
  | .streamOpen =>
    if d.handle = 0 then s.setStream (hIdx h) fun x => { Stream.reset with gen := nextGen x.gen }
    else s.setStream (hIdx h) fun x => { x with reopening := false }
  | .chanStart | .chanResume => s.setChan (hIdx d.handle) fun c => { c with waiting := false }
  | .densSet => s.undoPlane d
  | .sealOpen => (s.dropWriter (.session (hIdx h))).setSession (hIdx h) fun x => { Session.reset with gen := nextGen x.gen }
  | .pairJoin => s.seamOff
  | .mpStart => s.dropWriter (.mp (hIdx d.handle))
  | _ => s

/-- The need of a command that waits for power. -/
def needOf (op : Op) (h : Handle) (d : Desc) : Need :=
  match op with
  | .streamOpen => .lanes (hIdx h)
  | .chanStart | .chanResume => .chan (hIdx d.handle)
  | .sweepRun => .sweep (hIdx d.handle)
  | .densSet => .plane (d.u 0x08 1)
  | .mpStart => .mp (hIdx d.handle)
  | .sealOpen => .session (hIdx h)
  | _ => .seam

/-! ### Issuing a grant (R608, R610, R611, R674) -/

/-- Finish a deferred verdict: on any status but OK the grant and the claims go back. -/
def State.settleGrant (s : State) (r : Nat) (f : Inflight) (need : Need) (v : Verdict) : State :=
  match v with
  | .done .ok a b h s' => s'.complete r .ok a b h
  | .done st a b _ _ => ((undoOf f.op f.handle f.d s).setGrant need 0).complete r st a b f.handle
  | v => settle r s v

/-- A command of a secondary that waited for power goes on: its object is shadowed from now (R674). -/
def State.shadowGrant (s : State) (h : Handle) : State :=
  match s.pair.mirror.waiting.find? fun x => x.2.2 == h with
  | none => s
  | some (op, d, _) =>
    let s := (s.setMirror fun m => { m with waiting := m.waiting.filter fun x => x.2.2 != h }).setPair fun p =>
      { p with unshadowed := p.unshadowed.filter fun x => x != h }
    match grantOf op h d s with
    | .done .ok _ _ _ s' => s'
    | .done .. => s
    | .wait stage _ s' =>
      let r := d.ring.val
      if (s'.cmdRing r).inflight.isSome then s'
      else s'.setInflight r fun _ => some (shadowed op d h stage [] s')
    | .need .. => s

/-- The opcode POWER_GRANT names. -/
def State.reqOpcode (s : State) (q : PowerReq) : Nat :=
  match q.need, q.ring with
  | .darner, _ => 0xFF
  | _, some r => ((s.cmdRing r.val).inflight.map fun f => f.op.code.toNat).getD 0xFF
  | _, none => ((s.pair.mirror.waiting.find? fun x => x.2.2 == q.handle).map fun x => x.1.code.toNat).getD 0xFF

/-- The grant of a request is issued now: the event for a queued one, then the command goes on. -/
def State.issueGrant (s : State) (cls : Nat) (q : PowerReq) : State :=
  let s := match q.queued with
    | some t => s.note .powerGrant q.handle [(1, s.reqOpcode q), (1, cls), (2, 0), (4, q.cost), (4, satN (2 ^ 32 - 1) ((s.now - t) / 1000))]
    | none => s
  match q.need, q.ring with
  | .stack _, _ | .darner, _ => s
  | _, none => s.shadowGrant q.handle
  | need, some r =>
    match s.waitsAt r.val .power with
    | some f => s.settleGrant r.val f need (grantOf f.op f.handle f.d s)
    | none => s

/-- The head of the first class that waits. -/
def Pau.head (p : Pau) : Option (Nat × PowerReq) :=
  [0, 1, 2].findSome? fun c => (p.waiting c).head?.map fun q => (c, q)

/-- Examine the queues: grant each head that fits, stop at the first that does not (R608). A grant that the spacing delays counts as made. -/
def State.examine : (fuel : Nat) → (s : State) → State
  | 0, s => s
  | n + 1, s =>
    match s.pau.head with
    | none => s
    | some (c, q) =>
      if !s.fits q.cost then s
      else
        let rest := s.pau.setQueue c ((s.pau.queue c).erase q)
        match s.spacing q.cost with
        | some due =>
          ((({ s with pau := rest }).charge q.need q.cost due).enqueue c { q with spaced := true, since := due }).examine n
        | none => ((({ s with pau := rest }).charge q.need q.cost s.now).issueGrant c q).examine n

/-- All three queues full is the most a pass can grant. -/
def State.examineAll (s : State) : State := s.examine 192

/-! ### Departures (R99, R609) -/

/-- A queued request leaves without a grant; its command completes with a status and gives its claims back. -/
def State.refuse (s : State) (c : Nat) (q : PowerReq) (st : Status) : State :=
  match q.need, q.ring with
  | .stack k, _ => s.wakeRefused k.val st
  | _, some r =>
    let s := { s with pau := s.pau.setQueue c ((s.pau.queue c).erase q) }
    match s.waitsAt r.val .power with
    | some f => (undoOf f.op f.handle f.d s).finish r.val st 0 0
    | none => s
  | _, none => { s with pau := s.pau.setQueue c ((s.pau.queue c).erase q) }

/-- Queued requests that can no longer fit complete with POWER_DENIED (R609). A patrol burst and a secondary's requests wait on (R555, R674). -/
def State.denyUnfit (s : State) : State :=
  [0, 1, 2].foldl (fun s c =>
    ((s.pau.waiting c).filter fun q => s.neverFits q.cost && (q.ring.isSome)).foldl (fun s q =>
      if (s.pau.queue c).contains q then s.refuse c q .powerDenied else s) s) s

/-! ### POWER_BUDGET, POWER_QUERY (R629–R631) -/

def powerBudgetBody (d : Desc) (s : State) : Verdict :=
  if !d.clean [(0x08, 8)] || !inR (d.u 0x08 4) 30000 285000 || !inR (d.u 0x0C 4) 1 600000 then fail .badParam d s
  else
    let s := { s with pau := { s.pau with budget := d.u 0x08 4, budgetSet := true, queueMs := d.u 0x0C 4 } }
    let above := decide (s.pau.budget < s.static + s.granted)
    .done .ok (b2n above) 0 d.handle s.denyUnfit.examineAll

/-- Thermal state: 0 normal, 1 limit, 2 critical. -/
def Pau.therState (p : Pau) : Nat := if p.critSince.isSome then 2 else if p.limitFix.isSome then 1 else 0

def State.powerBlock (s : State) : List Byte :=
  let p := s.pau
  let wait := ((p.waiting 0 ++ p.waiting 1 ++ p.waiting 2).map fun q => s.now - q.since).foldl max 0
  pack [(4, p.budget), (4, s.effective), (4, s.static), (4, s.granted), (4, Config.corePower p.setpoint), (1, twos 8 p.hottest), (1, p.therState),
    (2, (p.waiting 0).length), (2, (p.waiting 1).length), (2, (p.waiting 2).length), (4, wait / 1000000), (32, 0)]

def powerQueryBody (d : Desc) (s : State) : Verdict :=
  if !d.clean [(0x08, 12)] || d.u 0x10 4 < 64 || !addrOk (d.u 0x08 8) (d.u 0x10 4) 64 then fail .badParam d s
  else result d (d.u 0x08 8) s.powerBlock 0 s.available.toNat s

/-! ### SLEEP (R622–R627, R632) -/

/-- A sink holds undelivered records: in the region it delivers, or in an input of its corner turn. -/
def State.sinkOwes (s : State) (k : Nat) : Bool :=
  let x := s.sink k
  x.bound && (x.par.region :: x.par.inputs).any fun i => (s.region i).recs.any fun r : Rec => r.ready && !r.delivered

/-- Nothing runs that R623 names. -/
def State.maySleep (s : State) (target : Nat) : Bool :=
  (s.chans.toList.all fun c => c.st == .empty || (c.st == .stopped && !c.waiting)) &&
  (s.streams.toList.all fun x => x.st == .free) &&
  (s.sweeps.toList.all fun x => !x.run) && (s.mps.toList.all fun m => m.st != .running) && (s.planes.toList.all fun x => x.chan.isNone) &&
  (s.sec.sessions.toList.all fun x => !x.isOpen) &&
  !((List.range 128).any s.sinkOwes) &&
  (s.io.cmd.toList.all fun c => c.inflight.all fun f => f.stage != .epoch && f.stage != .power) &&
  s.pau.q0.isEmpty && s.pau.q1.isEmpty && s.pau.q2.isEmpty &&
  (target == 1 || s.pair.role == .solo || s.pair.role == .fenced)

/-- SLEEP is accepted: no ACTIVE rule refuses it either (R652). -/
def State.sleepGoes (s : State) (target : Nat) : Bool := s.maySleep target && !s.thim.refusesSleep

/-- Start the way into a power state. -/
def State.beginSleep (s : State) (target : Nat) (mask : Nat) (second : Nat) : State :=
  let goal := if target = 1 then PwrSt.idle else if target = 2 then .retain else .dormant
  { s with pwr := { s.pwr with
      entering := if target = 1 && s.pwr.st = .idle then none else some goal, enteredAt := s.now
      wakeMask := BitVec.ofNat 6 mask, wakeSec := BitVec.ofNat 40 second } }

/-- Operands of SLEEP in range: the scheduled second lies 2 s to 2^32 s ahead on the RTC. -/
def State.sleepOk (s : State) (target mask second : Nat) : Bool :=
  inR target 1 3 && decide (mask < 64) && decide (second < 2 ^ 40) &&
  (!bit mask 3 || (decide (s.thim.rtc + 2 * unitS ≤ second * unitS) && decide (second * unitS ≤ s.thim.rtc + 2 ^ 32 * unitS)))

def sleepBody (d : Desc) (s : State) : Verdict :=
  if !d.clean [(0x08, 2), (0x10, 8)] || !s.sleepOk (d.u 0x08 1) (d.u 0x09 1) (d.u 0x10 8) then fail .badParam d s
  else if !s.sleepGoes (d.u 0x08 1) then fail .wrongState d s
  else .done .ok 0 0 d.handle (s.beginSleep (d.u 0x08 1) (d.u 0x09 1) (d.u 0x10 8))

end Sys2Proof.Machine
end

