-- ==== Sys2Proof/Machine/Reset.lean ====
section
/-! DEFINITION. Resets of the logic die, the safe state, the power states and waking (R94, R146, R536, R551, R621–R628, R635, R721–R725,
R731). -/

namespace Sys2Proof.Machine

/-! ### Resets (R722, R725) -/

/-- GPIO20–23 sit in the always-on pad group (R786). -/
def alwaysOn (n : Nat) : Bool := decide (20 ≤ n) && decide (n ≤ 23)

/-- The outputs of the die go to high impedance: the pull-downs take what was high, the clock outputs stop. -/
def State.outputsOff (s : State) : State :=
  let s := (List.range 32).foldl (fun s n => if s.pins.drives n && !alwaysOn n && s.pinLevel n then s.emit (.pin n false) else s) s
  (List.range 16).foldl (fun s n => if nth s.clk.outRun n false then s.emit (.clkout n false) else s) s

/-- The logic die and the HBM stacks at reset; Thimble, the boot flash, the persistent store, the fuses, the pins outside the die and the
always-on pads GPIO20–23 keep theirs (R635, R653). The error log is kept after SYS_RESET.DIE only (R551). -/
def State.resetDie (s : State) (keepLog : Bool) : State :=
  { State.reset with
    pending := s.pending, free := s.free, now := s.now, io := { Io.reset with out := s.outputsOff.io.out }, ident := s.ident
    boot := { Boot.reset with
      die := .held, attempts := s.boot.attempts, failed := s.boot.failed, tryOther := s.boot.tryOther, porLow := s.boot.porLow
      xtal32 := s.boot.xtal32, xtal50 := s.boot.xtal50, safe := s.boot.safe, safeByHeat := s.boot.safeByHeat, keepLog := keepLog }
    pins := { Pins.reset with
      func := Vector.ofFn fun i => if alwaysOn i.val then nth s.pins.func i.val 0 else 0
      level := (List.range 32).foldl (fun w n => setBit w n (if alwaysOn n || !s.pins.drives n then s.pins.level.getLsbD n else false)) 0
      pwrEn := s.pins.pwrEn, wakeN := s.pins.wakeN }
    time := { TimeBase.reset with tb := s.thim.rtc / unitS * unitS }
    integ := if keepLog then { Integ.reset with log := s.integ.log, overflow := s.integ.overflow, episodes := s.integ.episodes } else .reset
    store := s.store, pau := { Pau.reset with temps := s.pau.temps }, thim := { s.thim with wdtStage := 0, logRegion := none, claims := [] }
    pwr := { Pwr.reset with wakeCause := s.pwr.wakeCause }
    pair := { Pair.reset with arb := s.pair.arb }
    sec := { Sec.reset with life := s.sec.life, owners := s.sec.owners, step := s.sec.step, draws := s.sec.draws }
    flash := { Flash.reset with mem := s.flash.mem, desc0 := s.flash.desc0, desc1 := s.flash.desc1 } }

/-- The die leaves reset unless POR_N, the crystal, the safe state or the count of failed starts holds it (R721, R731). -/
def State.releaseDie (s : State) : State :=
  if s.boot.porLow || !s.boot.xtal32 || s.boot.safe || 4 ≤ s.boot.failed then { s with boot := { s.boot with die := .held } }
  else { s with boot := { s.boot with die := .booting } }

/-- A die restart (R722): reset, then start. -/
def State.restartDie (s : State) (keepLog : Bool) : State := (s.resetDie keepLog).releaseDie

/-! ### The safe state (R146) -/

/-- Enter the safe state: the die is held in reset, its outputs and links are off, Thimble logs the entry. -/
def State.enterSafe (s : State) (heat : Bool) : State :=
  if s.boot.safe then { s with boot := { s.boot with safeByHeat := s.boot.safeByHeat || heat } }
  else
    let s := s.resetDie false
    ({ s with boot := { s.boot with die := .held, safe := true, safeByHeat := heat } }).thimLog 4 255 255 0

/-! ### Power states (R622–R628) -/

/-- Enter IDLE: engines, lanes and PLLs off, every stack in self-refresh with its grant released. Saved equaliser state stays (log entry 76). -/
def State.toIdle (s : State) : State :=
  State.refreshOuts { s with
    pwr := { s.pwr with st := .idle, entering := none, enteredAt := s.now, slept := true }
    pau := { s.pau with stackGrant := Vector.replicate 4 0 }
    hbm := { s.hbm with selfRef := 0xF, wake := 0, wakeQueued := 0, owed := Vector.replicate 128 0, panic := Vector.replicate 12 0 }
    clk := { s.clk with lock := false, coast := false, measuring := false, coastStart := none, ppsValid := false, ppsGood := 0, ppsBad := 0
                        f0Lock := false, f1Lock := false }
    lanes := s.lanes.map fun l : Lane =>
      { l with stage := 0, pstate := 2, sigDet := false, cdrLock := false, blockLock := false, mbLock := false } }

/-- Enter RETAIN: registers, rings and handles survive (R624). -/
def State.toRetain (s : State) : State := { s with pwr := { s.pwr with st := .retain, entering := none, enteredAt := s.now } }

/-- Enter DORMANT: everything but Thimble is off; what was held in the die and the stacks is lost (R94, R536). -/
def State.toDormant (s : State) : State :=
  let m := s.pwr.wakeMask
  let sec := s.pwr.wakeSec
  let s := s.resetDie false
  { s with pwr := { s.pwr with st := .dormant, wakeMask := m, wakeSec := sec, enteredAt := s.now } }

/-- A wake source fires (R627): with its mask bit set it stops an entry, leaves RETAIN, or starts the die from DORMANT. -/
def State.wakeSleep (s : State) (src : Nat) : State :=
  if !s.pwr.wakeMask.getLsbD src || s.boot.safe then s
  else
    let mark := fun (s : State) => ({ s with pwr := { s.pwr with wakeCause := BitVec.ofNat 3 src } }).thimLog 5 src 255 0
    match s.pwr.entering, s.pwr.st with
    | some .retain, _ | some .dormant, _ =>
      mark (if s.pwr.st = .active then s.toIdle else { s with pwr := { s.pwr with entering := none } })
    | _, .retain =>
      let s := mark (s.restartTime)
      ({ s with pwr := { s.pwr with st := .idle, enteredAt := s.now }, pins := { s.pins with wakeN := true } }).emit (.wake true)
    | _, .dormant =>
      let s := mark ({ s with pwr := { s.pwr with st := .idle }, pins := { s.pins with pwrEn := true } })
      s.restartDie false
    | _, _ => s

/-- Every exit condition of the safe state holds: the crystal runs, the die has cooled after an entry by heat, no rule asks for it (R146, R654). -/
def State.safeMayEnd (s : State) : Bool :=
  s.boot.safe && s.boot.xtal50 && (!s.boot.safeByHeat || s.pau.temps.toList.all fun t => decide (t < 95)) &&
  !s.thim.cutting 1

/-- Leave the safe state: the die starts as from DORMANT. -/
def State.leaveSafe (s : State) : State :=
  ({ s with boot := { s.boot with safe := false, safeByHeat := false } }).restartDie false

end Sys2Proof.Machine
end

