-- ==== Sys2Proof/Machine/Thimble.lean ====
section
/-! DEFINITION. Thimble's monitor and rule engine: filters, the result buffer, rules and their actions, shedding (R620, R636–R656). -/

namespace Sys2Proof.Machine

/-! ### Shedding (R620, R652) -/

/-- Channels that hold a grant, latest created first. -/
def State.granted_ (s : State) : List Nat :=
  ((List.range 128).filter fun i => 0 < (s.chan i).grant && (s.chan i).st != .empty && !(s.chan i).waiting).mergeSort
    fun a b => decide ((s.chan b).order ≤ (s.chan a).order)

/-- Shed a channel: HALTED, POWER_SHED, a journal entry (R620, R633, R699). -/
def State.shed (s : State) (ch : Nat) : State :=
  let cost := (s.chan ch).grant
  let s := s.enterHalted ch 0
  let h := s.handleOf 2 ch
  let s := s.note .powerShed h [(1, 0), (1, s.pau.hottestAt), (2, twos 16 s.pau.hottest), (4, cost), (4, s.granted_.length)]
  s.journal 3 0xFF 0 h (Config.sha384 (le 4 h.toNat))

/-! ### Alarms (R653) -/

/-- The rule's fields (R658). -/
def Rule.b (r : Rule) (i : Nat) : Nat := bits r.raw.toNat (8 * i + 7) (8 * i)
def Rule.h (r : Rule) (i : Nat) : Nat := bits r.raw.toNat (8 * i + 15) (8 * i)
def Rule.input (r : Rule) : Nat := r.b 0
def Rule.on (r : Rule) : Bool := bit (r.b 1) 0
def Rule.cond (r : Rule) : Nat := bits (r.b 1) 2 1
def Rule.onClear (r : Rule) : Bool := bit (r.b 1) 3
def Rule.act (r : Rule) (k : Nat) : Bool := bit (r.b 2) k

/-- Some ACTIVE rule names ALARMn. -/
def Thim.alarm (t : Thim) (n : Nat) : Bool := t.rules.any fun r => r.st == .active && r.act 2 && r.b 12 == n

/-- Level of ALARMn's ball. -/
def Thim.alarmLevel (t : Thim) (n : Nat) : Bool := t.alarm n != t.alarmCfg.getLsbD n

/-- Drive the ALARM pins as the rules stand. -/
def State.refreshAlarms (s : State) : State :=
  (List.range 4).foldl (fun s n =>
    let p := 20 + n
    let v := s.thim.alarmLevel n
    if nth s.pins.func p 0 = 5#4 && s.pins.level.getLsbD p != v then
      ({ s with pins := { s.pins with level := setBit s.pins.level p v } }).emit (.pin p v)
    else s) s

/-! ### Sequencer (R638–R645) -/

/-- Gain of MON_GAIN for an input; a fixed input counts as gain 1 (R648). -/
def Thim.gainOf (t : Thim) (i : Nat) : Nat := if 128 ≤ i then 0 else bits (nth t.gain (i / 16) 0).toNat (2 * (i % 16) + 1) (2 * (i % 16))

def Thim.tableWord (t : Thim) (e j : Nat) : Nat := (nth t.table (2 * e + j) 0).toNat

def Thim.scanning (t : Thim) : Bool := t.cfg.getLsbD 30
def Thim.seqOn (t : Thim) : Bool := t.cfg.getLsbD 31

/-- Inputs of the scan mask, rising. -/
def Thim.mask (t : Thim) : List Nat := (List.range 144).filter fun i => bit (nth t.scan (i / 32) 0).toNat (i % 32)

/-- Input and gain of the conversion at the sequencer's place. -/
def Thim.place (t : Thim) : Nat × Nat :=
  if t.scanning then
    let i := ((t.mask.find? fun i => decide (t.pos ≤ i)) <|> t.mask.head?).getD 0
    (i, t.gainOf i)
  else
    let w := t.tableWord t.pos 0
    let i := bits w 31 24
    (i, if 128 ≤ i then 0 else bits w 23 22)

/-- Make the sequencer's place the next conversion, from `at` ns; SETTLING counts follow its change of input or gain (R648). -/
def Thim.setNext (t : Thim) (start : Nat) : Thim :=
  let c := t.place
  let n := if t.prevGain.any (· != c.2) then 2 else if t.prevInput.any (· != c.1) then max t.settle 1 else t.settle
  { t with cur := c, convAt := start, settle := n }

/-- The sequencer begins at entry 0 or the lowest input (R642). -/
def Thim.begin_ (t : Thim) (now : Nat) : Thim := ({ t with pos := 0, rep := 0, restart := false }).setNext now

/-- Place after a conversion that ended at `now`, and when the next starts. -/
def Thim.advance (t : Thim) (now : Nat) : Thim :=
  if t.restart then t.begin_ now
  else if t.scanning then
    match t.mask.find? fun i => decide (t.cur.1 < i) with
    | some i => ({ t with pos := i }).setNext now
    | none => ({ t with pos := 0 }).setNext (now + 1000 * bits t.cfg.toNat 15 0)
  else if t.rep < bits (t.tableWord t.pos 0) 21 14 then ({ t with rep := t.rep + 1 }).setNext now
  else
    let delay := bits (t.tableWord t.pos 1) 15 0
    ({ t with rep := 0, pos := if t.pos < bits t.cfg.toNat 20 16 then t.pos + 1 else 0 }).setNext (now + 1000 * delay)

/-- A sequenced conversion is in progress. -/
def Thim.converting (t : Thim) (now : Nat) : Bool :=
  t.seqOn && (!t.scanning || !t.mask.isEmpty) && decide (t.convAt ≤ now) && decide (now < t.convAt + 1000)

/-- An urgent request (R643, R645): it runs at once, aborting a sequenced conversion, or waits, or is dropped. -/
def Thim.urge (t : Thim) (now input : Nat) : Thim :=
  if t.urgRun.isNone then { t with urgRun := some input, repeatDue := t.converting now || t.repeatDue }
  else if t.urgent.length < 4 then { t with urgent := t.urgent ++ [input] }
  else { t with urgDrop := satN 255 (t.urgDrop + 1) }

/-! ### Rules (R650–R652) -/

/-- A 16-bit value of an input as rules compare it. -/
def ruleVal (input v : Nat) : Int := if 128 ≤ input && input ≤ 135 then sx 16 v else (v % 65536 : Nat)

/-- The test of a rule. -/
def Rule.test (r : Rule) (v : Int) : Bool :=
  let hi := ruleVal r.input (r.h 4)
  let lo := ruleVal r.input (r.h 6)
  match r.cond with
  | 0 => decide (hi ≤ v)
  | 1 => decide (v ≤ lo)
  | 2 => decide (hi < v) || decide (v < lo)
  | _ => decide (lo ≤ v) && decide (v ≤ hi)

/-- The clear test of a rule. -/
def Rule.clears (r : Rule) (v : Int) : Bool :=
  let hi := ruleVal r.input (r.h 4)
  let lo := ruleVal r.input (r.h 6)
  let y : Int := (r.h 8 : Nat)
  match r.cond with
  | 0 => decide (v < hi - y)
  | 1 => decide (lo + y < v)
  | 2 => decide (lo + y ≤ v) && decide (v ≤ hi - y)
  | _ => decide (v < lo - y) || decide (hi + y < v)

def State.setRule (s : State) (i : Nat) (f : Rule → Rule) : State := s.setThim fun t => { t with rules := replaceAt t.rules i f }

/-- Raise AON_RULE (R660). -/
def State.aonEvent (s : State) (i : Nat) (r : Rule) (cleared : Bool) (v : Nat) : State :=
  s.event 0x0700 0x0A (r.b 3) 0 [(1, i), (1, b2n cleared), (1, r.input), (1, 0), (2, v), (2, 0), (4, r.count)]

/-- The actions of a rule that becomes ACTIVE, in the order of R652. -/
def State.ruleActs (s : State) (i : Nat) (r : Rule) (v : Nat) : State :=
  let s := s.refreshAlarms
  let s := if r.act 3 then (if r.b 13 = 0 then s.granted_.foldl (fun s ch => s.shed ch) s else s.enterSafe false) else s
  let s := if r.act 6 then s.setThim fun t => t.urge s.now (r.b 14) else s
  let s := if r.act 5 then s.thimLog 0 i r.input v else s
  let s := if r.act 1 then s.aonEvent i r false v else s
  if r.act 0 then s.wakeSleep 2 else s

/-- One rule sees a VALID filtered output of its input. -/
def State.ruleSee (s : State) (i : Nat) (v : Nat) : State :=
  match s.thim.rules[i]? with
  | none => s
  | some r =>
    let x := ruleVal r.input v
    match r.st with
    | .active =>
      if r.clears x then
        let s := (s.setRule i fun r => { r with st := .clear }).refreshAlarms
        let s := if r.act 5 then s.thimLog 1 i r.input v else s
        if r.onClear then s.aonEvent i r true v else s
      else s
    | st =>
      let since := match st with | .pending t => t | _ => s.thim.rtc
      if !r.test x then s.setRule i fun r => { r with st := .clear }
      else if r.h 10 * 1000000 * unitNs ≤ s.thim.rtc - since then
        let r' := { r with st := .active, count := satN (2 ^ 32 - 1) (r.count + 1) }
        (s.setRule i fun _ => r').ruleActs i r' v
      else s.setRule i fun r => { r with st := .pending since }

/-- Every enabled rule of an input sees an output. -/
def State.rulesSee (s : State) (input v : Nat) : State :=
  (List.range s.thim.rules.length).foldl (fun s i =>
    match s.thim.rules[i]? with
    | some r => if r.on && r.input = input then s.ruleSee i v else s
    | none => s) s

/-! ### Filters and the buffer (R647–R649) -/

/-- Write a word to the result buffer. -/
def Thim.word (t : Thim) (tag : Nat) (urgent : Bool) (input v : Nat) : Thim :=
  { t with
    buf := t.buf.set (t.bufWp.toNat % 2048) (BitVec.ofNat 32 (tag * 2 ^ 30 + b2n urgent * 2 ^ 29 + input * 2 ^ 16 + v % 65536))
    bufWp := t.bufWp + 1 }

/-- Median width of a MON_FILT word; 1 when off. -/
def filtW (w : Word) : Nat := let m := bits w.toNat 31 30; if m = 0 then 1 else 2 * m + 1

/-- L of R648. -/
def filtL (w : Word) : Nat :=
  let k := bits w.toNat 27 24
  match bits w.toNat 29 28 with
  | 1 => filtW w + 4 * 2 ^ k
  | 2 => ceilDiv (filtW w - 1) (2 ^ k) + 1
  | _ => filtW w

/-- Pass a result through an input's filter: the new filter, its output if any. While the median's window is not full its output, and the
IIR's first state, are the value `free` (log entry 2). -/
def Filt.pass (f : Filt) (w : Word) (x : Int) (free : Int) : Filt × Option Int :=
  let n := filtW w
  let win := (f.med ++ [x]).drop ((f.med.length + 1) - n)
  let m := if n = 1 then x else if win.length < n then free else ((win.mergeSort fun a b => decide (a ≤ b))[n / 2]?).getD x
  let k := bits w.toNat 27 24
  let f := { f with med := win }
  match bits w.toNat 29 28 with
  | 1 =>
    let y0 := f.iir.getD free
    let y := y0 + asr (m - y0) k
    ({ f with iir := some y }, some y)
  | 2 =>
    if f.cnt + 1 = 2 ^ k then ({ f with sum := 0, cnt := 0 }, some (asr (f.sum + m) k))
    else ({ f with sum := f.sum + m, cnt := f.cnt + 1 }, none)
  | _ => (f, some m)

/-- A result that is not SETTLING enters its input's filter; an output is written, and rules see it when it is VALID. -/
def State.monResult (s : State) (input code : Nat) (urgent : Bool) : State :=
  let w := nth s.thim.filt input 0
  let (v, s) := if filtL w = 1 then (0#64, s) else s.freeTake
  let (f, out) := (nth s.thim.filters input .reset).pass w (ruleVal input code) (ruleVal input (v.toNat % 65536))
  match out with
  | none => s.setThim fun t => { t with filters := upd t.filters input fun _ => f }
  | some y =>
    let fresh := f.fill + 1 < filtL w
    let f := { f with fill := f.fill + 1, last := if fresh then f.last else some y }
    let s := s.setThim fun t => ({ t with filters := upd t.filters input fun _ => f }).word (if fresh then 2 else 0) urgent input (twos 16 y)
    if fresh then s else s.rulesSee input (twos 16 y)

/-- A sequenced conversion has ended: SETTLING words go out as they are (R648). -/
def State.monSequenced (s : State) (code : Nat) : State :=
  let t := s.thim
  let settling := 0 < t.settle
  let s := s.setThim fun t => { t with settle := t.settle - 1, prevInput := some t.cur.1, prevGain := some t.cur.2, repeatDue := false }
  let s := if settling then s.setThim fun t' => t'.word 1 false t.cur.1 code else s.monResult t.cur.1 code false
  s.setThim fun t => t.advance s.now

/-- An urgent conversion has ended: the next urgent request runs, or the aborted conversion is repeated (R643–R645). -/
def State.monUrgent (s : State) (input code : Nat) : State :=
  let s := s.setThim fun t =>
    let t := { t with urgRun := t.urgent.head?, urgent := t.urgent.drop 1 }
    if t.repeatDue then t else ({ t with prevInput := some input, prevGain := some (t.gainOf input), settle := 0 }).setNext t.convAt
  s.monResult input code true

end Sys2Proof.Machine
end

