-- ==== Sys2Proof/Machine/ThimRows.lean ====
section
/-! DEFINITION. AON_RULES, the monitor's events, the Thimble log, the lifetime counters and the Thimble registers (R635–R665, R752). -/

namespace Sys2Proof.Machine

/-! ### AON_RULES (R658–R660) -/

def aonLog (d : Desc) : Handle := BitVec.ofNat 32 (d.u 0x14 4)

/-- The rules of the buffer. -/
def aonRules (d : Desc) (buf : List Byte) : List (BitVec 128) :=
  (List.range (d.u 0x10 1)).map fun i => BitVec.ofNat 128 (num buf (16 * i) 16)

/-- A rule's fields in range; those its actions do not use are zero (R658, R659). -/
def Rule.ok (r : Rule) : Bool :=
  r.input ≤ 143 && r.b 1 < 16 && r.b 2 < 128 && r.b 3 ≤ 4 && r.b 12 ≤ 3 && r.b 13 ≤ 1 && r.b 14 ≤ 143 && r.b 15 == 0 &&
  !(2 ≤ r.cond && decide (ruleVal r.input (r.h 4) < ruleVal r.input (r.h 6))) &&
  (r.act 2 || r.b 12 == 0) && (r.act 3 || r.b 13 == 0) && (r.act 6 || r.b 14 == 0) && (r.act 1 || r.onClear || r.b 3 == 0)

def aonBodyOk (d : Desc) : Bool :=
  let n := d.u 0x10 1
  d.clean [(0x08, 10), (0x14, 4)] && n ≤ 64 && d.u 0x11 1 < 2 && addrOk (d.u 0x08 8) (16 * n) 8

/-- The rules have come. -/
def aonRulesData (d : Desc) (buf : List Byte) (s : State) : Verdict :=
  let rules := (aonRules d buf).map fun raw => (⟨raw, .clear, 0⟩ : Rule)
  let keep := dBit d 0x11 0
  if aonLog d ≠ 0 && !s.valid 3 (aonLog d) then fail .badHandle d s
  else if !rules.all Rule.ok then fail .badParam d s
  else if rules.any fun r => r.act 2 && nth s.pins.func (20 + r.b 12) 0 != 5#4 then fail .pinNotAssigned d s
  else if aonLog d ≠ 0 && s.writerBusy (hIdx (aonLog d)) .thimble then fail .resourceBusy d s
  else
    let new := rules.mapIdx fun i r => match s.thim.rules[i]? with
      | some o => if keep && o.raw == r.raw then o else r
      | none => r
    let s := s.setThim fun t => { t with
      rules := new, logRegion := if aonLog d = 0 then none else some (hIdx (aonLog d)), claims := t.claims.filter fun k => k.1 != d.ring.val }
    let s := s.syncLog.refreshAlarms
    .done .ok new.length (new.filter fun r => r.st == .active).length d.handle s

def aonRulesBody (d : Desc) (s : State) : Verdict :=
  if aonLog d ≠ 0 && !s.valid 3 (aonLog d) then fail .badHandle d s
  else if !aonBodyOk d then fail .badParam d s
  else if d.u 0x10 1 = 0 then aonRulesData d [] s
  else if aonLog d ≠ 0 && s.writerBusy (hIdx (aonLog d)) .thimble then fail .resourceBusy d s
  else readBuffer d (d.u 0x08 8) (16 * d.u 0x10 1) (if aonLog d = 0 then s else
    (s.setThim fun t => { t with claims := t.claims ++ [(d.ring.val, hIdx (aonLog d))] }).syncLog)

/-! ### The monitor -/

/-- MON_CONVERSION_DONE (R638–R651): the conversion that runs ends with a code. -/
def execMonConversionDone (code : BitVec 16) (s : State) : Host.Outcome State Fault Refusal :=
  .next (match s.thim.urgRun with
    | some i => s.monUrgent i code.toNat
    | none =>
      if s.thim.seqOn && (!s.thim.scanning || !s.thim.mask.isEmpty) then (s.until (s.thim.convAt + 1000)).monSequenced code.toNat
      else s)

/-- MON_COMPARATOR_TRIP (R643, R646). -/
def execMonComparatorTrip (k : Fin 8) (s : State) : Host.Outcome State Fault Refusal :=
  let w := nth s.thim.cmp k.val 0
  .next (if w.getLsbD 31 && !nth s.thim.tripped k.val false then
      s.setThim fun t => ({ t with tripped := upd t.tripped k.val fun _ => true }).urge s.now (bits w.toNat 23 16)
    else s)

/-- MON_COMPARATOR_REARM (R646). -/
def execMonComparatorRearm (k : Fin 8) (s : State) : Host.Outcome State Fault Refusal :=
  .next (s.setThim fun t => { t with tripped := upd t.tripped k.val fun _ => false })

/-- RC_OSCILLATOR_CALIBRATION (R641): the sequencer's clock is within 0.1 % again; nothing that software sees changes. -/
def execRcOscillatorCalibration (s : State) : Host.Outcome State Fault Refusal := .next s

/-! ### The log (R656, R657) -/

/-- Entries not yet delivered, oldest first. -/
def Thim.pending (t : Thim) : List ThimEntry := t.log.drop (t.log.length - t.logPending)

/-- Units of the RTC from the time format of R74. -/
def rtcOf74 (v : BitVec 64) : Nat := v.toNat / 2 ^ 24 * unitS + v.toNat % 2 ^ 24 * unitS / 2 ^ 24

/-- THIMBLE_LOG_FLUSH (R657): 32 entries are pending, or 1 s has passed since the oldest; a record takes them all. -/
def execThimbleLogFlush (s : State) : Host.Outcome State Fault Refusal :=
  .next (
    match s.thim.logRegion, s.thim.pending with
    | some i, e :: es =>
      if !s.serving then s
      else
        let ents := e :: es
        let due := rtcOf74 e.time + unitS
        let s := if 32 ≤ ents.length then s else s.untilRtc due
        let hdr := { Hdr.plain 0 0x0C 1 (timeOf e.time) with journal := s.sec.jNext - 1 }
        match s.appendRecord i hdr (padTo 8 (pack [(4, ents.length), (4, 0)] ++ ents.flatMap ThimEntry.bytes)) with
        | some s => s.setThim fun t => { t with logPending := 0, lostBefore := 0 }
        | none => s
    | _, _ => s)
where
  /-- 2^-32 s from the time format of R74. -/
  timeOf (v : BitVec 64) : Nat := v.toNat / 2 ^ 24 * 2 ^ 32 + v.toNat % 2 ^ 24 * 2 ^ 8

/-! ### Lifetime counters (R665) -/

/-- Thermal-cycle detector: a new reading of the hottest sensor. -/
def Thim.cycle (t : Thim) (v : Int) : Thim :=
  match t.cycMax with
  | none => if v ≤ t.cycMin then { t with cycMin := v } else if t.cycMin + 10 ≤ v then { t with cycMax := some v } else t
  | some m =>
    if m < v then { t with cycMax := some v }
    else if v ≤ m - 10 then
      let dt := (m - min t.cycMin v).toNat
      { t with cycles := upd t.cycles (min 5 ((dt - 10) / 10)) (· + 1), cycMin := v, cycMax := none }
    else t

/-- LIFETIME_COUNTER_UPDATE: an hour has passed. -/
def execLifetimeCounterUpdate (s : State) : Host.Outcome State Fault Refusal :=
  let hot := s.pau.hottest
  .next (s.setThim fun t =>
    let t := { t with aonHours := t.aonHours + 1, age := Config.ringRatio (t.aonHours + 1) }
    if s.pwr.st = .active then
      { t with actHours := t.actHours + 1, degh := t.degh + hot, above85 := if 85 < hot then satN 65535 (t.above85 + 1) else t.above85
               above105 := if 105 < hot then satN 65535 (t.above105 + 1) else t.above105 }
    else { t with above85 := if 85 < hot then satN 65535 (t.above85 + 1) else t.above85
                  above105 := if 105 < hot then satN 65535 (t.above105 + 1) else t.above105 })

/-! ### VDD_AON (R635, R721, R752) -/

/-- VDD_AON_LOW: Thimble resets itself; the die waits for the crystal. -/
def execVddAonLow (s : State) : Host.Outcome State Fault Refusal :=
  let s := { s with boot := { s.boot with failed := 0, attempts := 0, tryOther := false, safe := false, safeByHeat := false, xtal32 := false } }
  let s := ({ s with thim := .reset }).resetDie false
  .next { s with pins := { s.pins with func := Vector.replicate 32 0, level := 0, pwrEn := true } }

/-! ### Registers -/

/-- A write to a sequencer register takes effect at the end of the conversion in progress, at once when none runs (R642). -/
def Thim.reseq (t : Thim) (now : Nat) : Thim := if t.converting now || t.urgRun.isSome || t.repeatDue then { t with restart := true } else t.begin_ now

def State.monCfg (s : State) (v : Word) : State :=
  let w := v &&& 0xE01FFFFF#32
  s.setThim fun t =>
    let was := t.cfg
    let t' := { t with cfg := w }
    if !w.getLsbD 31 then { t' with repeatDue := false, restart := false }
    else if !was.getLsbD 31 then t'.begin_ s.now
    else if was.getLsbD 30 != w.getLsbD 30 then
      if t.converting s.now || t.urgRun.isSome || t.repeatDue then { t' with restart := true } else t'.begin_ s.now
    else t'

def State.monTable (s : State) (e j : Nat) (v : Word) : State :=
  if j = 0 && 143 < bits v.toNat 31 24 then s.badValue (0x0B0100 + 8 * e + 4 * j)
  else s.setThim fun t => ({ t with table := upd t.table (2 * e + j) fun _ => if j = 0 then v &&& 0xFFFFC000#32 else v &&& 0xFFFF#32 }).reseq s.now

def State.monScan (s : State) (w : Nat) (v : Word) : State :=
  s.setThim fun t => ({ t with scan := upd t.scan w fun _ => if w = 4 then v &&& 0xFFFF#32 else v }).reseq s.now

def State.monGain (s : State) (w : Nat) (v : Word) : State := s.setThim fun t => ({ t with gain := upd t.gain w fun _ => v }).reseq s.now

/-- SHIFT is 1–12 for the IIR and 1–8 for the boxcar (R647). -/
def State.monFilt (s : State) (i : Nat) (v : Word) : State :=
  let st := bits v.toNat 29 28
  let k := bits v.toNat 27 24
  if st = 3 || (st = 1 && !inR k 1 12) || (st = 2 && !inR k 1 8) then s.badValue (0x0B0400 + 4 * i)
  else s.setThim fun t =>
    if nth t.filt i 0 = v &&& 0xFF000000#32 then t
    else { t with filt := upd t.filt i fun _ => v &&& 0xFF000000#32, filters := upd t.filters i fun _ => .reset }

def State.monCmp (s : State) (k : Nat) (v : Word) : State :=
  if 143 < bits v.toNat 23 16 then s.badValue (0x0B00E0 + 4 * k)
  else s.setThim fun t =>
    { t with cmp := upd t.cmp k fun _ => v &&& 0xC0FF00FF#32, tripped := upd t.tripped k fun b => b && v.getLsbD 31 }

def State.alarmCfg (s : State) (v : Word) : State := (s.setThim fun t => { t with alarmCfg := v &&& 0xF#32 }).refreshAlarms

def State.rtcTrim (s : State) (v : Word) : State := s.setThim fun t => { t with rtcTrim := v }

def State.wdtCfg (s : State) (v : Word) : State :=
  if inR (bits v.toNat 15 0) 10 10000 then s.setThim fun t => { t with wdtCfg := v &&& 0xFFFF#32 } else s.badValue 0x0B001C

end Sys2Proof.Machine
end

