-- ==== Sys2Proof/Machine/Commands.lean ====
section
/-! DEFINITION. The command table: the body of every opcode, what its host data does; the commit of mirrored commands; firmware's turn
(R65, R69, R70, R72, R672–R674). -/

namespace Sys2Proof.Machine

/-! ### The table (R103) -/

/-- The body of a command. -/
def bodyOf (op : Op) : Desc → State → Verdict :=
  match op with
  | .nop => nopBody | .devInfo => devInfoBody | .powerBudget => powerBudgetBody | .powerQuery => powerQueryBody
  | .syncSchedule => syncScheduleBody | .timeSet => timeSetBody | .streamOpen => streamOpenBody | .streamClose => streamCloseBody
  | .streamStatus => streamStatusBody | .regionAlloc => regionAllocBody | .regionFree => regionFreeBody | .memRetire => memRetireBody
  | .chanCreate => chanCreateBody | .chanDestroy => chanDestroyBody | .chanTune => chanTuneBody | .chanFilter => chanFilterBody
  | .chanSpectral => chanSpectralBody | .chanProducts => chanProductsBody | .chanStart => chanStartBody | .chanStop => chanStopBody
  | .chanResume => chanResumeBody | .trigSet => trigSetBody | .trigCombine => trigCombineBody | .trigMaskLoad => trigMaskLoadBody
  | .acqSet => acqSetBody | .acqArm => acqArmBody | .acqDisarm => acqDisarmBody | .acqForce => acqForceBody
  | .sweepSet => sweepSetBody | .sweepRun => sweepRunBody | .densSet => densSetBody | .densSnapshot => densSnapshotBody
  | .calSet => calSetBody | .calTableLoad => calTableLoadBody | .calFreeze => calFreezeBody | .sinkBind => sinkBindBody
  | .sinkUnbind => sinkUnbindBody | .storeQueueAttach => storeQueueAttachBody | .dmaRestart => dmaRestartBody | .mpLoad => mpLoadBody
  | .mpStart => mpStartBody | .mpStop => mpStopBody | .logRead => logReadBody | .logClear => logClearBody | .sealOpen => sealOpenBody
  | .sealCheckpoint => sealCheckpointBody | .sealClose => sealCloseBody | .pairJoin => pairJoinBody | .pairRole => pairRoleBody
  | .pairStatus => pairStatusBody | .aonRules => aonRulesBody | .sleep => sleepBody | .bad _ => badOpcodeBody

/-- What a command does with the host data it has read. -/
def dataOf (op : Op) : Desc → List Byte → State → Verdict :=
  match op with
  | .trigMaskLoad => trigMaskData | .calTableLoad => calTableData | .sweepRun => sweepMaskData | .chanSpectral => chanSpectralData
  | .chanFilter => chanFilterData | .mpLoad => mpLoadData | .sinkBind => sinkBindData | .aonRules => aonRulesData | .sealOpen => sealOpenData
  | _ => fun d _ s => fail .internal d s

/-- What a command does with its host data, if its handle is still good (R93, R95). -/
def dataWith (op : Op) (d : Desc) (data : List Byte) (s : State) : Verdict :=
  if s.handleOk op d.handle then dataOf op d data s else fail .badHandle d s

/-- Run a command with the host data that has been read for it: its body, and where that asks for data, the data. -/
def runWith (op : Op) (d : Desc) (data : List Byte) (s : State) : Verdict :=
  if !s.handleOk op d.handle then fail .badHandle d s
  else match bodyOf op d s with
  | .wait .hostRead _ _ => dataOf op d data s
  | v => v

/-! ### The primary (R64, R72, R672, R673) -/

/-- A mirrored command of the primary takes effect: with the index that it claimed, and the host data that it has read. -/
def State.rerun (s : State) (f : Inflight) : Verdict :=
  let s := s.setPair fun p => { p with want := some (hIdx f.handle) }
  if f.asks = (0, 0) then runWith f.op f.d f.buffer s else dataWith f.op f.d f.buffer s

/-- Commands that wait for the secondary's status, in the order of acceptance. -/
def State.mirroring (s : State) : List Inflight :=
  ((s.io.cmd.toList.filterMap (·.inflight)).filter fun f => f.stage == .mirror).mergeSort fun a b => decide (a.order ≤ b.order)

/-- What a primary checks a command against: the state that the commands accepted before it leave if the secondary agrees to them. So their
claims hold from acceptance (R42, R64, R672). -/
def State.view (s : State) : State :=
  s.mirroring.foldl (fun s f => match s.rerun f with
    | .done .ok _ _ _ s' | .wait _ _ s' | .need _ _ _ _ s' _ => s'.setPair fun p => { p with want := none }
    | _ => s) s

/-- A primary checks a command that it mirrors, and sends it; one that needs host data reads that first. -/
def State.mirrorRun (s0 : State) (r : Nat) (op : Op) (d : Desc) : State :=
  let w := s0.view
  match precheck op d w with
  | some st => s0.complete r st 0 0 d.handle
  | none =>
    match bodyOf op d w with
    | .wait .hostRead h _ =>
      (settle r s0 (bodyOf op d (s0.setPair fun p => { p with want := some (hIdx h) }))).setPair fun p => { p with want := none }
    | v => mirrorOr r op d [] s0 v

/-- The secondary's status of OK has come, or the peer is lost: the command takes effect. -/
def State.commit (s : State) (r : Nat) : State :=
  match s.waitsAt r .mirror with
  | none => s
  | some f =>
    let s := s.setPair fun p => { p with longest := max p.longest (s.now - f.since) }
    (settle r s (s.rerun f)).setPair fun p => { p with want := none }

/-- Accept a descriptor and carry it out. -/
def acceptRun (op : Op) (d : Desc) (s : State) : State :=
  let r := d.ring.val
  let s0 := s.accept r op d
  if s0.mirrors op d then s0.mirrorRun r op d
  else match precheck op d s0 with
  | some st => s0.complete r st 0 0 d.handle
  | none => settle r s0 (bodyOf op d s0)

/-- A command of a ring as the device takes it. Firmware accepts it when it is the ring's turn and nothing of the ring waits, else it waits
in order. A ring that is not enabled takes nothing (log entry 14). -/
def runCommand (op : Op) (d : Desc) (s : State) : State :=
  let r := d.ring.val
  if !(s.cmdRing r).en || !s.serving then s
  else
    let s := s.fetched r
    if (s.cmdRing r).backlog.isEmpty && s.turnOf r && s.canAccept r op d then acceptRun op d s else s.park op d

/-! ### The secondary (R672, R674) -/

/-- The secondary answers a mirrored command. -/
def State.answer (s : State) (d : Desc) (st : Status) : State := s.emit (.seam (.status d.ring (BitVec.ofNat 8 st.code)))

/-- Claim with the handle of the primary: its index and generation. -/
def State.adopt (s : State) (op : Op) (d : Desc) (h : Handle) : State :=
  let allocates := match op.handleRule with | .alloc => true | .allocOr _ => d.handle == 0 | .kind _ => op == .chanCreate | .zero => false
  let i := hIdx h
  let g := h.toNat / 256 % 65536
  if !allocates || h = 0 || (s.objGen (h.toNat / 2 ^ 24) i).isSome then s
  else
    let s := s.setPair fun p => { p with want := some i }
    match h.toNat / 2 ^ 24 with
    | 1 => s.setStream i fun x => { x with gen := g }
    | 2 => s.setChan i fun x => { x with gen := g }
    | 3 => { s with regions := upd s.regions i fun x => { x with gen := g } }
    | 4 => s.setSink i fun x => { x with gen := g }
    | 5 => { s with groups := upd s.groups i fun x => { x with gen := g } }
    | 6 => s.setSweep i fun x => { x with gen := g }
    | 7 => s.setMp i fun x => { x with gen := g }
    | _ => s.setSession i fun x => { x with gen := g }

/-- A stream that the primary opens stays closed here, its lanes in LP2 (R206, R669). -/
def State.warmHold (s : State) (h : Handle) (d : Desc) : State :=
  let i := hIdx h
  let x := s.stream i
  ((s.parkLanes x.lanes x.par.rate).setStream i fun x =>
    { x with st := .closed, par := parOf d, lanes := (parOf d).map, reopening := false, grant := 0 }).setMirror fun m =>
    { m with opened := (m.opened.filter fun x => x.1 != i) ++ [(i, d)] }

/-- On a warm secondary streams stay closed and channels stay STOPPED: a start only notes the channel, an open holds the stream (R669, R684). -/
def State.warmRun (s : State) (op : Op) (d : Desc) (data : List Byte) : Verdict :=
  let i := hIdx d.handle
  let stop := fun (s : State) => s.setMirror fun m => { m with running := m.running.filter fun x => x.1 != i }
  let close := fun (s : State) => s.setMirror fun m => { m with opened := m.opened.filter fun x => x.1 != i }
  match op with
  | .chanStart | .chanResume => .done .ok 0 0 d.handle ((stop s).setMirror fun m => { m with running := m.running ++ [(i, d)] })
  | .chanStop => .done .ok 0 0 d.handle (stop s)
  | .streamOpen =>
    match streamOpenBody d s with
    | .need _ _ _ h s' _ => .done .ok 0 0 h (s'.warmHold h d)
    | .done .ok _ _ h _ => .done .ok 0 0 h (s.warmHold h d)
    | v => v
  | .streamClose =>
    match streamCloseBody d s with
    | .done .ok a b h s' => .done .ok a b h (close (if dBit d 0x08 0 then s else s'))
    | v => v
  | _ => runWith op d data s

/-- The STREAM_OPEN that opens a stream with these parameters (R191). -/
def StreamPar.desc (p : StreamPar) : Desc :=
  let map := (List.range 16).map fun j => (1, (p.map[j]?).getD 255)
  { ring := 0, flags := 0, tag := 0, handle := 0, rsvd := 0, last := 0
    params := BitVec.ofNat 384 (leNat (pack ([(8, p.fs)] ++ map ++
      [(1, p.l), (1, p.m), (1, p.n), (1, p.n'), (1, p.cs), (1, p.csMap), (1, Nat.log2 p.s), (1, Nat.log2 p.f), (1, p.e), (1, b2n p.fec),
       (1, p.group.val), (1, b2n p.discover), (2, p.rbd), (2, 0), (4, twos 32 p.alignPs), (4, 0)]))) }

/-- The CHAN_START that starts a channel at once. -/
def startNow (h : Handle) (supFill : Bool) : Desc :=
  { ring := 0, flags := 0, tag := 0, handle := h, rsvd := 0, last := 0, params := BitVec.ofNat 384 (b2n supFill * 2 ^ 65) }

/-- A primary becomes a secondary: warm, its channels stop and its streams close, to be started again by a takeover (R669, R684); hot, its
CAL_OUT pins go low (R677). -/
def State.stepDown (s : State) : State :=
  if s.pair.warm then
    let s := (List.range 128).foldl (fun s ch =>
      let c := s.chan ch
      let runs := c.st == .running || c.st == .starved
      let s := if runs then s.setMirror fun m => { m with running := m.running ++ [(ch, startNow (s.handleOf 2 ch) c.supFill)] } else s
      if runs || c.st == .draining then s.enterStopped ch 0 else s) s
    (List.range 32).foldl (fun s i =>
      let x := s.stream i
      if x.st.runs then s.warmHold (s.handleOf 1 i) x.par.desc
      else if x.st = .held then (s.parkLanes x.lanes x.par.rate).setStream i fun x => { x with st := .closed, grant := 0 }
      else s) s
  else
    (List.range 4).foldl (fun s d =>
      if nth s.pins.calOut d false then ({ s with pins := { s.pins with calOut := upd s.pins.calOut d fun _ => false } }).emit (.pin (16 + d) false)
      else s) s

/-- A switchover is over once every watermark is met: the roles exchange (R685). -/
def State.switchTurn (s : State) : State :=
  match s.switchRing with
  | some r => if s.quiet then (((s.emit (.seam .switchover)).finish r .ok 0 0).setRole .secondary).stepDown else s
  | none => s

/-- Carry out a mirrored command whose ring slot is free. -/
def State.shadowRun (s : State) (op : Op) (d : Desc) (data : List Byte) (h : Handle) : State :=
  let r := d.ring.val
  if !s.handleOk op d.handle then s.answer d .badHandle
  else
    let s0 := s
    let s := (s.adopt op d h).setInflight r fun _ =>
      some (shadowed op d h .point data s)
    let clear := fun (s : State) => s.setPair fun p => { p with want := none }
    match if s.pair.warm then s.warmRun op d data else runWith op d data s with
    | .done .ok a b h' s' => (clear (s'.answer d .ok)).complete r .ok a b h'
    | .done st _ _ _ _ => s0.answer d st
    | .wait stage h' s' => (clear (s'.answer d .ok)).setInflight r (Option.map fun f => { f with stage := stage, handle := h' })
    | .need n cls cost h' s' k =>
      let s' := clear (s'.answer d .ok).toActive
      match s'.powerAnswer cls cost true with
      | .granted => settle r s' (k (s'.charge n cost s'.now))
      | .spaced due => ((s'.charge n cost due).enqueue cls ⟨n, cost, some d.ring, h', due, true, none⟩).setInflight r
          (Option.map fun f => { f with stage := .power, handle := h' })
      | _ =>
        let s' := (s'.enqueue cls ⟨n, cost, none, h', s'.now, false, some s'.now⟩).setInflight r fun _ => none
        (s'.setMirror fun m => { m with waiting := m.waiting ++ [(op, d, h')] }).setPair fun p => { p with unshadowed := p.unshadowed ++ [h'] }

/-- The first mirrored command whose ring slot is free runs. -/
def State.shadowTurn (s : State) : State :=
  if s.pair.role ≠ .secondary then s
  else match s.pair.mirror.late.findIdx? fun x => (s.cmdRing x.2.1.ring.val).inflight.isNone with
  | none => s
  | some i =>
    match s.pair.mirror.late[i]? with
    | none => s
    | some (op, d, data, h) => (s.setMirror fun m => { m with late := m.late.eraseIdx i }).shadowRun op d data h

/-! ### Firmware's turn (R69, R70, R72) -/

/-- One turn of firmware: it takes one descriptor from the next ring that has one; a FENCE that must wait holds every ring from then on. -/
def State.firmware (s : State) : State :=
  match s.nextCmd with
  | none => s
  | some (r, op, d) =>
    if s.canAccept r op d then
      let s := { s with io := { s.io with cmd := upd s.io.cmd r fun c => { c with backlog := c.backlog.drop 1 } } }
      acceptRun op d s
    else { s with io := { s.io with fence := some ⟨d.ring, s.io.accepted⟩ } }

/-- Commands that waited for a secondary take effect on this device alone once it is SOLO (R673). -/
def State.commitAll (s : State) : State :=
  if s.pair.role ≠ .solo then s
  else (s.ringsWaiting fun f => f.stage == .mirror).foldl (fun s r => s.commit r) s

/-- Everything firmware does in a turn: a command, a mirrored command, a switchover that is due, the watchdog restart (R663). -/
def State.turnAll (s : State) : State :=
  if !s.serving then s
  else
    let s := s.commitAll.firmware.shadowTurn.switchTurn
    s.setThim fun t => { t with wdtStage := 0 }

end Sys2Proof.Machine
end

