-- ==== Sys2Proof/Machine/PowerRows.lean ====
section
/-! DEFINITION. Events of power, heat and sleep; data read from the host and links that return; faults of the management cores; the
persistent store (R65, R546, R551, R560, R605–R628, R663, R799). -/

namespace Sys2Proof.Machine

/-! ### Grants (R608–R610) -/

/-- POWER_GRANT: the queues are examined. -/
def execPowerGrant (s : State) : Host.Outcome State Fault Refusal := .next s.examineAll

/-- POWER_QUEUE_TIMEOUT: the i-th request that waits in a class has waited the queue limit. A patrol burst and what a secondary or a takeover
queues has no limit (R555, R674). -/
def execPowerQueueTimeout (cls : Fin 3) (i : Nat) (s : State) : Host.Outcome State Fault Refusal :=
  .next (match (s.pau.waiting cls.val)[i]? with
    | none => s
    | some q =>
      if q.ring.isNone || s.pair.role = .secondary then s
      else (s.until (q.since + s.pau.queueMs * 1000000)).refuse cls.val q .timeout)

/-- The spaced request whose grant is due first. -/
def Pau.nextSpaced (p : Pau) : Option (Nat × PowerReq) :=
  let all := [0, 1, 2].flatMap fun c => ((p.queue c).filter fun q => q.spaced).map fun q => (c, q)
  all.foldl (fun m x => match m with | some y => if x.2.since < y.2.since then some x else m | none => some x) none

/-- GRANT_SPACING_EXPIRY: 20 µs after the previous large grant, the next one is issued (R610). -/
def execGrantSpacingExpiry (s : State) : Host.Outcome State Fault Refusal :=
  .next (match s.pau.nextSpaced with
    | none => s
    | some (c, q) =>
      let s := s.until q.since
      ({ s with pau := s.pau.setQueue c ((s.pau.queue c).erase q) }).issueGrant c q)

/-! ### Heat (R601, R617–R621) -/

/-- Raise THERMAL (R633). -/
def State.thermal (s : State) (cause : Nat) : State :=
  s.note .thermal 0 [(1, cause), (1, s.pau.hottestAt), (2, twos 16 s.pau.hottest), (4, s.effective), (4, 0)]

/-- Every continuous unit with ARR steps up one level, up to its ARR_MAX (R456, R619). -/
def State.criticalStep (s : State) : State :=
  (List.range 128).foldl (fun s u =>
    let a := s.acq u
    let level := a.newLevel.getD a.level
    if a.arr && level < a.par.arrMax && s.pair.role != Role.secondary then s.arrStep u (level + 1) else s) s

/-- The limit and critical states follow a new reading; the critical state begins with an ARR step. -/
def State.thermalStates (s : State) : State :=
  let hot := s.pau.hottest
  let w := s.pau.therm.toNat
  let limit := bits w 31 24
  let crit := bits w 23 16
  let hyst := bits w 15 8
  let set := fun (s : State) (f : Pau → Pau) => { s with pau := f s.pau }
  let s := match s.pau.limitFix with
    | none => if (limit : Int) ≤ hot then (set s fun p => { p with limitFix := some (s.static + s.granted) }).thermal 0 else s
    | some _ => s
  let s := match s.pau.critSince with
    | none => if (crit : Int) ≤ hot then ((set s fun p => { p with critSince := some s.now, shedAt := some (s.now + 100000000) }).thermal 2).criticalStep else s
    | some _ => if hot < (crit : Int) - hyst then (set s fun p => { p with critSince := none, shedAt := none }).thermal 3 else s
  match s.pau.limitFix with
  | some _ => if hot < (limit : Int) - hyst then (set s fun p => { p with limitFix := none }).thermal 1 else s
  | none => s

/-- Setpoint that AVS aims at, mV (R615). -/
def State.avsGoal (s : State) : Nat := max 720 (min 800 (Config.avsTarget s.pau.hottest))

/-- AVS has a change under way: control is on, no fault holds it, the setpoint is not at its goal. -/
def State.avsMoves (s : State) : Bool := s.pau.avsCfg.getLsbD 31 && !s.pau.avsFault && s.pau.setpoint != s.avsGoal

/-- THERMAL_SENSOR_READ: the eight die sensors, °C. -/
def execThermalSensorRead (temps : Vector Int 8) (s : State) : Host.Outcome State Fault Refusal :=
  let s := { s with pau := { s.pau with temps := temps } }
  let s := s.setThim fun t => t.cycle s.pau.hottest
  .next (if s.boot.die = .held then s
    else if 115 ≤ s.pau.hottest then s.enterSafe true
    else if !s.serving then s
    else
      let s := s.thermalStates
      ({ s with pau := { s.pau with avsMoving := s.avsMoves } }).denyUnfit)

/-- CRITICAL_ARR_STEP: 10 ms on, the critical state steps again (R619). -/
def execCriticalArrStep (s : State) : Host.Outcome State Fault Refusal :=
  .next (if s.pau.critSince.isNone then s else s.criticalStep)

/-- SHED_TIMER: 100 ms into the critical state, and every 10 ms, one channel is shed (R620). -/
def execShedTimer (s : State) : Host.Outcome State Fault Refusal :=
  .next (match s.pau.critSince, s.pau.shedAt with
    | some _, some t =>
      let s := s.until t
      let s := { s with pau := { s.pau with shedAt := some (t + 10000000) } }
      match s.granted_ with
      | ch :: _ => s.shed ch
      | [] => s
    | _, _ => s)

/-! ### AVS (R613–R616) -/

/-- AVS_STEP: a PMBus transaction of a setpoint change has ended. -/
def execAvsStep (ok : Bool) (s : State) : Host.Outcome State Fault Refusal :=
  let set := fun (s : State) (f : Pau → Pau) => { s with pau := f s.pau }
  .next (if !s.avsMoves || !s.serving then set s fun p => { p with avsMoving := false }
    else if ok then
      let goal := s.avsGoal
      let v := if s.pau.setpoint < goal then min goal (s.pau.setpoint + 5) else max goal (s.pau.setpoint - 5)
      (set s fun p => { p with setpoint := v, avsFails := 0, avsMoving := v != goal }).emit (.pmbus (s.pau.avsCfg.toNat % 128) v)
    else if s.pau.avsFails + 1 < 3 then set s fun p => { p with avsFails := p.avsFails + 1, avsMoving := true }
    else (set s fun p => { p with avsFails := 0, avsFault := true, avsMoving := false }).thermal 4)

/-- A write of 1 to AVS_STAT.FAULT clears it and restarts the control. -/
def State.avsStat (s : State) (v : Word) : State :=
  if v.getLsbD 31 && s.pau.avsFault then
    let s := { s with pau := { s.pau with avsFault := false, avsFails := 0 } }
    { s with pau := { s.pau with avsMoving := s.avsMoves } }
  else s

def execAvsFaultClear (value : Word) (s : State) : Host.Outcome State Fault Refusal :=
  .next (if s.serving then s.avsStat value else s)

/-! ### Links that return (R65, R596, R799) -/

/-- A write or an event that waited for a link. -/
def Io.release (io : Io) : Waiting → Io
  | .write e => io.emit e
  | .event n r => io.evtPost n.val r

/-- What waited for a port: data writes with the events that follow them, then commands that read or write host memory, then event records, then
interrupts (R88). -/
def State.resumePort (s : State) (p : Nat) : State :=
  let w := (s.hostPort p).waiting
  let held := (s.hostPort p).heldMsi
  let s := { s with io := { s.io with ports := upd s.io.ports p fun x => { x with waiting := [], heldMsi := 0 } } }
  let s := { s with io := w.foldl Io.release s.io }
  let s := (List.range 16).foldl (fun s r =>
    let s := match (s.cmdRing r).inflight with
      | some f =>
        if f.port.val = p && f.stage == Stage.linkDown then settle r s (bodyOf f.op f.d s)
        else if f.port.val = p && f.stage == Stage.hostRead then s.askBuffer r
        else s
      | none => s
    if (s.cmdRing r).port.val = p then s.fetchCmd r else s) s
  let s := (List.range 128).foldl (fun s k => if (s.dring k).port.val = p then s.fetchData k else s) s
  let s := (List.range 16).foldl (fun s n =>
    if (nth s.io.evt n .reset).port.val = p then { s with io := Io.evtDrain 64 s.io n } else s) s
  { s with io := (List.range 64).foldl (fun io v => if held.getLsbD v then io.message (Fin.ofNat 2 p) v else io) s.io }

/-- PCIE_LINK_UP at a speed (Gen 1–5) and a width. The die must run, and PERST_N of the port be deasserted. -/
def execPcieLinkUp (port : Fin 2) (speed : Fin 8) (width : Fin 64) (s : State) : Host.Outcome State Fault Refusal :=
  let p := port.val
  .next (if !s.hasPort p || s.boot.die = .held || s.pwr.st = .retain || s.pwr.st = .dormant || (s.hostPort p).perst then s
    else
      let s := { s with io := { s.io with ports := upd s.io.ports p fun x =>
        { x with linkUp := true, l1 := false, l2 := false, speed := max 1 (min 5 speed.val), width := max 1 (min 16 width.val) } } }
      let s := if s.pins.wakeN then ({ s with pins := { s.pins with wakeN := false } }).emit (.wake false) else s
      if s.serving then s.resumePort p else s)

/-- Take a data descriptor fetch or a command descriptor fetch that has come back. -/
def slots512 (l : List Byte) : List (BitVec 512) := (List.range (l.length / 64)).map fun i => BitVec.ofNat 512 (num l (64 * i) 64)
def slots256 (l : List Byte) : List (BitVec 256) := (List.range (l.length / 32)).map fun i => BitVec.ofNat 256 (num l (32 * i) 32)

/-- HOST_READ_COMPLETION: data, or an error completion, for a read the device has made. -/
def execHostReadCompletion (target : HostTarget) (r : ReadResult) (s : State) : Host.Outcome State Fault Refusal :=
  .next (match target with
    | .buffer ring =>
      match s.waitsAt ring.val .hostRead with
      | none => s
      | some f =>
        match r with
        | .ok data =>
          let s := s.setInflight ring.val (Option.map fun f => { f with buffer := data })
          mirrorOr ring.val f.op f.d data s (dataWith f.op f.d data s)
        | _ => ((s.cplError (s.flightPort ring.val).val).unclaim ring.val f.handle).complete ring.val .memFault 0 0 f.d.handle
    | .cmdFetch ring =>
      if !(s.cmdRing ring.val).en then s
      else match r with
      | .ok data => s.takeCmds ring.val (slots512 data)
      | _ => (s.cplError (s.cmdRing ring.val).port.val).lostCmds ring.val
    | .dataFetch ring =>
      if !(s.dring ring.val).en then s
      else match r with
      | .ok data => s.takeData ring.val (slots256 data)
      | _ =>
        let s := (s.cplError (s.dring ring.val).port.val).setDring ring.val fun r => { r with reads := r.reads.drop 1, asked := r.fetched }
        (List.range 128).foldl (fun s k =>
          let x := s.sink k
          if x.bound && !x.storage && x.par.ring = ring.val && !x.halted then
            s.haltSink k 2 2 (match x.cur with | some c => c.seq | none => x.next) none
          else s) s)

/-! ### Sleep and wake (R622–R628) -/

/-- PCIE_L2_ENTRY: a port's link enters L2 on the way into RETAIN. -/
def execPcieL2Entry (port : Fin 2) (s : State) : Host.Outcome State Fault Refusal :=
  .next (if s.pwr.entering = some .retain && (s.hostPort port.val).linkUp then
      { s with io := { s.io with ports := upd s.io.ports port.val fun x => { x with linkUp := false, l1 := false, l2 := true } } }
    else s)

/-- Some trained port has not entered L2. -/
def State.l2Missing (s : State) : Bool := s.io.ports.toList.any fun p => p.linkUp

/-- L2_TIMEOUT: 1 s after a SLEEP to RETAIN a port is not in L2; the device stays IDLE (R625). -/
def execL2Timeout (s : State) : Host.Outcome State Fault Refusal :=
  .next (if s.pwr.entering = some .retain && s.l2Missing then
      let s := s.until (s.pwr.enteredAt + 1000000000)
      let s := if s.pwr.st = .active then s.toIdle else s
      { s with pwr := { s.pwr with entering := none, l2Timeout := true } }
    else s)

/-- POWER_STATE_ENTRY_DONE: the state that SLEEP asked for begins, unless work has begun since. -/
def execPowerStateEntryDone (s : State) : Host.Outcome State Fault Refusal :=
  .next (match s.pwr.entering with
    | none => s
    | some .idle => if s.maySleep 1 then s.toIdle else { s with pwr := { s.pwr with entering := none } }
    | some .retain =>
      if !s.maySleep 2 then { s with pwr := { s.pwr with entering := none } }
      else if s.l2Missing then s
      else (if s.pwr.st = .active then s.toIdle else s).toRetain
    | some .dormant => if s.maySleep 3 then s.toDormant else { s with pwr := { s.pwr with entering := none } }
    | some .active => s)

/-- WAKE_IN is asserted (source 5). -/
def execWakeIn (s : State) : Host.Outcome State Fault Refusal := .next (s.wakeSleep 5)

/-- SCHEDULED_WAKE: the RTC reaches the second that SLEEP named (source 3). -/
def execScheduledWake (s : State) : Host.Outcome State Fault Refusal :=
  .next (if s.pwr.wakeMask.getLsbD 3 && (s.pwr.entering.isSome || s.pwr.st = .retain || s.pwr.st = .dormant) then
      (s.untilRtc (s.pwr.wakeSec.toNat * unitS)).wakeSleep 3
    else s)

/-- PERST_N_DEASSERT: in RETAIN the host takes the device out of it; else the port may train (R622, R733). -/
def execPerstNDeassert (port : Fin 2) (s : State) : Host.Outcome State Fault Refusal :=
  let s' := { s with io := { s.io with ports := upd s.io.ports port.val fun x => { x with perst := false } } }
  .next (if !s.hasPort port.val then s
    else if s.pwr.st = .retain then
      let s := s'.restartTime
      ({ s with pwr := { s.pwr with st := .idle, entering := none, enteredAt := s.now }, pins := { s.pins with wakeN := true } }).emit (.wake true)
    else s')

/-! ### Management cores (R546, R663) -/

/-- Nothing in the engines names a command any more whose completion has been written. -/
def State.forgetRings (s : State) : State :=
  { s with
    chans := s.chans.map fun c : Chan => { c with cond := c.cond.map fun k : Cond => { k with fires := [] } }
    planes := s.planes.map fun x : Plane => { x with snaps := [] }
    sweeps := s.sweeps.map fun x : Sweep => { x with maskNext := none, stopping := [] }
    acqs := s.acqs.map fun a : Acq => { a with disarm := [] }
    sinks := s.sinks.map fun x : Sink => { x with draining := none, flushing := none }
    drives := s.drives.map fun v : Drive =>
      { v with thaw := false, swaps := v.swaps.map fun g : GroupSwap => { g with ring := none } }
    sec := { s.sec with sessions := s.sec.sessions.map fun q : Session => { q with cuts := q.cuts.map fun c : Cut => { c with ring := none } } } }

/-- End a command in execution with INTERNAL: its request and its claims go (R72, R546). -/
def State.abortCmd (s : State) (r : Nat) : State :=
  match (s.cmdRing r).inflight with
  | none => s
  | some f =>
    if f.stage = .zeroing then s.regionAbort 16 r .internal
    else
      let own : PowerReq → Bool := fun q => q.ring == some (Fin.ofNat 16 r)
      let asked := (s.pau.q0 ++ s.pau.q1 ++ s.pau.q2).find? own
      let spaced := asked.any fun q => q.spaced
      let cost := (asked.map fun q => q.cost).getD 0
      let s := if f.stage = .power then
          let s := { s with pau := { s.pau with q0 := s.pau.q0.filter fun q => !own q, q1 := s.pau.q1.filter fun q => !own q
                                                q2 := s.pau.q2.filter fun q => !own q } }
          let s := undoOf f.op f.handle f.d s
          if spaced then s.dropGrant (needOf f.op f.handle f.d) cost else s
        else s
      s.finish r .internal 0 0

/-- The cores are reloaded from the verified image: their commands in execution complete with INTERNAL. -/
def State.reload (s : State) : State :=
  let s := if s.anyInflight then s.internalFault else s
  ((List.range 16).foldl (fun s r => s.abortCmd r) s).forgetRings

/-- MGMT_CORE_RELOAD: a management fetch or read met an uncorrectable word. -/
def execMgmtCoreReload (s : State) : Host.Outcome State Fault Refusal :=
  .next (if s.serving then (s.sramFault 0x16 0).reload else s)

/-- WATCHDOG_STAGE_1: TIMEOUT has passed without a restart. -/
def execWatchdogStage1 (s : State) : Host.Outcome State Fault Refusal :=
  .next (if s.boot.die ≠ .serving || s.thim.wdtStage ≠ 0 then s
    else
      let s' := (s.setThim fun t => { t with wdt1 := satN 65535 (t.wdt1 + 1), wdtStage := 1 }).thimLog 2 255 255 0
      (pairPin s s').reload)

/-- WATCHDOG_STAGE_2: a second TIMEOUT has passed; the die restarts as from DORMANT. -/
def execWatchdogStage2 (s : State) : Host.Outcome State Fault Refusal :=
  .next (if s.boot.die ≠ .serving || s.thim.wdtStage ≠ 1 then s
    else ((s.setThim fun t => { t with wdt2 := satN 65535 (t.wdt2 + 1) }).thimLog 3 255 255 0).restartDie false)

/-! ### The persistent store (R362, R551, R561, R635, R735) -/

/-- Calibration sets as the store keeps them. -/
def State.calSave (s : State) : List StoredCal :=
  (List.range 128).filterMap fun i =>
    let c := s.chan i
    if c.cal.on && c.st != .empty then
      some { stream := (s.chan (c.cal.refOf i)).stream, own := c.stream, l := c.sp.l, fc := c.cal.fc, bc := c.cal.bc, b := c.cal.b, t := c.cal.t
             target := c.cal.target, targetE := c.cal.targetE, tab := c.cal.tab, tau := c.fe.tau, gRe := c.fe.gRe, gIm := c.fe.gIm }
    else none

def Thim.life (t : Thim) : List Int :=
  ([t.aonHours, t.actHours].map fun n : Nat => (n : Int)) ++ [t.degh] ++ ([t.above85, t.above105] ++ t.cycles.toList).map fun n : Nat => (n : Int)

/-- PERSISTENT_STORE_SAVE: the retire list at each save; STICKY entries and calibration sets at most once in 10 minutes. -/
def execPersistentStoreSave (ok : Bool) (s : State) : Host.Outcome State Fault Refusal :=
  .next (if !s.serving then s
    else if !ok then s.retireDone false
    else
      let due := s.store.saved.all fun t => decide (t + 600000000000 ≤ s.now)
      let s := { s with store :=
        { s.store with
          retired := s.integ.retired, life := s.thim.life
          sticky := if due then s.integ.log.filter fun e => e.sticky else s.store.sticky
          cal := if due then s.calSave else s.store.cal, saved := if due then some s.now else s.store.saved } }
      s.retireDone true)

end Sys2Proof.Machine
end

