-- ==== Sys2Proof/Machine/Boot.lean ====
section
/-! DEFINITION. Start-up, the resets from outside and from the host, the fabric PLLs and the boot flash (R143–R147, R694–R700,
R718–R736, R751, R788). -/

namespace Sys2Proof.Machine

/-! ### Resets (R721, R722, R731) -/

/-- POR_N_ASSERT: the die and the stacks are reset and held. In DORMANT they are off already, and the board may take the rails (R751). -/
def execPorNAssert (s : State) : Host.Outcome State Fault Refusal :=
  let s := { s with boot := { s.boot with porLow := true } }
  .next (if s.pwr.st = .dormant then s else s.resetDie false)

/-- POR_N_RELEASE: the die starts, unless Thimble holds it. In DORMANT that is a power-on reset, which ends it (manual chapter Electrical
characteristics, Races). -/
def execPorNRelease (s : State) : Host.Outcome State Fault Refusal :=
  .next (if !s.boot.porLow then s
    else
      let s := { s with boot := { s.boot with porLow := false } }
      if s.pwr.st = .dormant then
        State.releaseDie { s.resetDie false with pins := { (s.resetDie false).pins with pwrEn := true } }
      else s.releaseDie)

/-- XT32_CRYSTAL_START: after VDD_AON was absent, the RTC starts at second 0 and the die may start. -/
def execXt32CrystalStart (s : State) : Host.Outcome State Fault Refusal :=
  .next (if s.boot.xtal32 then s
    else
      let s := { s with boot := { s.boot with xtal32 := true }, thim := { s.thim with rtc := 0 }, time := { s.time with tb := 0 } }
      if s.pwr.st = .dormant then s else s.releaseDie)

/-- SYS_RESET_DIE: a write of SYS_RESET with DIE restarts the die; the error log is kept. -/
def execSysResetDie (value : Word) (s : State) : Host.Outcome State Fault Refusal :=
  .next (if s.serving && value.getLsbD 31 then s.restartDie true else s)

/-- SAFE_STATE_EXIT: the crystal runs and the other conditions of R146 hold. -/
def execSafeStateExit (s : State) : Host.Outcome State Fault Refusal := .next (if s.safeMayEnd then s.leaveSafe else s)

/-- PWR_EN_FALL: 1 ms after DORMANT was entered (R751). -/
def execPwrEnFall (s : State) : Host.Outcome State Fault Refusal :=
  .next (if s.pwr.st = .dormant && s.pins.pwrEn then
      let s := s.until (s.pwr.enteredAt + 1000000)
      { s with pins := { s.pins with pwrEn := false } }
    else s)

/-! ### The start (R694–R697, R731–R736) -/

/-- The descriptor copy in force: 0 or 1; the valid one with the higher count (R729). -/
def Flash.current (f : Flash) : Nat :=
  if f.desc1.valid && (!f.desc0.valid || f.desc0.count.toNat < f.desc1.count.toNat) then 1 else 0

def Flash.copy (f : Flash) (i : Nat) : FlashDesc := if i = 1 then f.desc1 else f.desc0

/-- ACTIVE: slot B. -/
def Flash.activeB (f : Flash) : Bool := (f.copy f.current).slotB

/-- Lifetime counters come back from the store when Thimble has lost its own (R635). -/
def Thim.restore (t : Thim) (life : List Int) : Thim :=
  let v := fun i => (life[i]?).getD 0
  if (t.aonHours : Int) < v 0 then
    { t with
      aonHours := (v 0).toNat, actHours := (v 1).toNat, degh := v 2, above85 := (v 3).toNat, above105 := (v 4).toNat
      cycles := Vector.ofFn fun i => (v (5 + i.val)).toNat }
  else t

/-- A stack failed training: its log entry. The codeword and the source that it names are open: a free value (log entry 2). -/
def State.trainingFailed (s : State) (k : Nat) : State :=
  let (v, s) := s.freeTake
  s.setInteg fun g => g.record (locSram k 0 v.toNat) 5 (bits v.toNat 55 48) s.time74

/-- Firmware has what the store keeps: STICKY entries, retired granules, calibration sets, lifetime counters. -/
def State.restoreStore (s : State) : State :=
  { s with
    integ := { s.integ with
      log := if s.boot.keepLog then s.integ.log else s.store.sticky, retired := s.store.retired }
    thim := s.thim.restore s.store.life, boot := { s.boot with calSets := s.store.cal } }

/-- BOOT_READY: an image that passes R694 serves the host. -/
def execBootReady (b : BootInfo) (s : State) : Host.Outcome State Fault Refusal :=
  .next (if s.boot.die ≠ .booting || s.boot.porLow || !s.boot.xtal32 || s.boot.safe || b.secVersion < s.sec.step || 512 < b.secVersion then s
    else
      let failed := b.hbmFailed &&& (if s.ident.small then 3#4 else 15#4)
      let raised := b.commit && decide (s.sec.step < b.secVersion)
      let s := { s with
        store := if b.storeDiscarded then .reset else s.store
        ident := { s.ident with fw := b.fwVersion, secVer := b.secVersion }
        sec := { s.sec with step := if raised then b.secVersion else s.sec.step }
        hbm := { s.hbm with failed := failed, trained := (if s.ident.small then 3#4 else 15#4) &&& ~~~failed }
        pau := { s.pau with budget := s.pau.budgetDef.toNat, budgetSet := false, queueMs := 10000, setpoint := s.avsGoal } }
      let s := s.restoreStore
      let s := (List.range 4).foldl (fun s k => if failed.getLsbD k then s.trainingFailed k else s) s
      let s := s.emit (.pmbus (s.pau.avsCfg.toNat % 128) s.pau.setpoint)
      let s := s.journal 7 0xFF 0 0 Config.imageDigest
      let s := s.emit (.uart "> ")
      { s with
        boot := { s.boot with
          die := .serving, ready := true, image := b.slotB, fallback := b.slotB != s.flash.activeB, storeDisc := b.storeDiscarded
          committed := raised, attempts := s.boot.failed, failed := 0, tryOther := false, hbmFailed := failed, bootMs := b.bootMs
          keepLog := false }
        pwr := { s.pwr with st := .idle, entering := none, enteredAt := s.now } })

/-- BOOT_START_TIMEOUT: a start fails; Thimble restarts the die with the other slot first, or after the fourth holds it and logs a
safe-state entry. -/
def execBootStartTimeout (s : State) : Host.Outcome State Fault Refusal :=
  .next (if s.boot.die ≠ .booting then s
    else
      let n := s.boot.failed + 1
      let s := ({ s with boot := { s.boot with failed := n, tryOther := !s.boot.tryOther } }).restartDie false
      if 4 ≤ n then s.thimLog 4 255 255 0 else s)

/-! ### The fabric PLLs (R143–R147) -/

/-- FABRIC_PLL_SWITCH: the active PLL loses lock. The standby takes over after a pause of at most 2 µs; with none locked the safe state is
entered. -/
def execFabricPllSwitch (pauseNs : Nat) (s : State) : Host.Outcome State Fault Refusal :=
  .next (if s.pwr.st ≠ .active then s
    else
      let to1 := !s.clk.fActive
      if if to1 then s.clk.f1Lock else s.clk.f0Lock then
        let pause := min 2000 pauseNs
        let s := s.pass pause
        let s := { s with clk := { s.clk with
          fActive := to1, switches := satN 65535 (s.clk.switches + 1)
          f0Lock := s.clk.f0Lock && !to1, f1Lock := s.clk.f1Lock && to1 } }
        s.note .fabricPllSwitch 0 [(1, b2n to1), (3, 0), (4, pause), (4, 0)]
      else s.enterSafe false)

/-- FABRIC_PLL_RELOCK: the failed PLL locks to the crystal, which therefore runs, and is the standby. -/
def execFabricPllRelock (s : State) : Host.Outcome State Fault Refusal :=
  let s := { s with boot := { s.boot with xtal50 := true } }
  .next (if s.pwr.st = .active then { s with clk := { s.clk with f0Lock := true, f1Lock := true } } else s)

/-- STANDBY_PLL_LOCK_LOSS: the standby unlocks; nothing switches. -/
def execStandbyPllLockLoss (s : State) : Host.Outcome State Fault Refusal :=
  .next (if s.pwr.st = .active then
      { s with clk := { s.clk with f0Lock := s.clk.f0Lock && !s.clk.fActive, f1Lock := s.clk.f1Lock && s.clk.fActive } }
    else s)

/-! ### The boot flash (R727–R732, R788) -/

/-- First byte of an image slot, and its length. -/
def slotBase (slotB : Bool) : Nat := if slotB then 0x01010000 else 0x00010000
def slotLen : Nat := 0x01000000

def State.setFlash (s : State) (f : Flash → Flash) : State := { s with flash := f s.flash }

/-- A range lies within the slot that is not running. -/
def State.flashOpen (s : State) (a len : Nat) : Bool :=
  let b := slotBase (!s.boot.image)
  decide (b ≤ a) && decide (a + len ≤ b + slotLen)

/-- Start an operation at the flash. -/
def State.flashStart (s : State) (op a : Nat) : State :=
  (s.setFlash fun f => { f with busy := true, run := some (op, a), page := f.buf }).emit (.flash op a)

/-- SELECT: the older descriptor copy is to name the slot. -/
def State.flashSel (s : State) (v : Word) : State :=
  let sel := v.toNat % 4
  if sel = 1 || sel = 2 then
    if s.flash.busy then s.setFlash fun f => { f with err := true } else s.flashStart 4 (sel - 1)
  else s

/-- GO: start OP at FLASH_ADDR. -/
def State.flashGo (s : State) (op : Nat) : State :=
  let a := s.flash.addr.toNat
  if s.flash.busy || a % (if op = 3 then 65536 else 256) ≠ 0 then s.setFlash fun f => { f with err := true }
  else if op ≠ 1 && !s.flashOpen a (if op = 3 then 65536 else 256) then s.setFlash fun f => { f with denied := true }
  else s.flashStart op a

/-- A write to FLASH_CTL: OP, then SELECT, then GO. OP 0 is the field's reset value and starts nothing. -/
def State.flashCtl (s : State) (v : Word) : State :=
  let op := bits v.toNat 30 28
  if 3 < op || (op = 0 && v.getLsbD 31) then s.badValue 0x0C0100
  else
    let s := (s.setFlash fun f => { f with op := BitVec.ofNat 3 op }).flashSel v
    if v.getLsbD 31 then s.flashGo op else s

def execFlashRead (value : Word) (s : State) : Host.Outcome State Fault Refusal := .next (if s.serving then s.flashCtl value else s)

def execFlashProgram (value : Word) (s : State) : Host.Outcome State Fault Refusal := .next (if s.serving then s.flashCtl value else s)

def execFlashErase (value : Word) (s : State) : Host.Outcome State Fault Refusal := .next (if s.serving then s.flashCtl value else s)

def execFlashSelect (value : Word) (s : State) : Host.Outcome State Fault Refusal := .next (if s.serving then s.flashCtl value else s)

/-- n bytes that are open, and the state that has taken them. -/
def State.freeBytes (s : State) (n : Nat) : List Byte × State :=
  ((List.range n).map fun i => (Config.freeValue (s.free + i)).setWidth 8, { s with free := s.free + n })

/-- Bytes of the flash as a host read meets them: the images are state, the layout of descriptors and store is open. -/
def State.flashBytes (s : State) (a n : Nat) : List Byte × State :=
  if a < 0x00010000 || (0x02010000 ≤ a && a < 0x02810000) then s.freeBytes n
  else ((Mem.reads s.flash.mem a n).map fun b => ~~~b, s)

/-- Put bytes into the flash's array. -/
def Flash.put (f : Flash) (a : Nat) (l : List Byte) : Flash := { f with mem := Mem.writes f.mem a (l.map fun b => ~~~b) }

def wordsOf (l : List Byte) : Vector Word 64 := Vector.ofFn fun i => BitVec.ofNat 32 (num l (4 * i.val) 4)

/-- A page program clears bits; what is set stays as it was (NOR flash). -/
def Flash.program (f : Flash) (a : Nat) : Flash :=
  let data := f.page.toList.flatMap fun w => le 4 w.toNat
  { f with mem := Mem.writes f.mem a ((List.range 256).map fun i => Mem.read f.mem (a + i) ||| ~~~((data[i]?).getD 0xFF)) }

/-- The older descriptor copy takes the slot and the next count. -/
def Flash.writeDesc (f : Flash) (slotB : Bool) (how : Nat) : Flash :=
  let i := 1 - f.current
  let d : FlashDesc :=
    if how = 0 then ⟨true, slotB, (f.copy f.current).count + 1⟩ else if how = 1 then f.copy i else { f.copy i with valid := false }
  if i = 1 then { f with desc1 := d } else { f with desc0 := d }

/-- FLASH_OPERATION_DONE. After a failure what the operation was to write is open: free values (log entry 2). -/
def execFlashOperationDone (failed : Bool) (s : State) : Host.Outcome State Fault Refusal :=
  .next (match s.flash.run with
    | none => s
    | some (op, a) =>
      let s := s.setFlash fun f => { f with busy := false, run := none, err := f.err || failed }
      match op with
      | 1 =>
        let (l, s) := if failed then s.freeBytes 256 else s.flashBytes a 256
        s.setFlash fun f => { f with buf := wordsOf l }
      | 2 =>
        if failed then let (l, s) := s.freeBytes 256; s.setFlash fun f => f.put a l
        else s.setFlash fun f => f.program a
      | 3 =>
        if failed then let (l, s) := s.freeBytes 65536; s.setFlash fun f => f.put a l
        else s.setFlash fun f => { f with mem := Mem.clear f.mem a (a + 65536) }
      | _ =>
        let (v, s) := if failed then s.freeTake else (0, s)
        s.setFlash fun f => f.writeDesc (a == 1) (if failed then v.toNat % 3 else 0))

end Sys2Proof.Machine
end

