-- ==== Sys2Proof/Machine/Lanes.lean ====
section
/-! DEFINITION. Lane bring-up, release, loss and the multiblocks that streams receive; the lane registers that act (R168, R171–R176,
R180–R189, R198–R207). -/

namespace Sys2Proof.Machine

/-! ### Bring-up (R180–R187) -/

/-- New equaliser state: values the manual leaves to the adaptation, free values (log entry 2). -/
def State.adapt (s : State) (l : Nat) : State :=
  let v := fun (k : Nat) => (Config.freeValue (s.free + k)).setWidth 8
  ({ s with free := s.free + 13 }).setLane l fun x =>
    { x with eq := if x.cfg.getLsbD 28 then x.eq else Vector.ofFn fun k => if k.val = 0 then v 0 &&& 31 else v k.val }

/-- A lane ends stage 6: it passes stage 7 at once unless the pattern must still be read (R180, R184). -/
def stage7 (discover : Bool) (l : Lane) : Lane := { l with mbLock := true, stage := if discover && l.order.isNone then 7 else 8 }

/-- Lanes by the logical numbers read, once every lane has one (R183). -/
def Stream.reorder (x : Stream) (s : State) : Stream :=
  let read := x.lanes.map fun l => ((s.lane l).order, l)
  if read.all fun y => y.1.isSome then
    { x with lanes := (List.range x.par.l).filterMap fun j => (read.find? fun y => y.1 == some j).map (·.2) }
  else x

/-- Stage 7 with DISCOVER: the lane's number is read, and the lane waits for the pattern's end; positions that do not fit restart every lane
(R183, R184). What LANE_FAULT then measures is a free value (log entry 2). -/
def State.readOrder (s : State) (i l : Nat) (info : LaneInfo) : State :=
  let x := s.stream i
  let taken := x.lanes.any fun y => y != l && (s.lane y).order == some info.logical
  if !info.orderFits || x.par.l ≤ info.logical || taken then
    let (v, s) := s.freeTake
    let s := s.laneFault i l 5 7 v.toNat
    (s.setLanes x.lanes fun y => { y with order := none }).restartAll i
  else
    let s := s.setLane l fun y => { y with order := some info.logical }
    s.setStream i fun x => x.reorder s

/-- Stage 8: every lane is there and PLL_S is locked or coasting; the skew decides. The first deskew after STREAM_OPEN aligns the LEMC, if no
epoch has (R185, R186, R804). -/
def State.deskew (s : State) (i l : Nat) (skewPs : Nat) : State :=
  let x := s.stream i
  if !s.pllOk || x.deskewed || !(x.lanes.all fun y => (s.lane y).stage == 8) then s
  else
    let s := s.setStream i fun x => { x with skewPs := skewPs }
    if 48000 < skewPs then (s.laneFault i l 6 8 (skewPs / 1000)).restartAll i
    else s.setStream i fun x => { x with deskewed := true, lemc0 := some (x.lemc0.getD s.time.run) }

/-- The stream is being brought up or retried. -/
def Stream.rising (x : Stream) : Bool := x.st == .bringup || x.st == .down

/-- LANE_STAGE_COMPLETE (R180): the lane's present stage ends. A lane inverted the wrong way finds no marker at stage 6. -/
def execLaneStageComplete (lane : Fin 64) (info : LaneInfo) (s : State) : Host.Outcome State Fault Refusal :=
  let l := lane.val
  .next (match s.laneStream l with
    | none => s
    | some i =>
      let x := s.stream i
      if !x.rising then s
      else match (s.lane l).stage with
      | 1 => s.setLane l fun y => { y with sigDet := true, stage := 2 }
      | 2 => s.setLane l fun y => { y with cdrLock := true, stage := 3 }
      | 3 => (s.adapt l).setLane l fun y => { y with adapted := true, stage := 4 }
      | 4 => s.setLane l fun y => { y with blockLock := true, stage := 5 }
      | 5 =>
        s.setLane l fun y => { y with
          marker := info.inverted, polInverted := if y.cfg.getLsbD 31 then info.inverted else y.cfg.getLsbD 30, stage := 6 }
      | 6 => if (s.lane l).marker == (s.lane l).polInverted then s.setLane l (stage7 x.par.discover) else s
      | 7 => if (s.lane l).order.isNone then s.readOrder i l info else s.setLane l fun y => { y with stage := 8 }
      | 8 => s.deskew i l info.skewPs
      | _ => s)

/-- LANE_STAGE_TIMEOUT (R181, R184): stages 2–8 have a limit; stage 7 until the order is known, stage 8 when the other lanes are there. What
LANE_FAULT measures is a free value (log entry 2). -/
def execLaneStageTimeout (lane : Fin 64) (s : State) : Host.Outcome State Fault Refusal :=
  let l := lane.val
  .next (match s.laneStream l with
    | none => s
    | some i =>
      let x := s.stream i
      let g := (s.lane l).stage
      if x.rising && (inR g 2 6 || (g == 7 && (s.lane l).order.isNone) || (g == 8 && !x.deskewed && s.pllOk && x.lanes.all fun y => (s.lane y).stage == 8)) then
        let (v, s) := s.freeTake
        (s.laneFault i l 0 g v.toNat).restartLane i l
      else s)

/-- LANE_COLD_RESTART (R201, R207): no block lock within 0.4 ms from saved or present equaliser state; the lane adapts cold. It goes back to stage 2
and keeps signal detect (log entry 65). -/
def execLaneColdRestart (lane : Fin 64) (s : State) : Host.Outcome State Fault Refusal :=
  .next (if (s.lane lane.val).warm && inR (s.lane lane.val).stage 2 4 then
      s.setLane lane.val fun y => { y with warm := false, cdrLock := false, adapted := false, stage := 2 }
    else s)

/-! ### Release (R187, R188, R202, R203) -/

/-- A count of samples as a span of the time base: n/(256·E) LEMC periods, rounded up. -/
def StreamPar.lemcSpan (p : StreamPar) (n : Nat) : Nat := ceilDiv (n * p.lemc * unitS) (256 * p.e * max 1 p.fs)

/-- The next release point: its LEMC edge, and its instant on `TimeBase.run`, RBD octets after the edge (R187). -/
def Stream.releaseEdge (x : Stream) (run : Nat) : Nat × Nat :=
  let at? := fun n => x.lemc0.getD run + x.par.lemcSpan (256 * x.par.e * n + x.par.rbd)
  let k := (run - x.lemc0.getD run) * max 1 x.par.fs / (unitS * x.par.lemc)
  match [k - 1, k].find? fun n => decide (run ≤ at? n) with
  | some n => (n, at? n)
  | none => (k + 1, at? (k + 1))

/-- The latest lane's extended multiblock has arrived by the release point (R187). -/
def StreamPar.inTime (p : StreamPar) (arrivalPs : Int) : Bool :=
  decide (arrivalPs * (256 * p.e * p.fs : Nat) ≤ (p.rbd * p.lemc * 1000000000000 : Nat))

/-- Index of the first sample released at an LEMC edge in a stream whose indices run on: the edges since index 0 (R202). -/
def Stream.resumeIndex (x : Stream) (edge : Nat) : Nat :=
  let p := x.par.lemc
  max ((edge - x.zeroEdge) * p) (ceilDiv (x.next.getD 0) p * p)

/-- The arrival phase differs from its reference by more than 8 ns (R202). -/
def Stream.moved (x : Stream) (arrivalPs : Int) : Bool := x.arrivalRef.any fun r => decide (8000 < (arrivalPs - r).natAbs)

/-- Index basis of a STREAM_UP (R202). -/
def State.basisNow (s : State) (i : Nat) (arrivalPs : Int) : Nat :=
  let x := s.stream i
  if s.time.afterLoss.getLsbD x.par.group.val then 3 else if !x.everUp then 0 else if x.moved arrivalPs then 2 else 1

/-- The stream releases at an LEMC edge: every lane is at stage 9, and STREAM_UP carries the index basis. A phase that has moved raises
LANE_FAULT. After basis 1 or 2 the stream's raw units are to mark their first record (R203). -/
def State.release (s : State) (i latest edge : Nat) (arrivalPs : Int) : State :=
  let x := s.stream i
  let basis := s.basisNow i arrivalPs
  let s := s.setLanes x.lanes fun l => { l with stage := 9 }
  let s := if x.moved arrivalPs then s.laneFault i latest 2 9 ((arrivalPs - x.arrivalRef.getD 0).natAbs / 1000) else s
  let s := s.note .streamUp (s.handleOf 1 i)
    [(1, x.par.l), (1, basis), (2, 0), (4, x.skewPs), (4, (s.now - x.since) / 1000)]
  let s := if basis = 1 || basis = 2 then (s.acqsOf 1 i).foldl (fun s u => s.setAcq u fun a => { a with gapNext := true }) s else s
  s.setStream i fun x => { x with
    st := .up, basis := basis, everUp := true, deskewed := false, lateEpisode := false, since := s.now
    arrivalRef := some (x.arrivalRef.getD arrivalPs)
    next := if basis = 3 then none else if basis = 0 then some 0 else some (x.resumeIndex edge)
    zeroEdge := if basis = 0 then edge else x.zeroEdge, t0 := if basis = 0 then s.time.tb else x.t0
    suspect := x.suspect || basis == 2 }

/-- RELEASE_POINT (R187): the next release point comes. The latest lane's end-of-extended-multiblock comes
`arrivalNs` ns and `sub` ps after the LEMC edge. -/
def execReleasePoint (stream : Fin 32) (latest : Fin 64) (arrivalNs : Int) (sub : Fin 1000) (s : State) : Host.Outcome State Fault Refusal :=
  let arrivalPs := arrivalNs * 1000 + (sub.val : Int)
  let i := stream.val
  let x := s.stream i
  .next (
    if !(x.rising && x.deskewed && s.pllOk) then s
    else
      let (edge, due) := x.releaseEdge s.time.run
      let s := s.untilTb (s.time.tb + (due - s.time.run))
      if x.par.inTime arrivalPs then s.release i latest.val edge arrivalPs
      else if x.lateEpisode then s
      else (s.laneFault i latest.val 3 9 (twos 32 arrivalNs)).setStream i fun x => { x with lateEpisode := true })

/-- LANE_LOCK_LOSS (R201): an UP stream goes down. While the stream comes up the lane alone restarts, with one LANE_FAULT of cause 0 (Races; log
entry 66); what that measures is a free value (log entry 2). -/
def execLaneLockLoss (lane : Fin 64) (cause : Fin 4) (s : State) : Host.Outcome State Fault Refusal :=
  let l := lane.val
  .next (match s.laneStream l with
    | none => s
    | some i =>
      let x := s.stream i
      if x.st = .up then s.streamDown i cause.val l
      else if x.rising && (s.lane l).stage != 0 && cause.val != 3 then
        let (v, s) := s.freeTake
        (s.laneFault i l 0 (s.lane l).stage v.toNat).restartLane i l
      else s)

/-! ### Multiblocks (R198–R200, R204) -/

/-- A mapped control bit of a slot is set: control bit k follows the sample (R178, R198). -/
def StreamPar.overrange (p : StreamPar) (slot : Nat) : Bool :=
  (List.range p.cs).any fun k => bit p.csMap k && bit slot (p.n' - p.n - 1 - k)

/-- One sample of a stream goes to its raw taps and to its channels. Between an epoch and its first aligned sample the channels, reset, take
none (R157). -/
def State.streamSample (s : State) (i : Nat) (slots : List Nat) (gap : Bool) : State :=
  let x := s.stream i
  match x.next with
  | none => s
  | some k =>
    let sat := slots.any x.par.overrange
    let vals := if gap then List.replicate x.par.m 0 else slots.take x.par.m
    let flags := fIf sat fSaturated ||| fIf gap fGap
    let st : Stamp := ⟨k, x.timeOf k / unitF, 0, 0, 0, 0, s.sec.jNext - 1, 0⟩
    let it : Item := { no := k, kind := 1, fmt := 1, vals := vals.map Int.ofNat, flags := flags ||| s.timeFlags i, stamp := st }
    let smp : InSmp := ⟨k, ⟨x.par.comp (vals.headD 0), if x.par.m = 2 then x.par.comp ((vals[1]?).getD 0) else 0, flags ||| fIf s.clk.coast fCoast⟩⟩
    let s := s.setStream i fun x => { x with next := some (k + 1), lastReleased := some k }
    let s := s.feed 1 i 0 it
    if x.align.isSome then s
    else (s.chansOf i).foldl (fun s ch => s.setChan ch fun c =>
      if c.emits && !c.shut && decide (c.startAt ≤ k) && c.drainAt.all fun e => decide (k ≤ e) then { c with inq := c.inq ++ [smp] } else c) s

/-- A failed multiblock of a lane: counted, and LANE_FAULT with cause 4 at most once a second. It carries the count 1, its own (log entry 67). -/
def State.crcFail (s : State) (i l : Nat) : State :=
  let y := s.lane l
  let due := y.lastCrcFault.all fun t => decide (t + 1000000000 ≤ s.now)
  let s := s.setLane l fun y => { y with crcErr := satN 255 (y.crcErr + 1), lastCrcFault := if due then some s.now else y.lastCrcFault }
  let s := s.setStream i fun x => { x with crcBad := x.crcBad + 1 }
  if due then s.laneFault i l 4 y.stage 1 else s

/-- Counts of a multiblock period: CRC-12 or FEC on lanes in multiblock lock, sync headers on lanes in block lock (R173, R199). -/
def State.countMultiblock (s : State) (i : Nat) (mb : Multiblock) : State :=
  let x := s.stream i
  let own := fun (l : Fin 64) => x.lanes.contains l.val
  let s := (mb.failed.filter own).foldl (fun s l => if (s.lane l.val).mbLock then s.crcFail i l.val else s) s
  let s := (if x.par.fec then mb.corrected.filter own else []).foldl (fun s l =>
    if (s.lane l.val).mbLock then
      (s.setLane l.val fun y => { y with fecCorr := satN 255 (y.fecCorr + 1) }).setStream i fun x => { x with fecCorr := x.fecCorr + 1 }
    else s) s
  (mb.shErr.filter fun e => own e.1).foldl (fun s e =>
    s.setLane e.1.val fun y => if y.blockLock then { y with shErr := satN 255 (y.shErr + e.2) } else y) s

/-- Equalisers of a stream's lanes go on adapting while they receive (R168). -/
def State.adaptAll (s : State) (i : Nat) : State := (s.stream i).lanes.foldl (fun s l => s.adapt l) s

/-- An epoch's first aligned sample has come: the index restarts at 0 (R157). After an epoch the first end-of-extended-multiblock gives the
reference of the arrival phase (R202). -/
def Stream.begins (x : Stream) (run : Nat) (arrival : Option Int) : Stream :=
  let x := { x with arrivalRef := if x.arrivalRef.isNone then arrival else x.arrivalRef }
  match x.align with
  | some (at?, t) => if at? ≤ run then { x with next := some 0, t0 := t, align := none } else x
  | none => x

/-- Samples of an UP stream counted, with a valid index or without (R197). -/
def Stream.tally (x : Stream) (slots : List (List Nat)) (gap : Bool) : Stream :=
  { x with zeroed := x.zeroed + (if gap then slots.length else 0)
           saturated := x.saturated + (slots.filter fun l => l.any x.par.overrange).length }

/-- MULTIBLOCK_RECEIVED (R198–R200): counts, the zeroing of a failed period, the samples in order. -/
def execMultiblockReceived (stream : Fin 32) (mb : Multiblock) (s : State) : Host.Outcome State Fault Refusal :=
  let i := stream.val
  let x := s.stream i
  .next (
    if !x.st.runs then s
    else
      let s := (s.countMultiblock i mb).adaptAll i
      if x.st ≠ .up then s
      else
        let s := if mb.fifoErr then s.sramFault 0x17 0 else s
        let gap := mb.fifoErr || mb.failed.any fun l => x.lanes.contains l.val
        let slots := mb.slots.take x.par.period
        let s := s.setStream i fun x => (x.begins s.time.run mb.arrivalPs).tally slots gap
        slots.foldl (fun s v => s.streamSample i v gap) s)

/-! ### Registers that act (R171, R172, R175, R176) -/

/-- LANE_CFG fields (R171, R172). TAP_DISCARD discards saved equaliser state and reads 0. -/
def State.laneCfg (s : State) (n : Nat) (v : Word) : State :=
  let held := (s.laneStream n).isSome
  s.setLane n fun l => { l with
    cfg := ((if held then l.cfg else v) &&& 0xC0000000#32) ||| (v &&& 0x10000000#32)
    saved := if v.getLsbD 29 then none else l.saved }

/-- EYE_CTL (R175, R176): LANE and DWELL are ignored during a scan; START begins one, or ends at once on a lane that is not in LP0. -/
def State.eyeCtl (s : State) (v : Word) : State :=
  let e := s.eye
  let e := if e.busy then e else { e with lane := v.extractLsb' 24 6, dwell := v.extractLsb' 20 4 }
  if v.getLsbD 31 && !e.busy then
    if (s.lane e.lane.toNat).pstate = 0 then { s with eye := { e with start := true, busy := true } }
    else { s with eye := { e with map := List.replicate 4096 65535 } }
  else { s with eye := e }

/-- EYE_SCAN_DONE (R176): the error counts of the cells, x fastest. -/
def execEyeScanDone (counts : List (BitVec 16)) (s : State) : Host.Outcome State Fault Refusal :=
  if counts.length ≠ 4096 then .fault .illFormed
  else .next (if s.eye.busy then { s with eye := { s.eye with busy := false, start := false, map := counts } } else s)

end Sys2Proof.Machine
end

