-- ==== Sys2Proof/Machine/RegMap.lean ====
section
/-! DEFINITION. The map of BAR0: which register an offset names, what it reads as, and its fields that a read clears (R12, R13, R778, R779
and the register tables of every chapter). -/

namespace Sys2Proof.Machine

/-- The registers of the map, with their instance numbers. -/
inductive Reg where
  | devId | behavClass | fwVersion | serial (hi : Bool) | feRomId | bootStat | sysReset | regErr
  | cmdBase (n : Nat) (hi : Bool) | cmdWb (n : Nat) (hi : Bool) | cmdCfg (n : Nat) | cmdCons (n : Nat)
  | evtBase (n : Nat) (hi : Bool) | evtCfg (n : Nat) | evtMod (n : Nat) | evtStat (n : Nat) | evtWr (n : Nat)
  | dataBase (n : Nat) (hi : Bool) | dataCfg (n : Nat) | dataCons (n : Nat) | evtRoute (w : Nat) | dbStat (n : Nat)
  | msix (e w : Nat) | pba (w : Nat)
  | pinFunc (n : Nat) | pinErr | gpioOut | gpioIn | trigCfg (n : Nat) | trigStat (n : Nat)
  | pllCfg | pllStat | coastCfg | ppsStat | fabricStat | clkoutStat | clkoutCfg (n : Nat) | clkoutPhase (n : Nat)
  | laneCfg (n : Nat) | laneStat (n : Nat) | laneEq (n k : Nat) | eyeCtl | eyeMap (w : Nat)
  | grpStat (g : Nat) | grpCnt (g : Nat) | acqStat (u : Nat) | acqCnt (u : Nat) | sweepStat (u : Nat) | mpStat (c : Nat) | mpCnt (c : Nat)
  | dmaStat (n : Nat) | dmaBytes (n : Nat) | storeQStat (q : Nat) | portStat (p : Nat)
  | hbmCfg | hbmStat | hbmStack (k : Nat) | qosCfg (p : Nat) | qosStat (p : Nat)
  | elogStat | eccCorr (k : Nat) | eccUncorr (k : Nat) | eccSram | darnerCfg | darnerStat | retireStat | elogEntry (i w : Nat)
  | budgetDef | pwrStat | thermCfg | avsCfg | avsStat
  | monCfg | monBufWp | monStat | alarmCfg | rtcSec | rtcFrac | rtcTrim | wdtCfg | wdtStat
  | lifeAon | lifeActive | lifeTj | lifeHot | lifeCycles (b : Nat) | lifeAge
  | monScan (w : Nat) | monGain (w : Nat) | monCmp (k : Nat) | monTable (e j : Nat) | monFilt (i : Nat) | monBuf (w : Nat)
  | secStat | flashCtl | flashAddr | flashStat | flashBuf (w : Nat)
  | pairStat | seamStat | uartCfg
  deriving DecidableEq, Repr

/-! ### The map -/

/-- Instance of an array of n registers at a base and stride. -/
def arr (off base n stride : Nat) (f : Nat → Reg) : Option Reg :=
  if base ≤ off && off < base + n * stride && (off - base) % stride = 0 then some (f ((off - base) / stride)) else none

/-- The first map that knows an offset. -/
def firstOf : List (Option Reg) → Option Reg
  | [] => none
  | some r :: _ => some r
  | none :: l => firstOf l

/-- A two-word register. -/
def pairAt (off base n stride : Nat) (f : Nat → Bool → Reg) : Option Reg :=
  firstOf [arr off base n stride fun i => f i false, arr off (base + 4) n stride fun i => f i true]

/-- A single register. -/
def one (off at_ : Nat) (r : Reg) : Option Reg := if off = at_ then some r else none

def mapTop (o : Nat) : Option Reg :=
  firstOf [one o 0x00 .devId, one o 0x04 .behavClass, one o 0x08 .fwVersion, one o 0x10 (.serial false), one o 0x14 (.serial true),
    one o 0x20 .feRomId, one o 0x24 .bootStat, one o 0x28 .sysReset, one o 0x2C .regErr]

def mapRings (o : Nat) : Option Reg :=
  firstOf [pairAt o 0x0000 16 0x20 .cmdBase, pairAt o 0x0008 16 0x20 .cmdWb, arr o 0x0010 16 0x20 .cmdCfg, arr o 0x0014 16 0x20 .cmdCons,
    pairAt o 0x0400 16 0x20 .evtBase, arr o 0x0408 16 0x20 .evtCfg, arr o 0x040C 16 0x20 .evtMod, arr o 0x0410 16 0x20 .evtStat,
    arr o 0x0414 16 0x20 .evtWr, pairAt o 0x1000 128 0x10 .dataBase, arr o 0x1008 128 0x10 .dataCfg, arr o 0x100C 128 0x10 .dataCons,
    arr o 0x1800 2 4 .evtRoute, arr o 0x2000 160 4 .dbStat]

def mapMsix (o : Nat) : Option Reg := firstOf [arr o 0x0000 256 4 fun i => .msix (i / 4) (i % 4), arr o 0x0800 2 4 .pba]

def mapPins (o : Nat) : Option Reg :=
  firstOf [arr o 0x0000 32 4 .pinFunc, one o 0x0080 .pinErr, one o 0x0084 .gpioOut, one o 0x0088 .gpioIn, arr o 0x0100 16 4 .trigCfg,
    arr o 0x0140 16 4 .trigStat]

def mapClock (o : Nat) : Option Reg :=
  firstOf [one o 0x0000 .pllCfg, one o 0x0004 .pllStat, one o 0x0008 .coastCfg, one o 0x000C .ppsStat, one o 0x0010 .fabricStat,
    one o 0x0014 .clkoutStat, arr o 0x0100 16 8 .clkoutCfg, arr o 0x0104 16 8 .clkoutPhase]

def mapLanes (o : Nat) : Option Reg :=
  if o < 0x1000 then
    let n := o / 0x40
    let r := o % 0x40
    firstOf [one r 0 (.laneCfg n), one r 4 (.laneStat n), arr r 8 13 4 fun k => .laneEq n k]
  else firstOf [one o 0x1000 .eyeCtl, arr o 0x2000 2048 4 .eyeMap]

def mapUnits (o : Nat) : Option Reg :=
  firstOf [arr o 0x0000 64 8 .grpStat, arr o 0x0004 64 8 .grpCnt, arr o 0x0400 128 8 .acqStat, arr o 0x0404 128 8 .acqCnt,
    arr o 0x0800 2 4 .sweepStat, arr o 0x0900 16 8 .mpStat, arr o 0x0904 16 8 .mpCnt]

def mapDma (o : Nat) : Option Reg :=
  firstOf [arr o 0x0000 64 8 .dmaStat, arr o 0x0004 64 8 .dmaBytes, arr o 0x0200 32 4 .storeQStat, arr o 0x0300 2 4 .portStat]

def mapHbm (o : Nat) : Option Reg :=
  firstOf [one o 0x0000 .hbmCfg, one o 0x0004 .hbmStat, arr o 0x0010 4 4 .hbmStack, arr o 0x0100 12 8 .qosCfg, arr o 0x0104 12 8 .qosStat]

def mapInteg (o : Nat) : Option Reg :=
  firstOf [one o 0x0000 .elogStat, arr o 0x0010 4 4 .eccCorr, arr o 0x0020 4 4 .eccUncorr, one o 0x0030 .eccSram, one o 0x0034 .darnerCfg,
    one o 0x0038 .darnerStat, one o 0x003C .retireStat, arr o 0x0400 256 4 fun i => .elogEntry (i / 8) (i % 8)]

def mapPower (o : Nat) : Option Reg :=
  firstOf [one o 0x00 .budgetDef, one o 0x04 .pwrStat, one o 0x08 .thermCfg, one o 0x0C .avsCfg, one o 0x10 .avsStat]

def mapThim (o : Nat) : Option Reg :=
  firstOf [one o 0x000 .monCfg, one o 0x004 .monBufWp, one o 0x008 .monStat, one o 0x00C .alarmCfg, one o 0x010 .rtcSec, one o 0x014 .rtcFrac,
    one o 0x018 .rtcTrim, one o 0x01C .wdtCfg, one o 0x020 .wdtStat, one o 0x040 .lifeAon, one o 0x044 .lifeActive, one o 0x048 .lifeTj,
    one o 0x04C .lifeHot, arr o 0x050 6 4 .lifeCycles, one o 0x068 .lifeAge, arr o 0x080 5 4 .monScan, arr o 0x0A0 9 4 .monGain,
    arr o 0x0E0 8 4 .monCmp, arr o 0x100 64 4 fun i => .monTable (i / 2) (i % 2), arr o 0x400 144 4 .monFilt, arr o 0x1000 2048 4 .monBuf]

def mapSec (o : Nat) : Option Reg :=
  firstOf [one o 0x000 .secStat, one o 0x100 .flashCtl, one o 0x104 .flashAddr, one o 0x108 .flashStat, arr o 0x200 64 4 .flashBuf]

def mapPair (o : Nat) : Option Reg := firstOf [one o 0x000 .pairStat, one o 0x004 .seamStat, one o 0x100 .uartCfg]

/-- The register at a word-aligned offset of BAR0. -/
def regAt (off : Nat) : Option Reg :=
  let o := off % 0x10000
  match off / 0x10000 with
  | 0x0 => mapTop o | 0x1 => mapRings o | 0x2 => mapMsix o | 0x3 => mapPins o | 0x4 => mapClock o | 0x5 => mapLanes o | 0x6 => mapUnits o
  | 0x7 => mapDma o | 0x8 => mapHbm o | 0x9 => mapInteg o | 0xA => mapPower o | 0xB => mapThim o | 0xC => mapSec o | 0xD => mapPair o
  | _ => none

/-- An instance beyond the TL7064's resources reads as zero and ignores writes (R3). -/
def Reg.absent (r : Reg) (small : Bool) : Bool :=
  small && match r with
    | .laneCfg n | .laneStat n | .laneEq n _ => decide (32 ≤ n)
    | .sweepStat u => decide (1 ≤ u)
    | .portStat p => decide (1 ≤ p)
    | .hbmStack k | .eccCorr k | .eccUncorr k => decide (2 ≤ k)
    | _ => false

/-! ### Reading -/

/-- A word made of fields given as (lowest bit, value). -/
def fields (l : List (Nat × Nat)) : Nat := sumN (l.map fun f => f.2 * 2 ^ f.1)

def half (w : Nat) (hi : Bool) : Nat := w / (if hi then 2 ^ 32 else 1) % 2 ^ 32

/-- PLL_S_STAT.TIME_SUSPECT: records carry it now, or would (R118, R803). A group counts while a stream of it is open; with none open, every
group does (log entry 62). -/
def State.timeSuspect (s : State) : Bool :=
  let groups := (s.streams.toList.filter fun x => x.st != .free).map fun x => (x.par.group.val, x.suspect)
  !s.pllOk || s.clk.slewing || groups.any (fun g => nth s.time.groupSuspect g.1 false || g.2) ||
    (groups.isEmpty && s.time.groupSuspect.toList.any id)

/-- A unit's warm-up is not over (R425). -/
def Sweep.warming (u : Sweep) : Bool := u.claimed && (u.restart || decide (u.undecided ≤ u.s0 + 2 ^ u.km + 2 ^ u.kn))

def acqCode : AcqSt → Nat
  | .none => 0 | .idle => 1 | .filling => 2 | .armed => 3 | .capture => 4 | .holdoff => 5 | .done => 6 | .streaming => 7

def mpCode : MpSt → Nat
  | .empty => 0 | .loaded => 1 | .running => 2 | .trapped => 3

def pwrCode : PwrSt → Nat
  | .active => 0 | .idle => 1 | .retain => 2 | .dormant => 3

/-- Second and 1/32,768 s of the RTC (R665, R787). -/
def Thim.rtcSecond (t : Thim) : Nat := t.rtc / unitS % 2 ^ 40
def Thim.rtcFrac (t : Thim) : Nat := fields [(24, t.rtcSecond / 2 ^ 32), (0, t.rtc % unitS * 32768 / unitS)]

def State.fitted (s : State) : Nat := if s.ident.small then 3 else 15

def readRing (s : State) : Reg → Nat
  | .cmdBase n hi => half (s.cmdRing n).base.toNat hi
  | .cmdWb n hi => half (s.cmdRing n).wb.toNat hi
  | .cmdCfg n => let c := s.cmdRing n; fields [(31, b2n c.en), (30, b2n c.err), (27, c.port.val), (16, c.size), (0, c.evt.val)]
  | .cmdCons n => (s.cmdRing n).cons.toNat
  | .evtBase n hi => half (nth s.io.evt n .reset).base.toNat hi
  | .evtCfg n =>
    let r := nth s.io.evt n .reset
    fields [(31, b2n r.en), (30, b2n r.err), (27, r.port.val), (16, r.size), (0, r.vector.toNat)]
  | .evtMod n => let r := nth s.io.evt n .reset; fields [(16, r.count.toNat), (0, r.timer.toNat)]
  | .evtStat n => let r := nth s.io.evt n .reset; fields [(16, r.lost), (0, r.held.length)]
  | .evtWr n => (nth s.io.evt n .reset).written.toNat
  | .dataBase n hi => half (s.dring n).base.toNat hi
  | .dataCfg n => let r := s.dring n; fields [(31, b2n r.en), (30, b2n r.err), (27, r.port.val), (16, r.size)]
  | .dataCons n => (s.dring n).cons.toNat
  | .evtRoute w => fields ((List.range 8).map fun j => (4 * j, (nth s.io.route (8 * w + j) 0).val))
  | .dbStat n => nth s.io.dbBad n 0
  | _ => 0

def readPin (s : State) : Reg → Nat
  | .pinFunc n => (nth s.pins.func n 0).toNat
  | .pinErr => fields [(31, b2n s.pins.lockedWrite), (30, b2n s.pins.badCode), (0, s.pins.errPin.toNat)]
  | .gpioOut => s.pins.gpioOut.toNat
  | .gpioIn => fields ((List.range 32).map fun n => (n, b2n (s.pinLevel n)))
  | .trigCfg n => (nth s.pins.cfg n 0).toNat
  | .trigStat n => fields [(16, nth s.pins.late n 0), (0, nth s.pins.merged n 0)]
  | _ => 0

def readClock (s : State) : Reg → Nat
  | .pllCfg => s.clk.cfg.toNat
  | .pllStat =>
    let c := s.clk
    fields [(31, b2n c.lock), (30, b2n c.coast), (29, b2n c.lost), (28, b2n s.timeSuspect), (27, b2n c.slewing), (26, b2n c.cfgErr),
      (25, b2n c.refPresent), (24, b2n c.ppsValid)]
  | .coastCfg => s.clk.coastCfg.toNat
  | .ppsStat => fields [(16, twos 16 (max (-32767) (min 32767 s.clk.edgeErr))), (0, s.clk.missed)]
  | .fabricStat => fields [(31, b2n s.clk.fActive), (30, b2n s.clk.f0Lock), (29, b2n s.clk.f1Lock), (0, s.clk.switches)]
  | .clkoutStat => fields [(16, s.clk.outLocked.toNat), (0, s.clk.overLimit.toNat)]
  | .clkoutCfg n => (nth s.clk.outCfg n 0).toNat
  | .clkoutPhase n => (nth s.clk.outPhase n 0).toNat
  | _ => 0

def readLane (s : State) : Reg → Nat
  | .laneCfg n => (s.lane n).cfg.toNat
  | .laneStat n =>
    let l := s.lane n
    fields [(31, b2n l.sigDet), (30, b2n l.cdrLock), (29, b2n l.adapted), (28, b2n l.blockLock), (27, b2n l.polInverted), (26, b2n l.mbLock),
      (24, l.pstate.toNat), (16, l.crcErr), (8, l.fecCorr), (0, l.shErr)]
  | .laneEq n k => (nth (s.lane n).eq k 0).toNat
  | .eyeCtl => fields [(31, b2n s.eye.start), (30, b2n s.eye.busy), (24, s.eye.lane.toNat), (20, s.eye.dwell.toNat)]
  | .eyeMap w => fields [(0, ((s.eye.map[2 * w]?).getD 0).toNat), (16, ((s.eye.map[2 * w + 1]?).getD 0).toNat)]
  | _ => 0

def readUnit (s : State) : Reg → Nat
  | .grpStat g => let x := nth s.groups g .reset; fields [(31, b2n x.alloc), (16, x.hits.length), (8, x.late), (0, x.dropped)]
  | .grpCnt g => (nth s.groups g .reset).fired
  | .acqStat u =>
    let a := s.acq u
    fields [(29, acqCode a.st), (24, a.level), (16, if a.st = .none then 0 else (s.region a.region).fill), (8, a.par.mode)]
  | .acqCnt u => let a := s.acq u; fields [(24, a.early), (16, a.hold), (8, a.overlap), (0, a.dropped)]
  | .sweepStat u =>
    let x := s.sweep u
    fields [(31, b2n x.claimed), (30, b2n x.run), (29, b2n x.warming), (16, x.queue.length), (8, x.dropped), (0, x.evtLimited)]
  | .mpStat c =>
    let m := nth s.mps c .reset
    fields [(29, mpCode m.st), (28, b2n m.waitIn), (27, b2n m.waitOut), (26, b2n m.sat), (0, m.pc % 4096)]
  | .mpCnt c => let m := nth s.mps c .reset; fields [(16, m.skipped), (0, m.dropped)]
  | _ => 0

def readDma (s : State) : Reg → Nat
  | .dmaStat n =>
    let x := nth s.dma n .reset
    match x.sink with
    | none => fields [(24, x.cause)]
    | some k => let y := s.sink k; fields [(31, 1), (30, b2n y.moving), (29, b2n y.halted), (27, x.cls), (24, x.cause), (16, k)]
  | .dmaBytes n => (nth s.dma n .reset).kib
  | .storeQStat q =>
    let x := s.queue q
    fields [(31, b2n x.attached), (30, b2n x.spare), (29, b2n x.failed), (28, b2n x.full), (21, x.sink), (0, x.outstanding)]
  | .portStat p =>
    let x := s.hostPort p
    fields [(31, b2n x.linkUp), (25, x.width), (22, x.speed), (21, b2n x.roEn), (20, b2n x.l1), (0, x.cplErr)]
  | _ => 0

def readHbm (s : State) : Reg → Nat
  | .hbmCfg => s.hbm.cfg.toNat
  | .hbmStat =>
    let fit := fun (v : BitVec 4) => v.toNat &&& s.fitted
    fields [(28, s.fitted), (24, fit s.hbm.trained), (20, fit s.hbm.failed), (16, fit s.hbm.selfRef), (12, fit s.hbm.hot), (11, b2n s.hbm.cfgErr),
      (0, s.hbm.bar4Drop)]
  | .hbmStack k => fields [(24, twos 8 (nth s.hbm.temp k 0)), (16, nth s.hbm.owedMax k 0), (0, nth s.hbm.forced k 0)]
  | .qosCfg p => (nth s.hbm.qosCfg p 0).toNat
  | .qosStat p => fields [(28, (nth s.hbm.panic p 0).toNat), (16, nth s.hbm.panics p 0), (0, nth s.hbm.overrun p 0)]
  | _ => 0

def readInteg (s : State) : Reg → Nat
  | .elogStat => fields [(26, s.integ.log.length), (20, (s.integ.log.filter fun e => e.sticky).length), (0, s.integ.overflow)]
  | .eccCorr k => nth s.integ.corr k 0
  | .eccUncorr k => fields [(16, nth s.integ.uncorr k 0), (0, nth s.integ.poisonCnt k 0)]
  | .eccSram => fields [(16, s.integ.sramCorr), (0, s.integ.sramUncorr)]
  | .darnerCfg => s.integ.darner.toNat
  | .darnerStat => fields [(24, s.integ.progress), (0, s.integ.scrubs)]
  | .retireStat => fields [(16, (s.integ.retired.filter fun g => s.granuleUsed g).length), (0, s.integ.retired.length)]
  | .elogEntry i w => match s.integ.byAge[i]? with | some e => num e.bytes (4 * w) 4 | none => 0
  | _ => 0

def readPower (s : State) : Reg → Nat
  | .budgetDef => s.pau.budgetDef.toNat
  | .pwrStat =>
    fields [(30, pwrCode s.pwr.st), (28, if s.pau.critSince.isSome then 2 else b2n s.pau.limitFix.isSome), (27, b2n s.pwr.l2Timeout),
      (24, s.pwr.wakeCause.toNat), (0, min 65535 (s.granted / 100))]
  | .thermCfg => s.pau.therm.toNat
  | .avsCfg => s.pau.avsCfg.toNat
  | .avsStat => fields [(31, b2n s.pau.avsFault), (0, s.pau.setpoint)]
  | _ => 0

def readThim (s : State) : Reg → Nat
  | .monCfg => s.thim.cfg.toNat
  | .monBufWp => s.thim.bufWp.toNat
  | .monStat => fields [(24, s.thim.urgDrop), (16, s.thim.logLost), (8, s.thim.rxDrop), (0, (s.thim.rules.filter fun r => r.st == .active).length)]
  | .alarmCfg => s.thim.alarmCfg.toNat
  | .rtcSec => s.thim.rtcSecond % 2 ^ 32
  | .rtcFrac => match s.thim.rtcLatch with | some w => w.toNat | none => s.thim.rtcFrac
  | .rtcTrim => s.thim.rtcTrim.toNat
  | .wdtCfg => s.thim.wdtCfg.toNat
  | .wdtStat => fields [(16, s.thim.wdt1), (0, s.thim.wdt2)]
  | .lifeAon => s.thim.aonHours
  | .lifeActive => s.thim.actHours
  | .lifeTj => twos 32 s.thim.degh
  | .lifeHot => fields [(16, s.thim.above85), (0, s.thim.above105)]
  | .lifeCycles b => nth s.thim.cycles b 0
  | .lifeAge => twos 32 s.thim.age
  | .monScan w => (nth s.thim.scan w 0).toNat
  | .monGain w => (nth s.thim.gain w 0).toNat
  | .monCmp k => (nth s.thim.cmp k 0).toNat
  | .monTable e j => (nth s.thim.table (2 * e + j) 0).toNat
  | .monFilt i => (nth s.thim.filt i 0).toNat
  | .monBuf w => ((s.thim.buf[w]?).getD 0).toNat
  | _ => 0

def readTop (s : State) : Reg → Nat
  | .devId => fields [(16, if s.ident.small then 0x7064 else 0x7128), (8, s.ident.stepping.toNat)]
  | .behavClass => 1
  | .fwVersion => s.ident.fw.toNat
  | .serial hi => half s.ident.serial.toNat hi
  | .feRomId => 0x00015E3A
  | .bootStat =>
    let b := s.boot
    fields [(31, b2n b.ready), (30, b2n b.image), (29, b2n b.fallback), (28, b2n b.storeDisc), (27, b2n b.committed), (24, b.attempts % 8),
      (20, b.hbmFailed.toNat), (0, b.bootMs.toNat)]
  | .regErr => fields [(31, b2n s.regErr.badWidth), (30, b2n s.regErr.unmapped), (29, b2n s.regErr.badValue), (0, s.regErr.offset.toNat)]
  | .secStat =>
    fields [(30, s.sec.life.code), (27, (s.sec.slot).getD 0), (26, b2n s.debugOpen), (25, b2n s.boot.image),
      (20, (s.sec.sessions.toList.filter fun q => q.isOpen).length), (10, s.sec.step)]
  | .flashCtl => fields [(28, s.flash.op.toNat)]
  | .flashAddr => s.flash.addr.toNat
  | .flashStat => fields [(31, b2n s.flash.busy), (30, b2n s.flash.denied), (29, b2n s.flash.err)]
  | .flashBuf w => (nth s.flash.buf w 0).toNat
  | .pairStat =>
    let p := s.pair
    fields [(30, p.role.code), (29, b2n p.warm), (28, b2n p.arb), (27, b2n p.peerOk), (26, b2n s.shadowReady), (16, p.width), (8, p.missed),
      (0, p.takeovers)]
  | .seamStat => fields [(16, s.pair.authErr), (0, s.pair.retry)]
  | .uartCfg => s.mon.cfg.toNat
  | _ => 0

/-- MSI-X table and pending bits of the function that the access goes through (R780, R785). -/
def readMsix (s : State) (port : Nat) : Reg → Nat
  | .msix e w => bits (nth (s.hostPort port).msix e 0).toNat (32 * w + 31) (32 * w)
  | .pba w => half (s.hostPort port).pba.toNat (w = 1)
  | _ => 0

/-- What a register holds, read through a port. -/
def State.readReg (s : State) (port : Nat) (r : Reg) : Nat :=
  if r.absent s.ident.small then 0
  else match r with
  | .cmdBase .. | .cmdWb .. | .cmdCfg .. | .cmdCons .. | .evtBase .. | .evtCfg .. | .evtMod .. | .evtStat .. | .evtWr .. | .dataBase ..
  | .dataCfg .. | .dataCons .. | .evtRoute .. | .dbStat .. => readRing s r
  | .msix .. | .pba .. => readMsix s port r
  | .pinFunc .. | .pinErr | .gpioOut | .gpioIn | .trigCfg .. | .trigStat .. => readPin s r
  | .pllCfg | .pllStat | .coastCfg | .ppsStat | .fabricStat | .clkoutStat | .clkoutCfg .. | .clkoutPhase .. => readClock s r
  | .laneCfg .. | .laneStat .. | .laneEq .. | .eyeCtl | .eyeMap .. => readLane s r
  | .grpStat .. | .grpCnt .. | .acqStat .. | .acqCnt .. | .sweepStat .. | .mpStat .. | .mpCnt .. => readUnit s r
  | .dmaStat .. | .dmaBytes .. | .storeQStat .. | .portStat .. => readDma s r
  | .hbmCfg | .hbmStat | .hbmStack .. | .qosCfg .. | .qosStat .. => readHbm s r
  | .elogStat | .eccCorr .. | .eccUncorr .. | .eccSram | .darnerCfg | .darnerStat | .retireStat | .elogEntry .. => readInteg s r
  | .budgetDef | .pwrStat | .thermCfg | .avsCfg | .avsStat => readPower s r
  | .monCfg | .monBufWp | .monStat | .alarmCfg | .rtcSec | .rtcFrac | .rtcTrim | .wdtCfg | .wdtStat | .lifeAon | .lifeActive | .lifeTj
  | .lifeHot | .lifeCycles .. | .lifeAge | .monScan .. | .monGain .. | .monCmp .. | .monTable .. | .monFilt .. | .monBuf .. => readThim s r
  | .devId | .behavClass | .fwVersion | .serial .. | .feRomId | .bootStat | .sysReset | .regErr | .secStat | .flashCtl | .flashAddr
  | .flashStat | .flashBuf .. | .pairStat | .seamStat | .uartCfg => readTop s r

/-! ### Fields that a read clears (R12, R778) -/

/-- Clear RC fields: `t hi lo` says that the read addresses a byte of the field. -/
def State.clearRc (s : State) (t : Nat → Nat → Bool) (r : Reg) : State :=
  let c := fun (hi lo v : Nat) => if t hi lo then 0 else v
  match r with
  | .evtStat n => { s with io := { s.io with evt := upd s.io.evt n fun r => { r with lost := c 31 16 r.lost } } }
  | .dbStat n => { s with io := { s.io with dbBad := upd s.io.dbBad n fun v => c 15 0 v } }
  | .trigStat n => { s with pins := { s.pins with
      late := upd s.pins.late n fun v => c 31 16 v, merged := upd s.pins.merged n fun v => c 15 0 v } }
  | .ppsStat => s.setClk fun k => { k with missed := c 15 0 k.missed }
  | .fabricStat => s.setClk fun k => { k with switches := c 15 0 k.switches }
  | .laneStat n => s.setLane n fun l => { l with crcErr := c 23 16 l.crcErr, fecCorr := c 15 8 l.fecCorr, shErr := c 7 0 l.shErr }
  | .grpStat g => { s with groups := upd s.groups g fun x => { x with late := c 15 8 x.late, dropped := c 7 0 x.dropped } }
  | .grpCnt g => { s with groups := upd s.groups g fun x => { x with fired := c 31 0 x.fired } }
  | .acqCnt u => s.setAcq u fun a =>
      { a with early := c 31 24 a.early, hold := c 23 16 a.hold, overlap := c 15 8 a.overlap, dropped := c 7 0 a.dropped }
  | .sweepStat u => { s with sweeps := upd s.sweeps u fun x => { x with dropped := c 15 8 x.dropped, evtLimited := c 7 0 x.evtLimited } }
  | .mpCnt k => { s with mps := upd s.mps k fun m => { m with skipped := c 31 16 m.skipped, dropped := c 15 0 m.dropped } }
  | .dmaBytes n => { s with dma := upd s.dma n fun x => { x with kib := c 31 0 x.kib } }
  | .portStat p => { s with io := { s.io with ports := upd s.io.ports p fun x => { x with cplErr := c 15 0 x.cplErr } } }
  | .hbmStat => s.setHbm fun h => { h with bar4Drop := c 7 0 h.bar4Drop }
  | .hbmStack k => s.setHbm fun h => { h with owedMax := upd h.owedMax k fun v => c 23 16 v, forced := upd h.forced k fun v => c 15 0 v }
  | .qosStat p => s.setHbm fun h => { h with panics := upd h.panics p fun v => c 23 16 v, overrun := upd h.overrun p fun v => c 15 0 v }
  | .eccCorr k => s.setInteg fun g => { g with corr := upd g.corr k fun v => c 31 0 v }
  | .eccUncorr k => s.setInteg fun g => { g with uncorr := upd g.uncorr k fun v => c 31 16 v, poisonCnt := upd g.poisonCnt k fun v => c 15 0 v }
  | .eccSram => s.setInteg fun g => { g with sramCorr := c 31 16 g.sramCorr, sramUncorr := c 15 0 g.sramUncorr }
  | .darnerStat => s.setInteg fun g => { g with scrubs := c 15 0 g.scrubs }
  | .monStat => s.setThim fun m => { m with urgDrop := c 31 24 m.urgDrop, logLost := c 23 16 m.logLost, rxDrop := c 15 8 m.rxDrop }
  | .wdtStat => s.setThim fun m => { m with wdt1 := c 31 16 m.wdt1, wdt2 := c 15 0 m.wdt2 }
  | .pairStat => s.setPair fun p => { p with missed := c 15 8 p.missed, takeovers := c 7 0 p.takeovers }
  | .seamStat => s.setPair fun p => { p with authErr := c 31 16 p.authErr, retry := c 15 0 p.retry }
  | .rtcSec => s.setThim fun m => { m with rtcLatch := some (BitVec.ofNat 32 m.rtcFrac) }
  | _ => s

/-- One 32-bit word of a BAR0 read: its value, and the state after it. `touched` are the bytes addressed. Until READY only BOOT_STAT reads
(R734). -/
def State.busRead (s : State) (port w : Nat) (touched : List Nat) : Nat × State :=
  match regAt (4 * w) with
  | none => (0, s)
  | some r =>
    if !s.hasPort port || (!s.serving && r != .bootStat) then (0, s)
    else (s.readReg port r,
      if r.absent s.ident.small then s else s.clearRc (fun hi lo => touched.any fun b => decide (8 * b ≤ hi) && decide (lo ≤ 8 * b + 7)) r)

end Sys2Proof.Machine
end

