-- ==== Sys2Proof/Machine/RegWrite.lean ====
section
/-! DEFINITION. Writes to BAR0 (R48, R101, R114, R122, R382, R699, R778–R788, R805 and the register tables of every chapter). -/

namespace Sys2Proof.Machine

/-! ### Pins (R101, R382, R786) -/

/-- A function code is offered on a pin. -/
def offered (n code : Nat) : Bool :=
  match code with
  | 0 | 1 => true
  | 2 | 3 => decide (n < 16)
  | 4 => inR n 16 19
  | 5 => inR n 20 23
  | 6 => n == 24
  | _ => false

/-- A condition, a pulse, a calibration drive or a Thimble rule uses the pin. -/
def State.pinUsed (s : State) (n : Nat) : Bool :=
  (decide (n < 16) && ((nth s.pins.pulseEnd n none).isSome || !(nth s.pins.queue n []).isEmpty ||
    s.chans.toList.any fun c => c.st != .empty && c.cond.toList.any fun k => k.type == 7 && k.s1 == n)) ||
  (inR n 16 19 && (let v := s.drive (n - 16); v.owner.isSome && v.usePin)) ||
  (inR n 20 23 && s.thim.rules.any fun r => r.on && r.act 2 && r.b 12 == n - 20)

/-- The balls show what changed between two states. -/
def pinsMoved (old new : State) : State :=
  (List.range 32).foldl (fun s n =>
    if (old.pins.drives n || new.pins.drives n) && old.pinLevel n != new.pinLevel n then s.emit (.pin n (new.pinLevel n)) else s) new

/-- A refused pin write (R101). -/
def State.pinLocked (s : State) (n : Nat) : State := { s with pins := { s.pins with lockedWrite := true, errPin := BitVec.ofNat 5 n } }

/-- A write to PIN_FUNC[n]. -/
def State.pinFunc (s : State) (n : Nat) (v : Word) : State :=
  let code := v.toNat % 16
  if s.pinUsed n then s.pinLocked n
  else if !offered n code then { s with pins := { s.pins with badCode := true, errPin := BitVec.ofNat 5 n } }
  else
    let left := s.pins.drives n
    let p := { s.pins with func := upd s.pins.func n fun _ => BitVec.ofNat 4 code }
    let p := if left && !p.drives n then { p with level := setBit p.level n false } else p
    let p := if n < 16 && code = 2 && nth s.pins.func n 0 ≠ 2 then { p with lastEdge := upd p.lastEdge n fun _ => none } else p
    if code = 5 then ({ s with pins := p }).refreshAlarms else pinsMoved s { s with pins := p }

/-- A write to TRIG_IO_CFG[n]. -/
def State.trigCfg (s : State) (n : Nat) (v : Word) : State :=
  if s.pinUsed n then s.pinLocked n
  else if bits v.toNat 23 16 = 0 then s.badValue (0x030100 + 4 * n)
  else pinsMoved s { s with pins := { s.pins with cfg := upd s.pins.cfg n fun _ => v } }

/-! ### Rings, MSI-X -/

/-- Put one word of a 64-bit address. -/
def setHalf (a : BitVec 64) (hi : Bool) (v : Word) : BitVec 64 :=
  if hi then v ++ a.setWidth 32 else a.extractLsb' 32 32 ++ v

/-- A write to EVT_RING_MOD[n] (R84, R805). -/
def State.evtMod (s : State) (n : Nat) (v : Word) : State :=
  let c := bits v.toNat 24 16
  let t := bits v.toNat 9 0
  if !inR c 1 256 || 1000 < t then s.badValue (0x01040C + 0x20 * n)
  else
    let s := { s with io := { s.io with evt := upd s.io.evt n fun r => { r with count := BitVec.ofNat 9 c, timer := BitVec.ofNat 10 t } } }
    if (nth s.io.evt n .reset).en && (nth s.io.evt n .reset).signals then { s with io := s.io.signal n } else s

/-- EVT_ROUTE: the fields of classes 0x00 and 0x0D–0x0F are reserved. -/
def State.evtRoute (s : State) (w : Nat) (v : Word) : State :=
  let dest := fun (c : Nat) => if c / 8 = w && inR c 1 12 then Fin.ofNat 16 (bits v.toNat (4 * (c % 8) + 3) (4 * (c % 8))) else nth s.io.route c 0
  { s with io := { s.io with route := Vector.ofFn fun c => dest c.val } }

/-- A write to the MSI-X table of a port's function; unmasking sends what is pending (R785). -/
def State.msixWrite (s : State) (port e w : Nat) (v : Word) : State :=
  let keep : Nat := 2 ^ 128 - 1 - (2 ^ 32 - 1) * 2 ^ (32 * w)
  let v := if w = 3 then v &&& 1 else if w = 0 then v &&& ~~~3#32 else v
  let put := fun (x : BitVec 128) => (x &&& BitVec.ofNat 128 keep) ||| (v.setWidth 128 <<< (32 * w))
  let s := { s with io := { s.io with ports := upd s.io.ports port fun p => { p with msix := upd p.msix e put } } }
  let x := nth (s.hostPort port).msix e 0
  if !x.getLsbD 96 && (s.hostPort port).pba.getLsbD e then
    ({ s with io := { s.io with ports := upd s.io.ports port fun p => { p with pba := setBit p.pba e false } } }).emit
      (.msix (Fin.ofNat 2 port) e (x.setWidth 64) ((x >>> 64).setWidth 32))
  else s

/-! ### Power (R634) -/

/-- PWR_BUDGET_DEF: until the first POWER_BUDGET it is the budget (R630). -/
def State.budgetDef (s : State) (v : Word) : State :=
  if !inR v.toNat 30000 285000 then s.badValue 0x0A0000
  else
    let s := { s with pau := { s.pau with budgetDef := v } }
    if s.pau.budgetSet then s else ({ s with pau := { s.pau with budget := v.toNat } }).denyUnfit.examineAll

def State.thermCfg (s : State) (v : Word) : State :=
  if bits v.toNat 23 16 ≤ bits v.toNat 31 24 || !inR (bits v.toNat 15 8) 1 15 then s.badValue 0x0A0008
  else (State.thermalStates { s with pau := { s.pau with therm := v &&& 0xFFFFFF00#32 } }).denyUnfit

def State.avsCfg (s : State) (v : Word) : State :=
  let s := { s with pau := { s.pau with avsCfg := v &&& 0x8000007F#32 } }
  { s with pau := { s.pau with avsMoving := s.avsMoves } }

/-! ### One register -/

/-- DARNER_CFG: a PERIOD of 0 is ignored. -/
def State.darnerCfg (s : State) (v : Word) : State :=
  s.setInteg fun g => { g with
    darner := (v &&& 0x80000000#32) ||| ((if bits v.toNat 23 16 = 0 then g.darner else v) &&& 0x00FF0000#32) }

/-- MON_UART_CFG: ignored in OWNED with debug access locked (R738). -/
def State.uartCfg (s : State) (v : Word) : State :=
  if s.sec.life = .owned && s.sec.debugTok.isNone then s
  else if 5 < v.toNat % 8 then s.badValue 0x0D0100 else { s with mon := { s.mon with cfg := v &&& 0xC0000007#32 } }

/-- Write-one-to-clear bits. -/
def State.writeClear (s : State) (v : Word) : Reg → State
  | .regErr => { s with regErr := { s.regErr with
      badWidth := s.regErr.badWidth && !v.getLsbD 31, unmapped := s.regErr.unmapped && !v.getLsbD 30
      badValue := s.regErr.badValue && !v.getLsbD 29 } }
  | .pinErr => { s with pins := { s.pins with
      lockedWrite := s.pins.lockedWrite && !v.getLsbD 31, badCode := s.pins.badCode && !v.getLsbD 30 } }
  | .pllStat => s.setClk fun c => { c with lost := c.lost && !v.getLsbD 29 }
  | .clkoutStat => s.setClk fun c => { c with outLocked := c.outLocked &&& ~~~(v.extractLsb' 16 16) }
  | .hbmStat => s.setHbm fun h => { h with cfgErr := h.cfgErr && !v.getLsbD 11 }
  | .pwrStat => { s with pwr := { s.pwr with l2Timeout := s.pwr.l2Timeout && !v.getLsbD 27 } }
  | .flashStat => s.setFlash fun f => { f with denied := f.denied && !v.getLsbD 30, err := f.err && !v.getLsbD 29 }
  | _ => s

/-- A 32-bit write to a register; registers and fields that are RO or RC are not written. -/
def State.writeReg (s : State) (port : Nat) (v : Word) (r : Reg) : State :=
  let cmd := fun (n : Nat) (f : CmdRing → CmdRing) => if (s.cmdRing n).en then s else { s with io := { s.io with cmd := upd s.io.cmd n f } }
  match r with
  | .sysReset => if v.getLsbD 31 then s.restartDie true else s
  | .cmdBase n hi => cmd n fun c => { c with base := setHalf c.base hi v }
  | .cmdWb n hi => cmd n fun c => { c with wb := setHalf c.wb hi v }
  | .cmdCfg n => s.cmdRingCfg n v
  | .evtBase n hi =>
    if (nth s.io.evt n .reset).en then s
    else { s with io := { s.io with evt := upd s.io.evt n fun r => { r with base := setHalf r.base hi v } } }
  | .evtCfg n => s.evtRingCfg n v
  | .evtMod n => s.evtMod n v
  | .dataBase n hi => if (s.dring n).en then s else s.setDring n fun r => { r with base := setHalf r.base hi v }
  | .dataCfg n => s.dataRingCfg n v
  | .evtRoute w => s.evtRoute w v
  | .msix e w => s.msixWrite port e w v
  | .pinFunc n => s.pinFunc n v
  | .gpioOut => pinsMoved s { s with pins := { s.pins with gpioOut := v } }
  | .trigCfg n => s.trigCfg n v
  | .pllCfg => s.pllCfg v
  | .coastCfg => s.coastCfg v
  | .clkoutCfg n => s.clkoutCfg n v
  | .clkoutPhase n => s.clkoutPhase n v
  | .laneCfg n => s.laneCfg n v
  | .eyeCtl => s.eyeCtl v
  | .hbmCfg => s.hbmCfg v
  | .qosCfg p => s.qosCfg p v
  | .darnerCfg => s.darnerCfg v
  | .budgetDef => s.budgetDef v
  | .thermCfg => s.thermCfg v
  | .avsCfg => s.avsCfg v
  | .avsStat => s.avsStat v
  | .monCfg => s.monCfg v
  | .alarmCfg => s.alarmCfg v
  | .rtcTrim => s.rtcTrim v
  | .wdtCfg => s.wdtCfg v
  | .monScan w => s.monScan w v
  | .monGain w => s.monGain w v
  | .monCmp k => s.monCmp k v
  | .monTable e j => s.monTable e j v
  | .monFilt i => s.monFilt i v
  | .flashCtl => s.flashCtl v
  | .flashAddr => s.setFlash fun f => { f with addr := v }
  | .flashBuf w => s.setFlash fun f => { f with buf := upd f.buf w fun _ => v }
  | .uartCfg => s.uartCfg v
  | r => s.writeClear v r

/-! ### The journal (R699) -/

/-- Set-up registers of the clock, lane, pin function, trigger pin, HBM and Thimble blocks. -/
def Reg.journalled : Reg → Bool
  | .pllCfg | .coastCfg | .clkoutCfg _ | .clkoutPhase _ | .laneCfg _ | .eyeCtl | .pinFunc _ | .trigCfg _ | .hbmCfg | .qosCfg _
  | .monCfg | .alarmCfg | .rtcTrim | .wdtCfg | .monScan _ | .monGain _ | .monCmp _ | .monTable _ _ | .monFilt _ => true
  | _ => false

/-- Registers whose write is ignored whole without an error bit: PLL_S_CFG while it runs, EYE_CTL while a scan runs (R114, R176). -/
def State.ignores (s : State) (v : Word) : Reg → Bool
  | .pllCfg => s.clk.en && v.getLsbD 28
  | .eyeCtl => s.eye.busy
  | _ => false

/-- The error bits that a refused write sets, apart from what they held before. -/
def State.errors (s : State) : Bool × Bool × Bool × BitVec 16 × Bool :=
  (s.regErr.badValue, s.pins.lockedWrite, s.pins.badCode, s.clk.outLocked, s.hbm.cfgErr)

def State.setErrors (s : State) (e : Bool × Bool × Bool × BitVec 16 × Bool) : State :=
  { s with
    regErr := { s.regErr with badValue := e.1 }, pins := { s.pins with lockedWrite := e.2.1, badCode := e.2.2.1 }
    clk := { s.clk with outLocked := e.2.2.2.1 }, hbm := { s.hbm with cfgErr := e.2.2.2.2 } }

/-- The write of a journalled register, and whether it was refused. -/
def State.tryWrite (s : State) (port : Nat) (v : Word) (r : Reg) : State × Bool :=
  let t := (s.setErrors (false, false, false, 0, false)).writeReg port v r
  let e := s.errors
  let x := t.errors
  (t.setErrors (e.1 || x.1, e.2.1 || x.2.1, e.2.2.1 || x.2.2.1, e.2.2.2.1 ||| x.2.2.2.1, e.2.2.2.2 || x.2.2.2.2),
   x.1 || x.2.1 || x.2.2.1 || x.2.2.2.1 != 0 || x.2.2.2.2)

/-- An aligned 32-bit write at an offset (R779). -/
def State.wordWrite (s : State) (port off : Nat) (v : Word) : State :=
  match regAt off with
  | none => { s with regErr := { s.regErr with unmapped := true, offset := BitVec.ofNat 24 off } }
  | some r =>
    if r.absent s.ident.small then s
    else if r.journalled then
      let (t, refused) := s.tryWrite port v r
      if refused || s.ignores v r then t else t.journalReg off v
    else s.writeReg port v r

/-- A host write to BAR0 (R734, R778). -/
def State.busWrite (s : State) (port off width : Nat) (v : BitVec 64) : State :=
  if !s.serving || !s.hasPort port then s
  else if width = 4 && off % 4 = 0 then s.wordWrite port off (v.setWidth 32)
  else if width = 8 && off % 8 = 0 then
    let s := s.wordWrite port off (v.setWidth 32)
    if s.serving then s.wordWrite port (off + 4) (v.extractLsb' 32 32) else s
  else { s with regErr := { s.regErr with badWidth := true, offset := BitVec.ofNat 24 off } }

/-! ### The rows -/

/-- REGISTER_WRITE. -/
def execRegisterWrite (port : Fin 2) (off : BitVec 24) (width : Nat) (value : BitVec 64) (s : State) : Host.Outcome State Fault Refusal :=
  .next (s.busWrite port.val off.toNat width value)

/-- A write that arrives through port 0. -/
def State.write0 (s : State) (off : Nat) (v : Word) : State := s.busWrite 0 off 4 (v.setWidth 64)

/-- PLL_S_ENABLE: a write to PLL_S_CFG that sets EN. -/
def execPllSEnable (value : Word) (s : State) : Host.Outcome State Fault Refusal := .next (s.write0 0x040000 value)

/-- PLL_S_DISABLE: a write to PLL_S_CFG that clears EN. -/
def execPllSDisable (value : Word) (s : State) : Host.Outcome State Fault Refusal := .next (s.write0 0x040000 value)

/-- CLKOUT_ENABLE: a write to CLKOUT_CFG[n] that sets EN. -/
def execClkoutEnable (n : Fin 16) (value : Word) (s : State) : Host.Outcome State Fault Refusal := .next (s.write0 (0x040100 + 8 * n.val) value)

/-- CLKOUT_DISABLE: a write to CLKOUT_CFG[n] that clears EN. -/
def execClkoutDisable (n : Fin 16) (value : Word) (s : State) : Host.Outcome State Fault Refusal := .next (s.write0 (0x040100 + 8 * n.val) value)

def execPinFuncWrite (n : Fin 32) (value : Word) (s : State) : Host.Outcome State Fault Refusal := .next (s.write0 (0x030000 + 4 * n.val) value)

/-- TAP_DISCARD: a write to LANE_CFG[n]. -/
def execTapDiscard (n : Fin 64) (value : Word) (s : State) : Host.Outcome State Fault Refusal := .next (s.write0 (0x050000 + 0x40 * n.val) value)

/-- EYE_SCAN_START: a write to EYE_CTL. -/
def execEyeScanStart (value : Word) (s : State) : Host.Outcome State Fault Refusal := .next (s.write0 0x051000 value)

/-- MON_CONFIG_WRITE: a write to MON_CFG, the sequencer table, the scan mask or the gains (R642). -/
def execMonConfigWrite (off : BitVec 24) (value : Word) (s : State) : Host.Outcome State Fault Refusal :=
  .next (match regAt off.toNat with
    | some .monCfg | some (.monTable _ _) | some (.monScan _) | some (.monGain _) => s.write0 off.toNat value
    | _ => s)

/-! ### Reads -/

/-- Bytes of a BAR0 read of a width at an offset, word by word, the lower address first; and the state after it. -/
def State.busReads (s : State) (port off width : Nat) : List Byte × State :=
  (List.range ((off + width + 3) / 4 - off / 4)).foldl (fun a i =>
    let w := off / 4 + i
    let touched := (List.range 4).filter fun b => decide (off ≤ 4 * w + b) && decide (4 * w + b < off + width)
    let (v, s) := a.2.busRead port w touched
    (a.1 ++ touched.map fun b => BitVec.ofNat 8 (v / 2 ^ (8 * b)), s)) ([], s)

/-- RC_FIELD_READ: a read of a register with RC fields. -/
def execRcFieldRead (port : Fin 2) (off : BitVec 24) (width : Nat) (s : State) : Host.Outcome State Fault Refusal :=
  .next (if !s.hasPort port.val then s
    else
    let (l, s) := s.busReads port.val off.toNat width
    let s := s.emit (.mmio port (BitVec.ofNat 32 (leNat l)))
    if 4 < width then s.emit (.mmio port (BitVec.ofNat 32 (leNat (l.drop 4)))) else s)

/-- RTC_SEC_READ: latches RTC_FRAC (R787). -/
def execRtcSecRead (port : Fin 2) (s : State) : Host.Outcome State Fault Refusal :=
  .next (if !s.hasPort port.val then s
    else
    let (l, s) := s.busReads port.val 0x0B0010 4
    s.emit (.mmio port (BitVec.ofNat 32 (leNat l))))

end Sys2Proof.Machine
end

