-- ==== Sys2Proof/Machine/MonText.lean ====
section
/-! DEFINITION. Text of the serial monitor: numbers, register names, reading a line (R741, R742). -/

namespace Sys2Proof.Machine

/-! ### Numbers (R741) -/

def hexDigit (d : Nat) : Char := Char.ofNat (if d < 10 then 48 + d else 55 + d)

/-- The n lowest hex digits. -/
def hexDigits : (n v : Nat) → List Char
  | 0, _ => []
  | n + 1, v => hexDigits n (v / 16) ++ [hexDigit (v % 16)]

/-- Digits in groups of four from the right. -/
def grouped (l : List Char) : List Char :=
  (l.zipIdx.flatMap fun (c, i) => if i ≠ 0 && (l.length - i) % 4 = 0 then ['_', c] else [c])

/-- n hex digits in the 0x form of the manual. -/
def hex (n v : Nat) : String := "0x" ++ String.ofList (grouped (hexDigits n v))

def dec (v : Nat) : String := toString v

def decI (v : Int) : String := toString v

/-- Name and value pairs of a line. -/
def words (l : List String) : String := String.intercalate " " l

/-! ### Register names -/

/-- A register's name, first offset, and its instances and strides; 0 instances: no index. -/
structure RegName where
  name : String
  base : Nat
  n    : Nat
  step : Nat
  m    : Nat
  sub  : Nat
  deriving DecidableEq, Repr

def rn1 (name : String) (base : Nat) : RegName := ⟨name, base, 0, 0, 0, 0⟩
def rnA (name : String) (base n step : Nat) : RegName := ⟨name, base, n, step, 0, 0⟩

def regNamesA : List RegName :=
  [rn1 "DEV_ID" 0, rn1 "BEHAV_CLASS" 4, rn1 "FW_VERSION" 8, rn1 "DEV_SERIAL_LO" 0x10, rn1 "DEV_SERIAL_HI" 0x14, rn1 "FE_ROM_ID" 0x20,
   rn1 "BOOT_STAT" 0x24, rn1 "SYS_RESET" 0x28, rn1 "REG_ERR" 0x2C,
   rnA "CMD_RING_BASE_LO" 0x010000 16 0x20, rnA "CMD_RING_BASE_HI" 0x010004 16 0x20, rnA "CMD_RING_WB_LO" 0x010008 16 0x20,
   rnA "CMD_RING_WB_HI" 0x01000C 16 0x20, rnA "CMD_RING_CFG" 0x010010 16 0x20, rnA "CMD_RING_CONS" 0x010014 16 0x20,
   rnA "EVT_RING_BASE_LO" 0x010400 16 0x20, rnA "EVT_RING_BASE_HI" 0x010404 16 0x20, rnA "EVT_RING_CFG" 0x010408 16 0x20,
   rnA "EVT_RING_MOD" 0x01040C 16 0x20, rnA "EVT_RING_STAT" 0x010410 16 0x20, rnA "EVT_RING_WR" 0x010414 16 0x20,
   rnA "DATA_RING_BASE_LO" 0x011000 128 0x10, rnA "DATA_RING_BASE_HI" 0x011004 128 0x10, rnA "DATA_RING_CFG" 0x011008 128 0x10,
   rnA "DATA_RING_CONS" 0x01100C 128 0x10, rnA "EVT_ROUTE" 0x011800 2 4, rnA "DB_STAT" 0x012000 160 4]

def regNamesB : List RegName :=
  [rnA "PIN_FUNC" 0x030000 32 4, rn1 "PIN_FUNC_ERR" 0x030080, rn1 "GPIO_OUT" 0x030084, rn1 "GPIO_IN" 0x030088,
   rnA "TRIG_IO_CFG" 0x030100 16 4, rnA "TRIG_IO_STAT" 0x030140 16 4,
   rn1 "PLL_S_CFG" 0x040000, rn1 "PLL_S_STAT" 0x040004, rn1 "CLK_COAST_CFG" 0x040008, rn1 "PPS_STAT" 0x04000C,
   rn1 "FABRIC_PLL_STAT" 0x040010, rn1 "CLKOUT_STAT" 0x040014, rnA "CLKOUT_CFG" 0x040100 16 8, rnA "CLKOUT_PHASE" 0x040104 16 8,
   rnA "LANE_CFG" 0x050000 64 0x40, rnA "LANE_STAT" 0x050004 64 0x40, ⟨"LANE_EQ", 0x050008, 64, 0x40, 13, 4⟩, rn1 "EYE_CTL" 0x051000,
   rnA "EYE_MAP" 0x052000 2048 4, rnA "TRIG_GRP_STAT" 0x060000 64 8, rnA "TRIG_GRP_CNT" 0x060004 64 8,
   rnA "ACQ_STAT" 0x060400 128 8, rnA "ACQ_CNT" 0x060404 128 8, rnA "SWEEP_STAT" 0x060800 2 4, rnA "MP_STAT" 0x060900 16 8,
   rnA "MP_CNT" 0x060904 16 8, rnA "DMA_CH_STAT" 0x070000 64 8, rnA "DMA_CH_BYTES" 0x070004 64 8, rnA "STORE_Q_STAT" 0x070200 32 4,
   rnA "PCIE_PORT_STAT" 0x070300 2 4]

def regNamesC : List RegName :=
  [rn1 "HBM_CFG" 0x080000, rn1 "HBM_STAT" 0x080004, rnA "HBM_STACK" 0x080010 4 4, rnA "HBM_QOS_CFG" 0x080100 12 8,
   rnA "HBM_QOS_STAT" 0x080104 12 8, rn1 "ELOG_STAT" 0x090000, rnA "ECC_CORR" 0x090010 4 4, rnA "ECC_UNCORR" 0x090020 4 4,
   rn1 "ECC_SRAM" 0x090030, rn1 "DARNER_CFG" 0x090034, rn1 "DARNER_STAT" 0x090038, rn1 "RETIRE_STAT" 0x09003C,
   ⟨"ELOG_ENTRY", 0x090400, 32, 0x20, 8, 4⟩, rn1 "PWR_BUDGET_DEF" 0x0A0000, rn1 "PWR_STAT" 0x0A0004, rn1 "THERM_CFG" 0x0A0008,
   rn1 "AVS_CFG" 0x0A000C, rn1 "AVS_STAT" 0x0A0010, rn1 "MON_CFG" 0x0B0000, rn1 "MON_BUF_WP" 0x0B0004, rn1 "MON_STAT" 0x0B0008,
   rn1 "ALARM_CFG" 0x0B000C, rn1 "RTC_SEC" 0x0B0010, rn1 "RTC_FRAC" 0x0B0014, rn1 "RTC_TRIM" 0x0B0018, rn1 "WDT_CFG" 0x0B001C,
   rn1 "WDT_STAT" 0x0B0020, rn1 "LIFE_AON_HOURS" 0x0B0040, rn1 "LIFE_ACTIVE_HOURS" 0x0B0044, rn1 "LIFE_TJ_DEGH" 0x0B0048,
   rn1 "LIFE_HOT_HOURS" 0x0B004C, rnA "LIFE_CYCLES" 0x0B0050 6 4, rn1 "LIFE_AGE" 0x0B0068, rnA "MON_SCAN" 0x0B0080 5 4,
   rnA "MON_GAIN" 0x0B00A0 9 4, rnA "MON_CMP" 0x0B00E0 8 4, ⟨"MON_TABLE", 0x0B0100, 32, 8, 2, 4⟩, rnA "MON_FILT" 0x0B0400 144 4,
   rn1 "SEC_STAT" 0x0C0000, rn1 "FLASH_CTL" 0x0C0100, rn1 "FLASH_ADDR" 0x0C0104, rn1 "FLASH_STAT" 0x0C0108, rnA "FLASH_BUF" 0x0C0200 64 4,
   rn1 "PAIR_STAT" 0x0D0000, rn1 "SEAM_STAT" 0x0D0004, rn1 "MON_UART_CFG" 0x0D0100]

def regNames : List RegName := regNamesA ++ regNamesB ++ regNamesC

/-- Offset of an instance. -/
def RegName.off (r : RegName) (i j : Nat) : Nat := r.base + i * r.step + j * r.sub

/-- Instances in order: (i, j). -/
def RegName.all (r : RegName) : List (Nat × Nat) := (List.range (max 1 r.n)).flatMap fun i => (List.range (max 1 r.m)).map fun j => (i, j)

def index (n i : Nat) : String := if n = 0 then "" else "[" ++ dec i ++ "]"

/-- How a register at an offset is named: by the map, or by its offset. -/
def nameAt (off : Nat) : String :=
  match regNames.findSome? fun r => (r.all.find? fun x => r.off x.1 x.2 == off).map fun x => (r, x) with
  | some (r, (i, j)) => r.name ++ index r.n i ++ index r.m j
  | none => hex 6 off

/-! ### Reading a line -/

def upper (c : Char) : Char := if 'a' ≤ c && c ≤ 'z' then Char.ofNat (c.toNat - 32) else c

/-- A hex digit's value; the caller has made letters upper case. -/
def hexVal (c : Char) : Option Nat :=
  if '0' ≤ c && c ≤ '9' then some (c.toNat - 48) else if 'A' ≤ c && c ≤ 'F' then some (c.toNat - 55) else none

/-- The number that digits of a base spell. -/
def digits (base : Nat) (l : List Char) : Option Nat :=
  if l.isEmpty then none
  else l.foldl (fun a c => a.bind fun v => (hexVal c).bind fun d => if d < base then some (base * v + d) else none) (some 0)

/-- A number: decimal, or hex after 0x with optional underscores. -/
def number (w : List Char) : Option Nat :=
  match w with
  | '0' :: 'X' :: r => digits 16 (r.filter (· != '_'))
  | _ => digits 10 w

/-- Words of a line, in upper case. -/
def wordsOfLine (l : List Byte) : List (List Char) :=
  ((l.map fun b => upper (Char.ofNat b.toNat)).splitOn ' ').filter fun w => !w.isEmpty

/-- An index in brackets, and what follows. -/
def bracket (w : List Char) : Option (Nat × List Char) :=
  match w with
  | '[' :: r => (digits 10 (r.takeWhile (· != ']'))).map fun i => (i, (r.dropWhile (· != ']')).drop 1)
  | _ => none

/-- A register name or offset (R742). -/
def regOffset (w : List Char) : Option Nat :=
  match number w with
  | some v => some v
  | none =>
    let name := w.takeWhile (· != '[')
    let rest := w.dropWhile (· != '[')
    match regNames.find? fun r => r.name.toList == name, bracket rest with
    | some r, none => if r.n = 0 && rest.isEmpty then some r.base else none
    | some r, some (i, tail) =>
      match bracket tail with
      | none => if i < r.n && r.m = 0 && tail.isEmpty then some (r.off i 0) else none
      | some (j, more) => if i < r.n && j < r.m && more.isEmpty then some (r.off i j) else none
    | none, _ => none

end Sys2Proof.Machine
end

