-- ==== Sys2Proof/Machine/Monitor.lean ====
section
/-! DEFINITION. The serial monitor: its commands, the characters it receives, the token exchange (R664, R737–R747). The wording of a reply
beyond the manual's examples is the model's (log entry 23). -/

namespace Sys2Proof.Machine

/-! ### Replies (R740, R741, R745) -/

/-- What a command prints, its status, the optional word, and the state after it. -/
abbrev Reply := List String × Status × String × State

def okReply (lines : List String) (s : State) : Reply := (lines, .ok, "", s)
def errReply (st : Status) (word : String) (s : State) : Reply := ([], st, word, s)

def Status.name : Status → String
  | .ok => "OK" | .badOpcode => "BAD_OPCODE" | .badHandle => "BAD_HANDLE" | .badParam => "BAD_PARAM" | .resourceBusy => "RESOURCE_BUSY"
  | .noCapacity => "NO_CAPACITY" | .powerDenied => "POWER_DENIED" | .powerQueued => "POWER_QUEUED" | .wrongState => "WRONG_STATE"
  | .notStopped => "NOT_STOPPED" | .authFailed => "AUTH_FAILED" | .pairFenced => "PAIR_FENCED" | .memFault => "MEM_FAULT"
  | .pinNotAssigned => "PIN_NOT_ASSIGNED" | .timeout => "TIMEOUT" | .internal => "INTERNAL"

/-- The status line. -/
def statusLine (st : Status) (word : String) : String :=
  if st = .ok then "ok" else words (["err", hex 2 st.code, st.name] ++ if word = "" then [] else [word])

def State.say (s : State) (lines : List String) : State := lines.foldl (fun s l => s.emit (.uart l)) s

/-- Print a reply and the prompt. -/
def State.answerLine (r : Reply) : State := (r.2.2.2.say (r.1 ++ [statusLine r.2.1 r.2.2.1])).emit (.uart "> ")

/-- The monitor is served. -/
def State.monOn (s : State) : Bool := s.serving && s.mon.cfg.getLsbD 31

/-- Every command is served: not OWNED, or unlocked with permission bit 1. -/
def State.monOpen (s : State) : Bool :=
  s.sec.life != .owned || (match s.sec.debugTok with | some (mask, _) => mask.getLsbD 1 | none => false)

/-- Carry out a line: `always` marks help, id and auth. -/
def State.monRun (s : State) (always : Bool) (body : State → Reply) : State :=
  if !s.monOn then s
  else if !always && !s.monOpen then State.answerLine (errReply .authFailed "locked" s)
  else State.answerLine (body s)

/-! ### help, id, rd, wr -/

/-- The commands and their syntax (R742). -/
def monSyntax : List (String × String) :=
  [("help", "help [command]"), ("id", "id"), ("rd", "rd register|offset [count]"), ("wr", "wr register|offset value"),
   ("ring", "ring [cmd|evt|data n]"), ("chan", "chan handle|all"), ("ev", "ev n"), ("log", "log [thim] [sticky]"), ("lanes", "lanes [lane]"),
   ("clk", "clk"), ("pau", "pau"), ("thim", "thim [input]"), ("seal", "seal"), ("sleep", "sleep idle|retain|dormant [mask] [second]"),
   ("wake", "wake"), ("selftest", "selftest rom|crypto|sram|all"), ("auth", "auth challenge|token|lock")]

def helpReply (topic : String) (s : State) : Reply :=
  if topic = "" then okReply (monSyntax.map (·.1)) s
  else match monSyntax.find? fun x => x.1.toList.map upper == topic.toList.map upper with
    | some x => okReply [x.2] s
    | none => errReply .badParam "" s

def Life.name : Life → String
  | .manufacture => "MANUFACTURE" | .unowned => "UNOWNED" | .owned => "OWNED" | .decommissioned => "DECOMMISSIONED"

def idReply (s : State) : Reply :=
  okReply
    [words [if s.ident.small then "TL7064-HB" else "TL7128-HB", "step", hex 2 s.ident.stepping.toNat, "serial", hex 16 s.ident.serial.toNat,
       "fw", hex 8 s.ident.fw.toNat],
     words ["life", s.sec.life.name, "slot", match s.sec.slot with | some k => dec k | none => "none", "class", hex 4 1,
       "debug", if s.debugOpen then "open" else "locked"]] s

/-- rd: BAR0 words, read as the host reads them. -/
def rdReply (off count : Nat) (s : State) : Reply :=
  if !inR count 1 64 || off % 4 ≠ 0 || 2 ^ 24 ≤ off then errReply .badParam "" s
  else
    let (lines, s) := (List.range count).foldl (fun (a : List String × State) i =>
      let (v, s) := a.2.busRead 0 (off / 4 + i) [0, 1, 2, 3]
      (a.1 ++ [words [nameAt (off + 4 * i), "=", hex 8 v]], s)) ([], s)
    okReply lines s

/-- wr: one BAR0 write, with host-write semantics. -/
def wrReply (off : Nat) (v : Word) (s : State) : Reply := okReply [] (s.busWrite 0 off 4 (v.setWidth 64))

/-! ### ring, chan, ev, log -/

def State.dbStat (s : State) (n : Nat) : List String := ["db_stat", dec (nth s.io.dbBad n 0)]

def State.cmdLine (s : State) (n : Nat) : String :=
  let c := s.cmdRing n
  words (["cmd", dec n, if c.en then "enabled" else "disabled", "size", dec (2 ^ c.size), "prod", dec c.prod.toNat, "cons", dec c.cons.toNat] ++ s.dbStat n)

def State.evtLine (s : State) (n : Nat) : String :=
  let r := nth s.io.evt n .reset
  words (["evt", dec n, if r.en then "enabled" else "disabled", "size", dec (2 ^ r.size), "prod", dec r.written.toNat, "cons", dec r.consumed.toNat] ++
    s.dbStat (16 + n))

def State.dataLine (s : State) (n : Nat) : String :=
  let r := s.dring n
  words (["data", dec n, if r.en then "enabled" else "disabled", "size", dec (2 ^ r.size), "prod", dec r.prod.toNat, "cons", dec r.cons.toNat] ++
    s.dbStat (32 + n))

def ringReply (sel : Option RingSel) (s : State) : Reply :=
  okReply (match sel with
    | some (.cmd n) => [s.cmdLine n.val]
    | some (.evt n) => [s.evtLine n.val]
    | some (.data n) => [s.dataLine n.val]
    | none => (List.range 16).map s.cmdLine ++ (List.range 16).map s.evtLine ++ (List.range 128).map s.dataLine) s

def ChanSt.name : ChanSt → String
  | .empty => "EMPTY" | .stopped => "STOPPED" | .running => "RUNNING" | .draining => "DRAINING" | .halted => "HALTED" | .starved => "STARVED"

def State.chanLine (s : State) (i : Nat) : String :=
  let c := s.chan i
  words [hex 8 (s.handleOf 2 i).toNat, c.st.name, "engine", hex 2 c.engines.toNat, "slot", dec c.slot, "pipes", hex 4 c.sp.pipes.toNat, "filter",
    dec c.fgen, "calibration", dec c.calGen]

def chanReply (h : Option Handle) (s : State) : Reply :=
  match h with
  | some h => if s.valid 2 h then okReply [s.chanLine (hIdx h)] s else errReply .badHandle "" s
  | none => okReply (((List.range 128).filter fun i => (s.chan i).st != .empty).map s.chanLine) s

/-- One event record: its 16 first bytes and its data. -/
def EvtRecord.line (r : EvtRecord) : String :=
  words [hex 4 r.code.toNat, "sev", dec r.sev.toNat, "class", hex 2 r.cls.toNat, "handle", hex 8 r.handle.toNat, "time", hex 16 r.time.toNat,
    "data", hex 24 r.data.toNat]

def evReply (n : Nat) (s : State) : Reply := okReply ((nth s.io.evt n .reset).recent.map EvtRecord.line) s

def LogEntry.line (e : LogEntry) : String :=
  words [hex 16 e.loc.toNat, "class", dec e.cls, "flags", hex 2 (b2n e.sticky + 2 * b2n e.isOpen + 4 * b2n e.scrubbed + 8 * b2n e.retired), "corr",
    dec e.corr, "uncorr", dec e.uncorr, "source", hex 2 e.src, "episodes", dec e.episodes, "first", hex 16 e.first.toNat, "last", hex 16 e.last.toNat]

def ThimEntry.line (e : ThimEntry) : String :=
  words ["kind", dec e.kind, "rule", hex 2 e.rule, "input", hex 2 e.input, "value", hex 4 e.value.toNat, "lost", dec e.lost, "time", hex 16 e.time.toNat]

def logReply (thim sticky : Bool) (s : State) : Reply :=
  if thim then okReply (s.thim.log.map ThimEntry.line) s
  else okReply ((s.integ.byAge.filter fun e => !sticky || e.sticky).map LogEntry.line) s

/-! ### lanes, clk, pau, thim, seal -/

def State.laneLine (s : State) (n : Nat) : String := words ["LANE_STAT" ++ index 64 n, hex 8 (s.readReg 0 (.laneStat n))]

def lanesReply (lane : Option Nat) (s : State) : Reply :=
  match lane with
  | none => okReply ((List.range (laneCount s)).map s.laneLine) s
  | some n =>
    if laneCount s ≤ n then errReply .badParam "" s
    else okReply (s.laneLine n :: (List.range 13).map fun k => words ["LANE_EQ" ++ index 64 n ++ index 13 k, hex 8 (s.readReg 0 (.laneEq n k))]) s

/-- A number with a decimal fraction of k digits. -/
def fixed (k v : Nat) : String :=
  dec (v / 10 ^ k) ++ "." ++ String.ofList (List.replicate (k - (dec (v % 10 ^ k)).length) '0') ++ dec (v % 10 ^ k)

def policyName : Nat → String
  | 0 => "hold-phase" | 1 => "slew" | _ => "break"

def clkReply (s : State) : Reply :=
  let c := s.clk.coastCfg.toNat
  okReply
    [words ["PLL_S_STAT", hex 8 (s.readReg 0 .pllStat), "lock", dec (b2n s.clk.lock), "coast", dec (b2n s.clk.coast), "time_suspect",
       dec (b2n s.timeSuspect), "ref", dec (b2n s.clk.refPresent), "pps", dec (b2n s.clk.ppsValid)],
     words ["CLK_COAST_CFG", hex 8 c, policyName (bits c 31 30), dec (bits c 29 20), "ms", fixed 1 (bits c 19 12), "ppm", dec (10 * bits c 11 4), "ps"],
     words ["FABRIC_PLL_STAT", hex 8 (s.readReg 0 .fabricStat), "active", if s.clk.fActive then "F1" else "F0", "switches", dec s.clk.switches],
     words ["time", fixed 6 (s.time.tb * 1000000 / unitS)]] s

def pauReply (s : State) : Reply :=
  let b := s.powerBlock
  let u := fun (o n : Nat) => dec (num b o n)
  okReply [words ["budget_mw", u 0 4, "effective_mw", u 4 4, "static_mw", u 8 4, "granted_mw", u 12 4, "core_mw", u 16 4, "hottest",
    decI s.pau.hottest, "therm", u 21 1, "queued", u 22 2, u 24 2, u 26 2, "oldest_ms", u 28 4]] s

/-- Inputs of the sequence (R638). -/
def Thim.inputs (t : Thim) : List Nat :=
  if t.scanning then t.mask
  else ((List.range (bits t.cfg.toNat 20 16 + 1)).map fun e => bits (t.tableWord e 0) 31 24).eraseDups

def ruleName : RuleSt → String
  | .clear => "clear" | .pending _ => "pending" | .active => "active"

def thimReply (input : Option Nat) (s : State) : Reply :=
  let ins := match input with | some i => [i] | none => s.thim.inputs
  let value := fun (i : Nat) => match (nth s.thim.filters i .reset).last with | some v => decI v | none => "none"
  okReply ((ins.map fun i => words ["input", dec i, value i]) ++
    s.thim.rules.zipIdx.map fun (r, i) => words ["rule", dec i, ruleName r.st, dec r.count]) s

def State.sealLine (s : State) (k : Nat) : String :=
  let x := s.session k
  words ["session", hex 8 (s.handleOf 8 k).toNat, "sink", match x.sink with | some i => dec i | none => "none", "index", dec x.next, "checkpoint",
    dec (x.number - 1)]

def sealReply (s : State) : Reply := okReply (((List.range 16).filter fun k => (s.session k).isOpen).map s.sealLine) s

/-! ### sleep, wake, selftest -/

/-- sleep: as SLEEP, with the checks of the device's role (R669, R671, R742), journalled as a command with opcode 0x79, without a CMD_DONE (R743). -/
def sleepReply (target mask second : Nat) (s : State) : Reply :=
  if s.pair.role = .secondary then errReply .wrongState "" s
  else if s.pair.role = .fenced then errReply .pairFenced "" s
  else if !s.sleepOk target mask second then errReply .badParam "" s
  else if !s.sleepGoes target then errReply .wrongState "" s
  else okReply [] ((s.journal 0 0x79 0 0 (Config.sha384 (pack [(1, target), (1, mask), (8, second)]))).beginSleep target mask second)

def wakeReply (s : State) : Reply :=
  let wakes := s.thim.log.filter fun e => e.kind == 5
  okReply (words ["wake_cause", dec s.pwr.wakeCause.toNat] :: (wakes.drop (wakes.length - 8)).map ThimEntry.line) s

def SelfTest.parts : SelfTest → List SelfTest
  | .all => [.rom, .crypto, .sram]
  | t => [t]

def SelfTest.name : SelfTest → String
  | .rom => "rom" | .crypto => "crypto" | .sram => "sram" | .all => "all"

/-- The SRAM test leaves the product store, the density planes, the pipe stores and the idle MP memories zeroed. -/
def State.sramZero (s : State) : State :=
  { s with
    chans := s.chans.map fun c : Chan => { c.clearProducts with spec := none }
    planes := s.planes.map fun x : Plane => { x with cells := [] }
    mps := s.mps.map fun m : Mp => if m.st = .running then m else { m with mem := [] } }

def selftestReply (which : SelfTest) (failures : List (SelfTest × String)) (s : State) : Reply :=
  if s.pwr.st ≠ .idle then errReply .wrongState "" s
  else
    let tests := SelfTest.parts which
    let line := fun (t : SelfTest) => match failures.find? fun f => f.1 == t with
      | some f => words [SelfTest.name t, "fail", f.2]
      | none => words [SelfTest.name t, "pass"]
    let s := if tests.contains SelfTest.sram then s.sramZero else s
    okReply (tests.map line) (s.journal 0 0xFF 0 0 (Config.sha384 (tests.map fun t => match t with | .rom => 0 | .crypto => 1 | _ => 2)))

/-! ### auth (R715, R746, R747) -/

/-- Sixteen groups of four hex digits in two lines. -/
def challengeLines (v : BitVec 256) : List String :=
  let b := (le 32 v.toNat)
  let group := fun (i : Nat) => String.ofList (hexDigits 2 ((b[2 * i]?).getD 0).toNat ++ hexDigits 2 ((b[2 * i + 1]?).getD 0).toNat)
  [words ((List.range 8).map group), words ((List.range 8).map fun i => group (8 + i))]

def authChallengeReply (s : State) : Reply :=
  if s.sec.monBlock.any fun t => decide (s.now < t) then errReply .authFailed "" s
  else
    let (v, s) := s.issueChallenge
    okReply (challengeLines v ++ ["expires 60 s"]) s

/-- The token's fields pass, it answers an open challenge, and the owner has signed it. -/
def State.tokenOk (s : State) (t : List Byte) : Bool :=
  t.length == 4772 && s.sec.life == .owned && inR (num t 0x2C 4) 1 86400 && decide (num t 0x28 1 < 4) &&
  s.lifeFresh (BitVec.ofNat 64 (num t 0 8)) (BitVec.ofNat 256 (num t 8 32)) && s.byOwner (t.take 0x30) (slice 0x30 4723 t)

def authTokenReply (t : List Byte) (s : State) : Reply :=
  if s.tokenOk t then
    let n := (s.sec.sessions.toList.filter fun x => x.isOpen).length
    let mask := BitVec.ofNat 8 (num t 0x28 1)
    let expiry := num t 0x2C 4
    okReply [words ["token", dec t.length, "bytes mask", hex 2 mask.toNat, "expiry", dec expiry, "s"], words ["sessions closed", dec n]]
      ((s.spend (BitVec.ofNat 256 (num t 8 32))).unlock mask expiry)
  else errReply .authFailed "" (s.setSec fun x => { x with monBlock := some (s.now + 10000000000) })

def authLockReply (s : State) : Reply := okReply [] s.relock

/-! ### The rows: a line of the monitor, carried out -/

def execMonHelp (topic : String) (s : State) : Host.Outcome State Fault Refusal := .next (s.monRun true (helpReply topic))
def execMonId (s : State) : Host.Outcome State Fault Refusal := .next (s.monRun true idReply)
def execMonRd (off : BitVec 24) (count : Nat) (s : State) : Host.Outcome State Fault Refusal := .next (s.monRun false (rdReply off.toNat count))
def execMonWr (off : BitVec 24) (value : Word) (s : State) : Host.Outcome State Fault Refusal := .next (s.monRun false (wrReply off.toNat value))
def execMonRing (sel : Option RingSel) (s : State) : Host.Outcome State Fault Refusal := .next (s.monRun false (ringReply sel))
def execMonChan (h : Option Handle) (s : State) : Host.Outcome State Fault Refusal := .next (s.monRun false (chanReply h))
def execMonEv (n : Fin 16) (s : State) : Host.Outcome State Fault Refusal := .next (s.monRun false (evReply n.val))
def execMonLog (thim : Bool) (sticky : Bool) (s : State) : Host.Outcome State Fault Refusal := .next (s.monRun false (logReply thim sticky))
def execMonLanes (lane : Option (Fin 64)) (s : State) : Host.Outcome State Fault Refusal := .next (s.monRun false (lanesReply (lane.map Fin.val)))
def execMonClk (s : State) : Host.Outcome State Fault Refusal := .next (s.monRun false clkReply)
def execMonPau (s : State) : Host.Outcome State Fault Refusal := .next (s.monRun false pauReply)
def execMonThim (input : Option (Fin 144)) (s : State) : Host.Outcome State Fault Refusal := .next (s.monRun false (thimReply (input.map Fin.val)))
def execMonSeal (s : State) : Host.Outcome State Fault Refusal := .next (s.monRun false sealReply)
def execMonSleep (target : Nat) (mask : Byte) (second : Nat) (s : State) : Host.Outcome State Fault Refusal :=
  .next (s.monRun false (sleepReply target mask.toNat second))
def execMonWake (s : State) : Host.Outcome State Fault Refusal := .next (s.monRun false wakeReply)
def execMonSelftest (which : SelfTest) (failures : List (SelfTest × String)) (s : State) : Host.Outcome State Fault Refusal :=
  .next (s.monRun false (selftestReply which failures))
def execMonAuthChallenge (s : State) : Host.Outcome State Fault Refusal := .next (s.monRun true authChallengeReply)
def execMonAuthToken (token : List Byte) (s : State) : Host.Outcome State Fault Refusal := .next (s.monRun true (authTokenReply token))
def execMonAuthLock (s : State) : Host.Outcome State Fault Refusal := .next (s.monRun true authLockReply)

/-! ### Lines from MON_RX (R739, R740, R746) -/

def is (w : List Char) (t : String) : Bool := w == t.toList.map upper

/-- A self-test that the serial line asks for: whether each test fails, and where, is open: free values (log entry 2). -/
def freeSelftest (which : SelfTest) (s : State) : Reply :=
  let (failures, s) := (SelfTest.parts which).foldl (fun (a : List (SelfTest × String) × State) t =>
    let (v, s) := a.2.freeTake
    (if v.getLsbD 63 then a.1 ++ [(t, hex 8 (v.toNat % 2 ^ 32))] else a.1, s)) ([], s)
  selftestReply which failures s

def selfTestOf (w : List Char) : Option SelfTest :=
  if is w "rom" then some .rom else if is w "crypto" then some .crypto else if is w "sram" then some .sram
  else if is w "all" then some .all else none

def targetOf (w : List Char) : Nat := if is w "idle" then 1 else if is w "retain" then 2 else if is w "dormant" then 3 else 0

def badLine (s : State) : State := s.monRun true (errReply .badParam "")

/-- auth token begins: the lines that follow are its groups. -/
def State.tokenStart (s : State) : State := { s with mon := { s.mon with token := some [] } }

/-- auth and its argument. -/
def authLine (args : List (List Char)) (s : State) : State :=
  match args with
  | [w] =>
    if is w "challenge" then s.monRun true authChallengeReply
    else if is w "token" then s.tokenStart
    else if is w "lock" then s.monRun true authLockReply
    else badLine s
  | _ => badLine s

/-- ring and its arguments. -/
def ringLine (args : List (List Char)) (s : State) : State :=
  match args with
  | [] => s.monRun false (ringReply none)
  | [k, n] =>
    match digits 10 n with
    | some n =>
      if is k "cmd" && n < 16 then s.monRun false (ringReply (some (.cmd (Fin.ofNat 16 n))))
      else if is k "evt" && n < 16 then s.monRun false (ringReply (some (.evt (Fin.ofNat 16 n))))
      else if is k "data" && n < 128 then s.monRun false (ringReply (some (.data (Fin.ofNat 128 n))))
      else badLine s
    | none => badLine s
  | _ => badLine s

/-- rd and wr. -/
def accessLine (write : Bool) (args : List (List Char)) (s : State) : State :=
  match write, args with
  | false, [r] => match regOffset r with | some o => s.monRun false (rdReply o 1) | none => badLine s
  | false, [r, n] => match regOffset r, number n with | some o, some n => s.monRun false (rdReply o n) | _, _ => badLine s
  | true, [r, v] =>
    match regOffset r, number v with
    | some o, some v => if v < 2 ^ 32 && o < 2 ^ 24 then s.monRun false (wrReply o (BitVec.ofNat 32 v)) else badLine s
    | _, _ => badLine s
  | _, _ => badLine s

/-- A number as the only argument, below a limit. -/
def oneNumber (args : List (List Char)) (limit : Nat) : Option Nat :=
  match args with
  | [n] => match number n with | some v => if v < limit then some v else none | none => none
  | _ => none

/-- Carry out a line's words; access is checked before the arguments (R745). -/
def State.runWords (s : State) (cmd : List Char) (args : List (List Char)) : State :=
  let none' := args.isEmpty
  let small := fun (limit : Nat) (f : Nat → State → Reply) => match oneNumber args limit with | some n => s.monRun false (f n) | none => badLine s
  let plain := fun (f : State → Reply) => if none' then s.monRun false f else badLine s
  if is cmd "help" then
    match args with | [] => s.monRun true (helpReply "") | [t] => s.monRun true (helpReply (String.ofList t)) | _ => badLine s
  else if is cmd "id" then (if none' then s.monRun true idReply else badLine s)
  else if is cmd "auth" then authLine args s
  else if !(monSyntax.any fun x => is cmd x.1) then s.monRun true (errReply .badOpcode "")
  else if !s.monOpen then s.monRun true (errReply .authFailed "locked")
  else if is cmd "rd" then accessLine false args s
  else if is cmd "wr" then accessLine true args s
  else if is cmd "ring" then ringLine args s
  else if is cmd "chan" then
    (if args.any fun w => is w "all" then s.monRun false (chanReply none) else small (2 ^ 32) fun n => chanReply (some (BitVec.ofNat 32 n)))
  else if is cmd "ev" then small 16 evReply
  else if is cmd "log" then
    (if args.all fun w => is w "thim" || is w "sticky" then
      s.monRun false (logReply (args.any fun w => is w "thim") (args.any fun w => is w "sticky"))
    else badLine s)
  else if is cmd "lanes" then (if none' then s.monRun false (lanesReply none) else small 64 fun n => lanesReply (some n))
  else if is cmd "clk" then plain clkReply
  else if is cmd "pau" then plain pauReply
  else if is cmd "thim" then (if none' then s.monRun false (thimReply none) else small 144 fun n => thimReply (some n))
  else if is cmd "seal" then plain sealReply
  else if is cmd "sleep" then
    match args with
    | [t] => s.monRun false (sleepReply (targetOf t) 0 0)
    | [t, m] => match number m with | some m => s.monRun false (sleepReply (targetOf t) m 0) | none => badLine s
    | [t, m, u] => match number m, number u with | some m, some u => s.monRun false (sleepReply (targetOf t) m u) | _, _ => badLine s
    | _ => badLine s
  else if is cmd "wake" then plain wakeReply
  else match args with
    | [w] => match selfTestOf w with | some t => s.monRun false (freeSelftest t) | none => badLine s
    | _ => badLine s

/-- Bytes of groups of four hex digits; none when a character or a group is not of that form. -/
def groupBytes : List (List Char) → Option (List Byte)
  | [] => some []
  | w :: r =>
    match w.map hexVal, groupBytes r with
    | [some a, some b, some c, some d], some l => some (BitVec.ofNat 8 (16 * a + b) :: BitVec.ofNat 8 (16 * c + d) :: l)
    | _, _ => none

/-- The token's lines have ended. -/
def State.tokenEnd (s : State) (text : List Byte) : State :=
  let s := { s with mon := { s.mon with token := none } }
  let ws := ((text.map fun b => Char.ofNat b.toNat).splitOn ' ').filter fun w => !w.isEmpty
  s.monRun true (authTokenReply ((groupBytes ws).getD []))

/-- A line ends. -/
def State.lineEnd (s : State) : State :=
  let l := s.mon.line
  let long := s.mon.tooLong
  let s := { s with mon := { s.mon with line := [], tooLong := false } }
  let s' := match s.thim.rxCut with | some (k + 1) => s.setThim fun t => { t with rxCut := some k } | _ => s
  if s.thim.rxCut = some 0 then State.answerLine (errReply .timeout "overrun" (s.setThim fun t => { t with rxCut := none }))
  else if long then State.answerLine (errReply .badParam "line" s')
  else match s'.mon.token with
    | some text => if l.isEmpty then s'.tokenEnd text else { s' with mon := { s'.mon with token := some (text ++ l ++ [32]) } }
    | none =>
      match wordsOfLine l with
      | [] => s'.emit (.uart "> ")
      | cmd :: args => s'.runWords cmd args

/-- A character reaches the monitor. -/
def State.monChar (s : State) (c : Byte) : State :=
  let s := if s.mon.cfg.getLsbD 30 then s.emit (.uart (String.ofList [Char.ofNat c.toNat])) else s
  if c = 13 || c = 10 then s.lineEnd
  else if c = 8 || c = 127 then { s with mon := { s.mon with line := s.mon.line.dropLast } }
  else if 128 ≤ s.mon.line.length then { s with mon := { s.mon with tooLong := true } }
  else { s with mon := { s.mon with line := s.mon.line ++ [c] } }

/-- The monitor takes what the FIFO holds, as long as it runs. -/
def State.monDrain : (fuel : Nat) → (s : State) → State
  | 0, s => s
  | n + 1, s =>
    match s.thim.rx with
    | [] => s
    | c :: r => if s.monOn then ((s.setThim fun t => { t with rx := r }).monChar c).monDrain n else s

/-- Some character that ends a line. -/
def endsLine (c : Byte) : Bool := c == 13 || c == 10

/-- A character arrives: it may wake the device, and enters the FIFO or is dropped (R664, R740). -/
def State.receive (s : State) (c : Byte) : State :=
  let s := s.wakeSleep 1
  if 64 ≤ s.thim.rx.length then
    (s.setThim fun t => { t with
      rxDrop := satN 255 (t.rxDrop + 1)
      rxCut := match t.rxCut with | some k => some k | none => some (t.rx.filter endsLine).length }).thimLog 6 255 255 0
  else s.setThim fun t => { t with rx := t.rx ++ [c] }

/-- MON_RX_CHARACTER. -/
def execMonRxCharacter (c : Byte) (s : State) : Host.Outcome State Fault Refusal := .next ((s.receive c).monDrain 65)

end Sys2Proof.Machine
end

