-- ==== Sys2Proof/Machine/Opcodes.lean ====
section
/-! DEFINITION. The opcodes (R103): a descriptor of each, as the device takes it from its command ring. What a command does is its body. -/

namespace Sys2Proof.Machine

/-! ### NOP, DEV_INFO, an unassigned opcode -/

def execNop (d : Desc) (s : State) : Host.Outcome State Fault Refusal := .next (runCommand .nop d s)
def execDevInfo (d : Desc) (s : State) : Host.Outcome State Fault Refusal := .next (runCommand .devInfo d s)
/-- BAD_OPCODE: an opcode byte of the table is not this command. -/
def execBadOpcode (code : BitVec 8) (d : Desc) (s : State) : Host.Outcome State Fault Refusal :=
  if Op.ofCode code = .bad code then .next (runCommand (.bad code) d s) else .fault .illFormed

/-! ### Power -/

def execPowerBudget (d : Desc) (s : State) : Host.Outcome State Fault Refusal := .next (runCommand .powerBudget d s)
def execPowerQuery (d : Desc) (s : State) : Host.Outcome State Fault Refusal := .next (runCommand .powerQuery d s)
def execSleep (d : Desc) (s : State) : Host.Outcome State Fault Refusal := .next (runCommand .sleep d s)

/-! ### Time -/

def execSyncSchedule (d : Desc) (s : State) : Host.Outcome State Fault Refusal := .next (runCommand .syncSchedule d s)
def execTimeSet (d : Desc) (s : State) : Host.Outcome State Fault Refusal := .next (runCommand .timeSet d s)

/-! ### Streams -/

def execStreamOpen (d : Desc) (s : State) : Host.Outcome State Fault Refusal := .next (runCommand .streamOpen d s)
def execStreamClose (d : Desc) (s : State) : Host.Outcome State Fault Refusal := .next (runCommand .streamClose d s)
def execStreamStatus (d : Desc) (s : State) : Host.Outcome State Fault Refusal := .next (runCommand .streamStatus d s)

/-! ### Regions -/

def execRegionAlloc (d : Desc) (s : State) : Host.Outcome State Fault Refusal := .next (runCommand .regionAlloc d s)
def execRegionFree (d : Desc) (s : State) : Host.Outcome State Fault Refusal := .next (runCommand .regionFree d s)

/-! ### Channels -/

def execChanCreate (d : Desc) (s : State) : Host.Outcome State Fault Refusal := .next (runCommand .chanCreate d s)
def execChanDestroy (d : Desc) (s : State) : Host.Outcome State Fault Refusal := .next (runCommand .chanDestroy d s)
def execChanTune (d : Desc) (s : State) : Host.Outcome State Fault Refusal := .next (runCommand .chanTune d s)
def execChanFilter (d : Desc) (s : State) : Host.Outcome State Fault Refusal := .next (runCommand .chanFilter d s)
def execChanStart (d : Desc) (s : State) : Host.Outcome State Fault Refusal := .next (runCommand .chanStart d s)
def execChanStop (d : Desc) (s : State) : Host.Outcome State Fault Refusal := .next (runCommand .chanStop d s)
def execChanResume (d : Desc) (s : State) : Host.Outcome State Fault Refusal := .next (runCommand .chanResume d s)

/-! ### Spectra -/

def execChanSpectral (d : Desc) (s : State) : Host.Outcome State Fault Refusal := .next (runCommand .chanSpectral d s)

/-! ### Products -/

def execChanProducts (d : Desc) (s : State) : Host.Outcome State Fault Refusal := .next (runCommand .chanProducts d s)

/-! ### Triggers -/

def execTrigSet (d : Desc) (s : State) : Host.Outcome State Fault Refusal := .next (runCommand .trigSet d s)
def execTrigMaskLoad (d : Desc) (s : State) : Host.Outcome State Fault Refusal := .next (runCommand .trigMaskLoad d s)
def execTrigCombine (d : Desc) (s : State) : Host.Outcome State Fault Refusal := .next (runCommand .trigCombine d s)

/-! ### Acquisition -/

def execAcqSet (d : Desc) (s : State) : Host.Outcome State Fault Refusal := .next (runCommand .acqSet d s)
def execAcqArm (d : Desc) (s : State) : Host.Outcome State Fault Refusal := .next (runCommand .acqArm d s)
def execAcqDisarm (d : Desc) (s : State) : Host.Outcome State Fault Refusal := .next (runCommand .acqDisarm d s)
def execAcqForce (d : Desc) (s : State) : Host.Outcome State Fault Refusal := .next (runCommand .acqForce d s)

/-! ### Sweeps -/

def execSweepSet (d : Desc) (s : State) : Host.Outcome State Fault Refusal := .next (runCommand .sweepSet d s)
def execSweepRun (d : Desc) (s : State) : Host.Outcome State Fault Refusal := .next (runCommand .sweepRun d s)

/-! ### Density -/

def execDensSet (d : Desc) (s : State) : Host.Outcome State Fault Refusal := .next (runCommand .densSet d s)
def execDensSnapshot (d : Desc) (s : State) : Host.Outcome State Fault Refusal := .next (runCommand .densSnapshot d s)

/-! ### Calibration -/

def execCalSet (d : Desc) (s : State) : Host.Outcome State Fault Refusal := .next (runCommand .calSet d s)
def execCalTableLoad (d : Desc) (s : State) : Host.Outcome State Fault Refusal := .next (runCommand .calTableLoad d s)
def execCalFreeze (d : Desc) (s : State) : Host.Outcome State Fault Refusal := .next (runCommand .calFreeze d s)

/-! ### Sinks -/

def execSinkBind (d : Desc) (s : State) : Host.Outcome State Fault Refusal := .next (runCommand .sinkBind d s)
def execSinkUnbind (d : Desc) (s : State) : Host.Outcome State Fault Refusal := .next (runCommand .sinkUnbind d s)
def execStoreQueueAttach (d : Desc) (s : State) : Host.Outcome State Fault Refusal := .next (runCommand .storeQueueAttach d s)
def execDmaRestart (d : Desc) (s : State) : Host.Outcome State Fault Refusal := .next (runCommand .dmaRestart d s)

/-! ### Measurement processors -/

def execMpLoad (d : Desc) (s : State) : Host.Outcome State Fault Refusal := .next (runCommand .mpLoad d s)
def execMpStart (d : Desc) (s : State) : Host.Outcome State Fault Refusal := .next (runCommand .mpStart d s)
def execMpStop (d : Desc) (s : State) : Host.Outcome State Fault Refusal := .next (runCommand .mpStop d s)

/-! ### Memory and the error log -/

def execMemRetire (d : Desc) (s : State) : Host.Outcome State Fault Refusal := .next (runCommand .memRetire d s)
def execLogRead (d : Desc) (s : State) : Host.Outcome State Fault Refusal := .next (runCommand .logRead d s)
def execLogClear (d : Desc) (s : State) : Host.Outcome State Fault Refusal := .next (runCommand .logClear d s)

/-! ### Sealing -/

def execSealOpen (d : Desc) (s : State) : Host.Outcome State Fault Refusal := .next (runCommand .sealOpen d s)
def execSealCheckpoint (d : Desc) (s : State) : Host.Outcome State Fault Refusal := .next (runCommand .sealCheckpoint d s)
def execSealClose (d : Desc) (s : State) : Host.Outcome State Fault Refusal := .next (runCommand .sealClose d s)

/-! ### The pair -/

def execPairJoin (d : Desc) (s : State) : Host.Outcome State Fault Refusal := .next (runCommand .pairJoin d s)
def execPairRole (d : Desc) (s : State) : Host.Outcome State Fault Refusal := .next (runCommand .pairRole d s)
def execPairStatus (d : Desc) (s : State) : Host.Outcome State Fault Refusal := .next (runCommand .pairStatus d s)

/-! ### Thimble -/

def execAonRules (d : Desc) (s : State) : Host.Outcome State Fault Refusal := .next (runCommand .aonRules d s)

end Sys2Proof.Machine
end

