-- ==== Sys2Proof/Machine/PairRows.lean ====
section
/-! DEFINITION. The pair's events: heartbeats, the loss of the peer, takeover, Seam frames, mirrored commands (R667, R668, R672–R687). -/

namespace Sys2Proof.Machine

/-! ### Loss of the peer (R680–R684) -/

/-- PAIR_LOST (R687). -/
def State.pairLost (s : State) (cause : Nat) : State :=
  s.note .pairLost 0 [(1, cause), (1, s.pair.role.code), (2, 0), (4, satN (2 ^ 32 - 1) s.pair.missedTotal), (4, 0)]

/-- Power for an object that a warm takeover starts: at once, or when the PAU grants it. -/
def State.startWarm (s : State) (op : Op) (d : Desc) (h : Handle) (cls cost : Nat) : State :=
  let need := needOf op h d
  let s := s.toActive
  let wait := fun (s : State) => s.setMirror fun m => { m with waiting := m.waiting ++ [(op, d, h)] }
  match s.powerAnswer cls cost true with
  | .granted => (wait (s.charge need cost s.now)).shadowGrant h
  | .spaced due => wait ((s.charge need cost due).enqueue cls ⟨need, cost, none, h, due, true, none⟩)
  | _ => wait (s.enqueue cls ⟨need, cost, none, h, s.now, false, some s.now⟩)

/-- A warm takeover opens the streams and starts the channels (R684). -/
def State.warmStart (s : State) : State :=
  let m := s.pair.mirror
  let s := m.opened.foldl (fun s (i, d) => s.startWarm .streamOpen d (s.handleOf 1 i) 0 (400 * (s.stream i).par.l)) s
  let s := m.running.foldl (fun s (i, d) => s.startWarm .chanStart d (s.handleOf 2 i) 1 (s.chanCost i)) s
  s.setMirror fun m => { m with opened := [], running := [] }

/-- The secondary takes over (R682–R684). The announcement's duration, up to 100 µs past the sample, is a free value (log entry 2). -/
def State.takeover (s : State) : State :=
  let since := (s.now - s.pair.lastBeat) / 1000
  let warm := s.pair.warm
  let dups := if warm then 0 else sumN ((List.range 128).map fun k => if (s.sink k).bound then s.resent k else 0)
  let s := (s.seamOff.setRole .solo).releaseCal
  let s := s.takeSinks (!warm)
  let s := s.takeRings
  let s := (List.range 16).foldl (fun s n => if (nth s.io.evt n .reset).en then s.fillers n else s) s
  let (v, s) := s.freeTake
  let s := s.note .pairFailover 0 [(1, 0), (1, b2n warm), (2, 0), (4, since + v.toNat % 101), (4, dups)]
  let s := s.resendDone
  let s := { s with sec := { s.sec with sessions := s.sec.sessions.map fun x : Session => if x.isOpen then { x with paired := true } else x } }
  let s := (s.setPair fun p => { p with takeovers := satN 255 (p.takeovers + 1) }).journal 4 0xFF 0 0 (Config.sha384 [])
  if warm then s.warmStart else s

/-- The device goes on with PAIR_ARB asserted. -/
def State.alone (s : State) (cause : Nat) : State :=
  match s.pair.role with
  | .primary => ((s.seamOff.setRole .solo).pairLost cause).commitAll
  | .secondary => s.takeover
  | _ => s

/-- The peer is declared lost: PAIR_ARB is sampled (R680). -/
def State.losePeer (s : State) (cause : Nat) : State :=
  let s := s.setPair fun p => { p with peerOk := false }
  if s.pair.arb then s.alone cause
  else s.setPair fun p => { p with waitArb := some (s.now + 10000 * p.arbWait) }

/-- The device belongs to a pair and has not lost its peer. -/
def State.inPair (s : State) : Bool := (s.pair.role == .primary || s.pair.role == .secondary) && s.pair.waitArb.isNone

/-- A heartbeat of the peer (R628, R678). -/
def State.heartbeat (s : State) (wake : Bool) : State :=
  if !s.inPair then s
  else
    let s := s.setPair fun p => { p with lastBeat := s.now, missedRun := 0, peerOk := true }
    if wake then s.wakeIdle 4 else s

def execHeartbeatReceived (wake : Bool) (s : State) : Host.Outcome State Fault Refusal := .next (s.heartbeat wake)

/-- HEARTBEAT_MISSED: 10 µs have passed without one; at the third the peer is lost. -/
def execHeartbeatMissed (s : State) : Host.Outcome State Fault Refusal :=
  .next (if !s.inPair then s
    else
      let s := s.until (s.pair.lastBeat + 10000 * (s.pair.missedRun + 1))
      let s := s.setPair fun p =>
        { p with missed := satN 255 (p.missed + 1), missedTotal := p.missedTotal + 1, missedRun := p.missedRun + 1 }
      if 3 ≤ s.pair.missedRun then s.losePeer 0 else s)

/-- HEARTBEAT_SEND: every 10 µs; once a second the primary's time base offset goes first (R675). The offset that the device measures is a
free value (log entry 2). -/
def execHeartbeatSend (s : State) : Host.Outcome State Fault Refusal :=
  .next (if !s.inPair then s
    else
      let sec := s.time.tb / unitS
      let s := if s.pair.role = .primary && sec ≠ s.pair.offsetSec then
          let (v, s) := s.freeTake
          let ps := sx 32 v.toNat
          (s.setPair fun p => { p with offsetSec := sec, offsetPs := ps }).emit (.seam (.timeOffset ps))
        else s
      s.emit (.seam (.heartbeat (s.pwr.st == .active))))

/-- ARB_WAIT_EXPIRY: PAIR_ARB was not asserted in time; the device fences itself (R680, R681). -/
def execArbWaitExpiry (s : State) : Host.Outcome State Fault Refusal :=
  .next (match s.pair.waitArb with
    | none => s
    | some t =>
      let s := s.until t
      ((s.setRole .fenced).seamOff).pairLost 2)

/-- PAIR_ARB_ASSERT: while the peer is lost and the device waits, it goes on, with the cause for which it waits; while the Seam is up, the change
has no effect yet (R680). -/
def execPairArbAssert (s : State) : Host.Outcome State Fault Refusal :=
  let s' := s.setPair fun p => { p with arb := true }
  .next (if s.pair.waitArb.isSome then (s'.setPair fun p => { p with waitArb := none }).alone (b2n !s.pair.trained) else s')

/-! ### The link (R667, R668) -/

/-- SEAM_TRAINING_DONE with the number of lanes that trained: a join goes on with its offer, or fails; a pair whose link cannot train again
has lost its peer. -/
def execSeamTrainingDone (ok : Fin 9) (s : State) : Host.Outcome State Fault Refusal :=
  let w := seamWidth ok.val
  .next (match s.joining with
    | some (r, f) =>
      if w = 0 then s.joinFails r .timeout
      else
        let s := (s.setPair fun p => { p with trained := true, width := w }).emit (.seam (s.offer f.d))
        if s.pair.agreed then s.joined r f.d else s
    | none =>
      if !s.inPair then s
      else if w = 0 then (s.setPair fun p => { p with trained := false, width := 0 }).losePeer 1
      else s.setPair fun p => { p with trained := true, width := w })

/-- SEAM_RETRANSMIT: a frame was lost; the last one sent goes again (log entry 22). -/
def execSeamRetransmit (s : State) : Host.Outcome State Fault Refusal :=
  .next (if !s.pair.trained then s
    else
      let s := s.setPair fun p => { p with retry := satN 65535 (p.retry + 1) }
      match s.io.out.reverse.findSome? fun e => match e with | .seam f => some f | _ => none with
      | some f => s.emit (.seam f)
      | none => s)

/-! ### Mirrored commands (R672, R673) -/

/-- The primary's command arrives at the secondary. -/
def State.takeMirrored (s : State) (op : Op) (d : Desc) (data : List Byte) (h : Handle) : State :=
  if s.pair.role ≠ .secondary || unmirrored s op d then s
  else (s.setMirror fun m => { m with late := m.late ++ [(op, d, data, h)] }).shadowTurn

def execMirroredCommand (op : Op) (d : Desc) (data : List Byte) (h : Handle) (s : State) : Host.Outcome State Fault Refusal :=
  .next (s.takeMirrored op d data h)

/-- The secondary's status arrives at the primary: both execute, or neither (R672, R673). -/
def State.takeStatus (s : State) (r : Nat) (code : Byte) : State :=
  match s.pair.role, s.waitsAt r .mirror with
  | .primary, some f =>
    if code = 0 then s.commit r
    else
      let s := s.setPair fun p =>
        { p with longest := max p.longest (s.now - f.since), divTag := f.d.tag, divOp := f.op.code, divSt := code, diverged := true }
      (s.unclaim r f.handle).complete r (Status.ofCode code.toNat) 0 0 f.d.handle
  | _, _ => s

def execMirrorStatusReceived (ring : Fin 16) (status : Byte) (s : State) : Host.Outcome State Fault Refusal :=
  .next (s.takeStatus ring.val status)

/-- The former secondary becomes primary at a switchover: it goes on from the mirrored counts, without DUP (R685); warm, it opens the streams
and starts the channels (R669). -/
def State.switchedIn (s : State) : State :=
  let s := s.takeSinks false
  let s := (s.setRole .primary).takeRings
  let s := s.releaseCal
  let s := if s.pair.warm then s.warmStart else s
  s.setMirror fun m => { Mirror.reset with waiting := m.waiting }

/-- SEAM_FRAME_RECEIVED: a frame that fails authentication is discarded and counted; the others act by their kind. -/
def execSeamFrameReceived (authentic : Bool) (f : SeamFrame) (s : State) : Host.Outcome State Fault Refusal :=
  .next (if !authentic then s.setPair fun p => { p with authErr := satN 65535 (p.authErr + 1) }
    else match f with
    | .joinOffer serial peer role mode rate fw lifecycle agrees => s.joinOffer serial peer role mode rate fw lifecycle agrees
    | .heartbeat wake => s.heartbeat wake
    | .command op d data h => s.takeMirrored op d data h
    | .status r code => s.takeStatus r.val code
    | .dissolve => if s.inPair then s.dissolved else s
    | .switchover => if s.pair.role = .secondary then s.switchedIn else s
    | .timeOffset ps => if s.pair.role = .secondary then s.setPair fun p => { p with offsetPs := -ps } else s
    | .copied _ => s
    | f => if s.pair.role = .secondary then s.mirrored f else s)

end Sys2Proof.Machine
end

