-- ==== Sys2Proof/Machine/Dispatch.lean ====
section
/-! DEFINITION. The dispatcher: one arm for each command. -/

namespace Sys2Proof.Machine

/-- The effect of a command on everything but the queue. -/
def exec (i : Instr) (s : State) : Host.Outcome State Fault Refusal :=
  match i with
  | .commandDoorbell port off width value slots => Sys2Proof.Machine.execCommandDoorbell port off width value slots s
  | .eventDoorbell port off width value => Sys2Proof.Machine.execEventDoorbell port off width value s
  | .dataDoorbell port off width value slots => Sys2Proof.Machine.execDataDoorbell port off width value slots s
  | .badOpcode code d => Sys2Proof.Machine.execBadOpcode code d s
  | .nop d => Sys2Proof.Machine.execNop d s
  | .devInfo d => Sys2Proof.Machine.execDevInfo d s
  | .powerBudget d => Sys2Proof.Machine.execPowerBudget d s
  | .powerQuery d => Sys2Proof.Machine.execPowerQuery d s
  | .syncSchedule d => Sys2Proof.Machine.execSyncSchedule d s
  | .timeSet d => Sys2Proof.Machine.execTimeSet d s
  | .streamOpen d => Sys2Proof.Machine.execStreamOpen d s
  | .streamClose d => Sys2Proof.Machine.execStreamClose d s
  | .streamStatus d => Sys2Proof.Machine.execStreamStatus d s
  | .regionAlloc d => Sys2Proof.Machine.execRegionAlloc d s
  | .regionFree d => Sys2Proof.Machine.execRegionFree d s
  | .memRetire d => Sys2Proof.Machine.execMemRetire d s
  | .chanCreate d => Sys2Proof.Machine.execChanCreate d s
  | .chanDestroy d => Sys2Proof.Machine.execChanDestroy d s
  | .chanTune d => Sys2Proof.Machine.execChanTune d s
  | .chanFilter d => Sys2Proof.Machine.execChanFilter d s
  | .chanSpectral d => Sys2Proof.Machine.execChanSpectral d s
  | .chanProducts d => Sys2Proof.Machine.execChanProducts d s
  | .chanStart d => Sys2Proof.Machine.execChanStart d s
  | .chanStop d => Sys2Proof.Machine.execChanStop d s
  | .chanResume d => Sys2Proof.Machine.execChanResume d s
  | .trigSet d => Sys2Proof.Machine.execTrigSet d s
  | .trigCombine d => Sys2Proof.Machine.execTrigCombine d s
  | .trigMaskLoad d => Sys2Proof.Machine.execTrigMaskLoad d s
  | .acqSet d => Sys2Proof.Machine.execAcqSet d s
  | .acqArm d => Sys2Proof.Machine.execAcqArm d s
  | .acqDisarm d => Sys2Proof.Machine.execAcqDisarm d s
  | .acqForce d => Sys2Proof.Machine.execAcqForce d s
  | .sweepSet d => Sys2Proof.Machine.execSweepSet d s
  | .sweepRun d => Sys2Proof.Machine.execSweepRun d s
  | .densSet d => Sys2Proof.Machine.execDensSet d s
  | .densSnapshot d => Sys2Proof.Machine.execDensSnapshot d s
  | .calSet d => Sys2Proof.Machine.execCalSet d s
  | .calTableLoad d => Sys2Proof.Machine.execCalTableLoad d s
  | .calFreeze d => Sys2Proof.Machine.execCalFreeze d s
  | .sinkBind d => Sys2Proof.Machine.execSinkBind d s
  | .sinkUnbind d => Sys2Proof.Machine.execSinkUnbind d s
  | .storeQueueAttach d => Sys2Proof.Machine.execStoreQueueAttach d s
  | .dmaRestart d => Sys2Proof.Machine.execDmaRestart d s
  | .mpLoad d => Sys2Proof.Machine.execMpLoad d s
  | .mpStart d => Sys2Proof.Machine.execMpStart d s
  | .mpStop d => Sys2Proof.Machine.execMpStop d s
  | .logRead d => Sys2Proof.Machine.execLogRead d s
  | .logClear d => Sys2Proof.Machine.execLogClear d s
  | .sealOpen d => Sys2Proof.Machine.execSealOpen d s
  | .sealCheckpoint d => Sys2Proof.Machine.execSealCheckpoint d s
  | .sealClose d => Sys2Proof.Machine.execSealClose d s
  | .pairJoin d => Sys2Proof.Machine.execPairJoin d s
  | .pairRole d => Sys2Proof.Machine.execPairRole d s
  | .pairStatus d => Sys2Proof.Machine.execPairStatus d s
  | .aonRules d => Sys2Proof.Machine.execAonRules d s
  | .sleep d => Sys2Proof.Machine.execSleep d s
  | .powerGrant => Sys2Proof.Machine.execPowerGrant s
  | .powerQueueTimeout cls pos => Sys2Proof.Machine.execPowerQueueTimeout cls pos s
  | .grantSpacingExpiry => Sys2Proof.Machine.execGrantSpacingExpiry s
  | .cmdRingEnable n value => Sys2Proof.Machine.execCmdRingEnable n value s
  | .cmdRingDisable n value => Sys2Proof.Machine.execCmdRingDisable n value s
  | .evtRingEnable n value => Sys2Proof.Machine.execEvtRingEnable n value s
  | .evtRingDisable n value => Sys2Proof.Machine.execEvtRingDisable n value s
  | .dataRingEnable n value => Sys2Proof.Machine.execDataRingEnable n value s
  | .dataRingDisable n value => Sys2Proof.Machine.execDataRingDisable n value s
  | .pllSEnable value => Sys2Proof.Machine.execPllSEnable value s
  | .pllSDisable value => Sys2Proof.Machine.execPllSDisable value s
  | .clkoutEnable n value => Sys2Proof.Machine.execClkoutEnable n value s
  | .clkoutDisable n value => Sys2Proof.Machine.execClkoutDisable n value s
  | .pinFuncWrite n value => Sys2Proof.Machine.execPinFuncWrite n value s
  | .tapDiscard n value => Sys2Proof.Machine.execTapDiscard n value s
  | .eyeScanStart value => Sys2Proof.Machine.execEyeScanStart value s
  | .eyeScanDone counts => Sys2Proof.Machine.execEyeScanDone counts s
  | .sysResetDie value => Sys2Proof.Machine.execSysResetDie value s
  | .flashRead value => Sys2Proof.Machine.execFlashRead value s
  | .flashProgram value => Sys2Proof.Machine.execFlashProgram value s
  | .flashErase value => Sys2Proof.Machine.execFlashErase value s
  | .flashSelect value => Sys2Proof.Machine.execFlashSelect value s
  | .flashOperationDone failed => Sys2Proof.Machine.execFlashOperationDone failed s
  | .avsFaultClear value => Sys2Proof.Machine.execAvsFaultClear value s
  | .rtcSecRead port => Sys2Proof.Machine.execRtcSecRead port s
  | .rcFieldRead port off width => Sys2Proof.Machine.execRcFieldRead port off width s
  | .monConfigWrite off value => Sys2Proof.Machine.execMonConfigWrite off value s
  | .registerWrite port off width value => Sys2Proof.Machine.execRegisterWrite port off width value s
  | .refinAbsent cause => Sys2Proof.Machine.execRefinAbsent cause s
  | .refinPresent => Sys2Proof.Machine.execRefinPresent s
  | .phaseOffsetMeasured ps => Sys2Proof.Machine.execPhaseOffsetMeasured ps s
  | .slewEnd => Sys2Proof.Machine.execSlewEnd s
  | .coastWindowExpiry => Sys2Proof.Machine.execCoastWindowExpiry s
  | .coastDriftExceeded ppb => Sys2Proof.Machine.execCoastDriftExceeded ppb s
  | .pllSPhaseError => Sys2Proof.Machine.execPllSPhaseError s
  | .crystalStopped => Sys2Proof.Machine.execCrystalStopped s
  | .pllSLock => Sys2Proof.Machine.execPllSLock s
  | .ppsEdge offsetNs => Sys2Proof.Machine.execPpsEdge offsetNs s
  | .ppsEdgeMissing => Sys2Proof.Machine.execPpsEdgeMissing s
  | .syncEpoch ring => Sys2Proof.Machine.execSyncEpoch ring s
  | .timeSetLoad ring => Sys2Proof.Machine.execTimeSetLoad ring s
  | .timeSetTimeout ring => Sys2Proof.Machine.execTimeSetTimeout ring s
  | .fabricPllSwitch pauseNs => Sys2Proof.Machine.execFabricPllSwitch pauseNs s
  | .fabricPllRelock => Sys2Proof.Machine.execFabricPllRelock s
  | .safeStateExit => Sys2Proof.Machine.execSafeStateExit s
  | .laneStageComplete lane info => Sys2Proof.Machine.execLaneStageComplete lane info s
  | .laneStageTimeout lane => Sys2Proof.Machine.execLaneStageTimeout lane s
  | .releasePoint stream latest arrivalNs sub => Sys2Proof.Machine.execReleasePoint stream latest arrivalNs sub s
  | .laneLockLoss lane cause => Sys2Proof.Machine.execLaneLockLoss lane cause s
  | .multiblockReceived stream mb => Sys2Proof.Machine.execMultiblockReceived stream mb s
  | .channelOutput ch err => Sys2Proof.Machine.execChannelOutput ch err s
  | .retuneApply ch => Sys2Proof.Machine.execRetuneApply ch s
  | .detectorWindowEnd ch => Sys2Proof.Machine.execDetectorWindowEnd ch s
  | .channelDrainDone ch => Sys2Proof.Machine.execChannelDrainDone ch s
  | .spectrumComplete ch err => Sys2Proof.Machine.execSpectrumComplete ch err s
  | .largeTransformComplete ch run => Sys2Proof.Machine.execLargeTransformComplete ch run s
  | .swapBoundary ch => Sys2Proof.Machine.execSwapBoundary ch s
  | .intervalBoundary ch lost => Sys2Proof.Machine.execIntervalBoundary ch lost s
  | .pairPartnerTimeout ch => Sys2Proof.Machine.execPairPartnerTimeout ch s
  | .skBlockEnd ch lost => Sys2Proof.Machine.execSkBlockEnd ch lost s
  | .densityFrameBoundary plane lost => Sys2Proof.Machine.execDensityFrameBoundary plane lost s
  | .calOnStart drive => Sys2Proof.Machine.execCalOnStart drive s
  | .calOnEnd drive => Sys2Proof.Machine.execCalOnEnd drive s
  | .calPeriodEnd drive => Sys2Proof.Machine.execCalPeriodEnd drive s
  | .calDerivationDone drive => Sys2Proof.Machine.execCalDerivationDone drive s
  | .calSwap drive => Sys2Proof.Machine.execCalSwap drive s
  | .trigIoEdge pin level => Sys2Proof.Machine.execTrigIoEdge pin level s
  | .triggerDecision g => Sys2Proof.Machine.execTriggerDecision g s
  | .trigIoTimedDrive pin => Sys2Proof.Machine.execTrigIoTimedDrive pin s
  | .trigIoPulseEnd pin => Sys2Proof.Machine.execTrigIoPulseEnd pin s
  | .sweepBlockDecided u run => Sys2Proof.Machine.execSweepBlockDecided u run s
  | .sweepFlushPeriod u => Sys2Proof.Machine.execSweepFlushPeriod u s
  | .holdoffEnd u => Sys2Proof.Machine.execHoldoffEnd u s
  | .captureComplete u lost zeroed => Sys2Proof.Machine.execCaptureComplete u lost zeroed s
  | .chunkClose u lost zeroed => Sys2Proof.Machine.execChunkClose u lost zeroed s
  | .arrStepUp u => Sys2Proof.Machine.execArrStepUp u s
  | .arrStepDown u => Sys2Proof.Machine.execArrStepDown u s
  | .mpInstruction c err => Sys2Proof.Machine.execMpInstruction c err s
  | .mpInputDelivery c => Sys2Proof.Machine.execMpInputDelivery c s
  | .mpMailboxWake c => Sys2Proof.Machine.execMpMailboxWake c s
  | .mpOutputRecordWrite c => Sys2Proof.Machine.execMpOutputRecordWrite c s
  | .mpWatchdogExpiry c => Sys2Proof.Machine.execMpWatchdogExpiry c s
  | .bar4Read port addr len errs => Sys2Proof.Machine.execBar4Read port addr len errs s
  | .bar4Write port addr data => Sys2Proof.Machine.execBar4Write port addr data s
  | .regionZeroingDone ring => Sys2Proof.Machine.execRegionZeroingDone ring s
  | .stackWakeDone s4 => Sys2Proof.Machine.execStackWakeDone s4 s
  | .refreshDue pc => Sys2Proof.Machine.execRefreshDue pc s
  | .qosPanicEntry p s4 => Sys2Proof.Machine.execQosPanicEntry p s4 s
  | .qosPanicExit p s4 => Sys2Proof.Machine.execQosPanicExit p s4 s
  | .retrainDue pc => Sys2Proof.Machine.execRetrainDue pc s
  | .partialWrite loc off data old => Sys2Proof.Machine.execPartialWrite loc off data old s
  | .darnerScrub loc outcome => Sys2Proof.Machine.execDarnerScrub loc outcome s
  | .darnerPatrolBurst errs => Sys2Proof.Machine.execDarnerPatrolBurst errs s
  | .sramPatrol errs => Sys2Proof.Machine.execSramPatrol errs s
  | .persistentStoreSave ok => Sys2Proof.Machine.execPersistentStoreSave ok s
  | .mgmtCoreReload => Sys2Proof.Machine.execMgmtCoreReload s
  | .sinkPacingStart k => Sys2Proof.Machine.execSinkPacingStart k s
  | .bufferCloseTime k => Sys2Proof.Machine.execBufferCloseTime k s
  | .confirmReadDone k r => Sys2Proof.Machine.execConfirmReadDone k r s
  | .nvmeCompletion q r ok => Sys2Proof.Machine.execNvmeCompletion q r ok s
  | .nvmeCommandTimeout q r => Sys2Proof.Machine.execNvmeCommandTimeout q r s
  | .cornerTurnBlockEmit k => Sys2Proof.Machine.execCornerTurnBlockEmit k s
  | .cornerTurnWaitExpiry k => Sys2Proof.Machine.execCornerTurnWaitExpiry k s
  | .pcieLinkDown port => Sys2Proof.Machine.execPcieLinkDown port s
  | .pcieLinkUp port speed width => Sys2Proof.Machine.execPcieLinkUp port speed width s
  | .portReset port => Sys2Proof.Machine.execPortReset port s
  | .l1EntryRequest port => Sys2Proof.Machine.execL1EntryRequest port s
  | .interruptTimerExpiry n => Sys2Proof.Machine.execInterruptTimerExpiry n s
  | .thermalSensorRead temps => Sys2Proof.Machine.execThermalSensorRead temps s
  | .criticalArrStep => Sys2Proof.Machine.execCriticalArrStep s
  | .shedTimer => Sys2Proof.Machine.execShedTimer s
  | .avsStep ok => Sys2Proof.Machine.execAvsStep ok s
  | .pcieL2Entry port => Sys2Proof.Machine.execPcieL2Entry port s
  | .l2Timeout => Sys2Proof.Machine.execL2Timeout s
  | .wakeIn => Sys2Proof.Machine.execWakeIn s
  | .scheduledWake => Sys2Proof.Machine.execScheduledWake s
  | .perstNDeassert port => Sys2Proof.Machine.execPerstNDeassert port s
  | .monConversionDone code => Sys2Proof.Machine.execMonConversionDone code s
  | .monComparatorTrip k => Sys2Proof.Machine.execMonComparatorTrip k s
  | .thimbleLogFlush => Sys2Proof.Machine.execThimbleLogFlush s
  | .rcOscillatorCalibration => Sys2Proof.Machine.execRcOscillatorCalibration s
  | .watchdogStage1 => Sys2Proof.Machine.execWatchdogStage1 s
  | .watchdogStage2 => Sys2Proof.Machine.execWatchdogStage2 s
  | .vddAonLow => Sys2Proof.Machine.execVddAonLow s
  | .monRxCharacter c => Sys2Proof.Machine.execMonRxCharacter c s
  | .monHelp topic => Sys2Proof.Machine.execMonHelp topic s
  | .monId => Sys2Proof.Machine.execMonId s
  | .monRd off count => Sys2Proof.Machine.execMonRd off count s
  | .monWr off value => Sys2Proof.Machine.execMonWr off value s
  | .monRing sel => Sys2Proof.Machine.execMonRing sel s
  | .monChan h => Sys2Proof.Machine.execMonChan h s
  | .monEv n => Sys2Proof.Machine.execMonEv n s
  | .monLog thim sticky => Sys2Proof.Machine.execMonLog thim sticky s
  | .monLanes lane => Sys2Proof.Machine.execMonLanes lane s
  | .monClk => Sys2Proof.Machine.execMonClk s
  | .monPau => Sys2Proof.Machine.execMonPau s
  | .monThim input => Sys2Proof.Machine.execMonThim input s
  | .monSeal => Sys2Proof.Machine.execMonSeal s
  | .monSleep target mask second => Sys2Proof.Machine.execMonSleep target mask second s
  | .monWake => Sys2Proof.Machine.execMonWake s
  | .monSelftest which failures => Sys2Proof.Machine.execMonSelftest which failures s
  | .monAuthChallenge => Sys2Proof.Machine.execMonAuthChallenge s
  | .monAuthToken token => Sys2Proof.Machine.execMonAuthToken token s
  | .monAuthLock => Sys2Proof.Machine.execMonAuthLock s
  | .debugGrantExpiry => Sys2Proof.Machine.execDebugGrantExpiry s
  | .heartbeatReceived wake => Sys2Proof.Machine.execHeartbeatReceived wake s
  | .heartbeatMissed => Sys2Proof.Machine.execHeartbeatMissed s
  | .arbWaitExpiry => Sys2Proof.Machine.execArbWaitExpiry s
  | .pairArbAssert => Sys2Proof.Machine.execPairArbAssert s
  | .seamFrameReceived authentic f => Sys2Proof.Machine.execSeamFrameReceived authentic f s
  | .seamRetransmit => Sys2Proof.Machine.execSeamRetransmit s
  | .mirroredCommand op d data h => Sys2Proof.Machine.execMirroredCommand op d data h s
  | .mirrorStatusReceived ring status => Sys2Proof.Machine.execMirrorStatusReceived ring status s
  | .sealCheckpointTimer k => Sys2Proof.Machine.execSealCheckpointTimer k s
  | .checkpointWrite k => Sys2Proof.Machine.execCheckpointWrite k s
  | .getVersion port => Sys2Proof.Machine.execGetVersion port s
  | .getCapabilities port => Sys2Proof.Machine.execGetCapabilities port s
  | .negotiateAlgorithms port => Sys2Proof.Machine.execNegotiateAlgorithms port s
  | .getDigests port => Sys2Proof.Machine.execGetDigests port s
  | .getCertificate port off len => Sys2Proof.Machine.execGetCertificate port off len s
  | .challenge port nonce => Sys2Proof.Machine.execChallenge port nonce s
  | .getMeasurements port index => Sys2Proof.Machine.execGetMeasurements port index s
  | .claim r => Sys2Proof.Machine.execClaim r s
  | .release r => Sys2Proof.Machine.execRelease r s
  | .enrolPair r => Sys2Proof.Machine.execEnrolPair r s
  | .decommission r => Sys2Proof.Machine.execDecommission r s
  | .debugToken r => Sys2Proof.Machine.execDebugToken r s
  | .porNAssert => Sys2Proof.Machine.execPorNAssert s
  | .porNRelease => Sys2Proof.Machine.execPorNRelease s
  | .xt32CrystalStart => Sys2Proof.Machine.execXt32CrystalStart s
  | .bootReady b => Sys2Proof.Machine.execBootReady b s
  | .bootStartTimeout => Sys2Proof.Machine.execBootStartTimeout s
  | .dmaBeat k err => Sys2Proof.Machine.execDmaBeat k err s
  | .hostReadCompletion target r => Sys2Proof.Machine.execHostReadCompletion target r s
  | .laneColdRestart lane => Sys2Proof.Machine.execLaneColdRestart lane s
  | .standbyPllLockLoss => Sys2Proof.Machine.execStandbyPllLockLoss s
  | .monComparatorRearm k => Sys2Proof.Machine.execMonComparatorRearm k s
  | .hbmStackTemperature s4 celsius => Sys2Proof.Machine.execHbmStackTemperature s4 celsius s
  | .mpStopDrainTimeout ring => Sys2Proof.Machine.execMpStopDrainTimeout ring s
  | .sinkUnbindDrainTimeout ring => Sys2Proof.Machine.execSinkUnbindDrainTimeout ring s
  | .pairJoinTimeout ring => Sys2Proof.Machine.execPairJoinTimeout ring s
  | .seamTrainingDone ok => Sys2Proof.Machine.execSeamTrainingDone ok s
  | .switchoverTimeout ring => Sys2Proof.Machine.execSwitchoverTimeout ring s
  | .heartbeatSend => Sys2Proof.Machine.execHeartbeatSend s
  | .lifetimeCounterUpdate => Sys2Proof.Machine.execLifetimeCounterUpdate s
  | .powerStateEntryDone => Sys2Proof.Machine.execPowerStateEntryDone s
  | .pwrEnFall => Sys2Proof.Machine.execPwrEnFall s

end Sys2Proof.Machine
end

