-- ==== Sys2Proof/Machine/Idle.lean ====
section
/-! DEFINITION. What a step does on an empty queue. -/

namespace Sys2Proof.Machine

/-- One nanosecond of the fabric clock, the time base and the RTC. -/
def tick (s : State) : State := s.pass 1

/-- A step on an empty queue (log entry 1): a nanosecond passes, the journal entry of register writes that is due is written, firmware takes
a turn, and the monitor takes the characters that wait (R72, R699, R743). -/
def idle (s : State) : State := (tick s).journalRegs.turnAll.monDrain 65

end Sys2Proof.Machine
end

