-- ==== Sys2Proof/Safety.lean ====
section
/-! DEFINITION. What counts as a safe run, and the terms the statements use: when a ring's command is carried out as soon as it comes,
what it starts from, and which parts of the state a step leaves alone. -/

namespace Sys2Proof

open Sys2Proof.Machine

/-- The step at a state completes: it neither faults nor is refused. -/
def Completes (s : State) : Prop := ∃ t, step s = .next t

/-- The state a ring's command starts from: its descriptor fetched and accepted, nothing of its effect yet (R41, R70, R80). -/
def accepted (op : Op) (d : Desc) (s : State) : State := (s.fetched d.ring.val).accept d.ring.val op d

/-- Conditions under which a ring's command is accepted as soon as it comes: the ring is enabled, the device serves its rings, nothing of
the ring waits, it is the ring's turn, firmware may accept (R69, R70, R72, R80). -/
structure Offered (op : Op) (d : Desc) (s : State) : Prop where
  enabled : (s.cmdRing d.ring.val).en = true
  serves  : s.serving = true
  first   : ((s.fetched d.ring.val).cmdRing d.ring.val).backlog = []
  turn    : (s.fetched d.ring.val).turnOf d.ring.val = true
  accepts : (s.fetched d.ring.val).canAccept d.ring.val op d = true

/-- Conditions under which an accepted command goes on to its own checks on this device: the checks before them pass (R67, R93, R669, R671)
and the command is not one that a primary mirrors first (R672). -/
structure Ready (op : Op) (d : Desc) (s : State) : Prop extends Offered op d s where
  passes  : precheck op d (accepted op d s) = none
  alone   : (accepted op d s).pair.role = .primary → unmirrored (accepted op d s) op d = true

/-- The PAU grants a request of a class and cost at once; a command that needs power also takes an IDLE device to ACTIVE (R606, R628). -/
abbrev GrantedNow (s : State) (cls cost : Nat) (wait : Bool) : Prop := s.toActive.powerAnswer cls cost wait = .granted

/-- The state with such a grant issued. -/
def withGrant (s : State) (n : Need) (cost : Nat) : State := s.toActive.charge n cost s.toActive.now

/-- The row of a ring command of the opcode table; any other opcode byte is BAD_OPCODE's. -/
def ringInstr (op : Op) (d : Desc) : Instr :=
  match op with
  | .nop => .nop d | .devInfo => .devInfo d | .powerBudget => .powerBudget d | .powerQuery => .powerQuery d
  | .syncSchedule => .syncSchedule d | .timeSet => .timeSet d | .streamOpen => .streamOpen d | .streamClose => .streamClose d
  | .streamStatus => .streamStatus d | .regionAlloc => .regionAlloc d | .regionFree => .regionFree d | .memRetire => .memRetire d
  | .chanCreate => .chanCreate d | .chanDestroy => .chanDestroy d | .chanTune => .chanTune d | .chanFilter => .chanFilter d
  | .chanSpectral => .chanSpectral d | .chanProducts => .chanProducts d | .chanStart => .chanStart d | .chanStop => .chanStop d
  | .chanResume => .chanResume d | .trigSet => .trigSet d | .trigCombine => .trigCombine d | .trigMaskLoad => .trigMaskLoad d
  | .acqSet => .acqSet d | .acqArm => .acqArm d | .acqDisarm => .acqDisarm d | .acqForce => .acqForce d | .sweepSet => .sweepSet d
  | .sweepRun => .sweepRun d | .densSet => .densSet d | .densSnapshot => .densSnapshot d | .calSet => .calSet d
  | .calTableLoad => .calTableLoad d | .calFreeze => .calFreeze d | .sinkBind => .sinkBind d | .sinkUnbind => .sinkUnbind d
  | .storeQueueAttach => .storeQueueAttach d | .dmaRestart => .dmaRestart d | .mpLoad => .mpLoad d | .mpStart => .mpStart d
  | .mpStop => .mpStop d | .logRead => .logRead d | .logClear => .logClear d | .sealOpen => .sealOpen d
  | .sealCheckpoint => .sealCheckpoint d | .sealClose => .sealClose d | .pairJoin => .pairJoin d | .pairRole => .pairRole d
  | .pairStatus => .pairStatus d | .aonRules => .aonRules d | .sleep => .sleep d | .bad c => .badOpcode c d

/-- The parts of the state, but for the queue of commands. -/
inductive Part where
  | free | now | io | ident | boot | regErr | pins | clk | time | lanes | eye | streams | chans | created | planes | drives
  | groups | sweeps | acqs | mps | hbm | regions | integ | store | sinks | dma | storeQ | pau | pwr | thim | pair | sec | flash | mon
  deriving DecidableEq, Repr

/-- A part is the same in two states. -/
def Part.same (s t : State) : Part → Prop
  | .free => t.free = s.free | .now => t.now = s.now | .io => t.io = s.io | .ident => t.ident = s.ident | .boot => t.boot = s.boot
  | .regErr => t.regErr = s.regErr | .pins => t.pins = s.pins | .clk => t.clk = s.clk | .time => t.time = s.time
  | .lanes => t.lanes = s.lanes | .eye => t.eye = s.eye | .streams => t.streams = s.streams | .chans => t.chans = s.chans
  | .created => t.created = s.created | .planes => t.planes = s.planes | .drives => t.drives = s.drives
  | .groups => t.groups = s.groups | .sweeps => t.sweeps = s.sweeps | .acqs => t.acqs = s.acqs | .mps => t.mps = s.mps
  | .hbm => t.hbm = s.hbm | .regions => t.regions = s.regions | .integ => t.integ = s.integ | .store => t.store = s.store
  | .sinks => t.sinks = s.sinks | .dma => t.dma = s.dma | .storeQ => t.storeQ = s.storeQ | .pau => t.pau = s.pau
  | .pwr => t.pwr = s.pwr | .thim => t.thim = s.thim | .pair => t.pair = s.pair | .sec => t.sec = s.sec
  | .flash => t.flash = s.flash | .mon => t.mon = s.mon

/-- The frame: every part but those listed is the same, and so is the queue of commands. -/
def Kept (changed : List Part) (s t : State) : Prop := t.pending = s.pending ∧ ∀ p, p ∉ changed → p.same s t

/-- The parts that a final completion may change: the control path, the mirrored completions, the journal. -/
def completion : List Part := [.io, .pair, .sec]

end Sys2Proof
end

