-- ==== Sys2Proof/Certificates/Slice0/Obligations.lean ====
section
/-! DEFINITION. The statements for the provers. -/

open Sys2Proof Sys2Proof.Machine

/-- A step with a command at the front of the queue is that command's meaning on the state with the queue's rest. (The queue is the
model's own, log entry 1.) (R41, R72) -/
def Obligations.StepRunsFront : Prop :=
  ∀ (c : Instr) (rest : List Instr) (s : State), step { s with pending := c :: rest } = exec c { s with pending := rest }

/-- With no command waiting a step is one nanosecond of the block: its engines run, the journal entry of register writes that is due is
made, firmware takes a turn, the monitor sends. (A design choice of the model, log entry 1.) (R41, R72, R699) -/
def Obligations.EmptyQueueLetsTimePass : Prop :=
  ∀ s : State, step { s with pending := [] } = .next (idle { s with pending := [] })

/-- After reset the logic die is starting and serves nothing, the memory lists nothing, the queue is empty, no ring is enabled, no
stream, channel, region, sink, group, sweep unit, processor or session is allocated, the set-up registers hold the values the
register tables state, and BOOT's power state is IDLE. (Values that the model chose, log entries 5 to 12, are not stated here.)
(Set-up registers, Start-up, R526, R530, R630, R731, R733) -/
def Obligations.ResetState : Prop :=
  State.reset.pending = [] ∧ State.reset.hbm.mem = [] ∧ State.reset.serving = false ∧ State.reset.boot.die = .booting ∧
  State.reset.pwr.st = .idle ∧ State.reset.clk.cfg = 0x41400500#32 ∧ State.reset.clk.coastCfg = 0x06405320#32 ∧
  State.reset.hbm.cfg = 0x500A0000#32 ∧ State.reset.integ.darner = 0x80180000#32 ∧ State.reset.pau.budget = 250000 ∧
  State.reset.pau.budgetDef = 250000#32 ∧ State.reset.pau.therm = 0x64680300#32 ∧ State.reset.pau.avsCfg = 0x80000040#32 ∧
  State.reset.thim.wdtCfg = 1000#32 ∧ State.reset.mon.cfg = 0xC0000000#32 ∧ State.reset.pair.role = .solo ∧
  (∀ n : Fin 16, State.reset.io.cmd[n].en = false ∧ State.reset.io.evt[n].en = false ∧ State.reset.io.evt[n].count = 1 ∧
    State.reset.clk.outCfg[n] = 0x00C00000#32 ∧ State.reset.pins.cfg[n] = 0x00080000#32 ∧ State.reset.mps[n].st = .empty ∧
    State.reset.sec.sessions[n].isOpen = false) ∧
  (∀ n : Fin 32, State.reset.streams[n].st = .free ∧ State.reset.pins.func[n] = 0) ∧
  (∀ n : Fin 64, State.reset.lanes[n].cfg = 0x80000000#32 ∧ State.reset.groups[n].alloc = false) ∧
  (∀ n : Fin 128, State.reset.io.data[n].en = false ∧ State.reset.chans[n].st = .empty ∧ State.reset.sinks[n].alloc = false ∧
    State.reset.acqs[n].st = .none) ∧
  (∀ n : Fin 256, State.reset.regions[n].alloc = false) ∧ (∀ n : Fin 2, State.reset.sweeps[n].claimed = false)

/-- Addresses strictly rising and no entry equal to what an unlisted address reads as, for both byte lists, in the reset state. (HBM
memory, Start-up) -/
def Obligations.MemoryCanonicalAtReset : Prop :=
  Mem.wf State.reset.hbm.mem = true ∧ Mem.wf State.reset.flash.mem = true

/-- Whatever the step, of any command or of the empty queue, byte lists in canonical form stay in canonical form, so that equal memories
are equal data. Every state counts, also those that no run reaches. (HBM memory, Start-up, R514, R520, R788) -/
def Obligations.MemoryStaysCanonical : Prop :=
  ∀ s t : State, Mem.wf s.hbm.mem = true → Mem.wf s.flash.mem = true → step s = .next t →
    Mem.wf t.hbm.mem = true ∧ Mem.wf t.flash.mem = true

/-- In a canonical byte list, writing a byte changes exactly that byte, and zeroing a range makes exactly the range read 0. (HBM memory,
R514, R520) -/
def Obligations.ByteReadAfterWrite : Prop :=
  (∀ (m : List Host.Cell) (x y : Nat) (v : BitVec 8), Mem.wf m = true →
    Mem.read (Mem.write m x v) y = if x = y then v else Mem.read m y) ∧
  (∀ (m : List Host.Cell) (lo hi y : Nat), Mem.wf m = true →
    Mem.read (Mem.clear m lo hi) y = if lo ≤ y ∧ y < hi then 0 else Mem.read m y)

/-- For every command of the opcode table, every ring and every value of the descriptor's fields, the 64-byte slot that spells the
command decodes to that command with those fields; and an opcode byte that the table does not list decodes as BAD_OPCODE's with its
fields. (R63, R103) -/
def Obligations.DescriptorDecodeOfEncode : Prop :=
  (∀ (op : Op) (d : Desc), op ∈ opTable → decodeDesc d.ring (encodeDesc op d) = (op, d)) ∧
  (∀ (c : BitVec 8) (d : Desc), (∀ op ∈ opTable, op.code ≠ c) → decodeDesc d.ring (encodeDesc (.bad c) d) = (.bad c, d))

/-- For every command of the table: on a ring that is not enabled or a device that serves nothing, nothing happens (log entry 14). A
command that firmware cannot accept yet, or whose ring's turn it is not, joins its ring's backlog. One that is accepted and fails a
check before its own completes with that check's status and no other effect. One that passes and is not mirrored settles by its own
body. A primary checks one that it mirrors against what the mirrored commands before it leave. A FENCED device refuses mirrored
commands with PAIR_FENCED, a secondary with WRONG_STATE, and a handle that is not valid gives BAD_HANDLE. (R41, R69, R70, R80, R93,
R669, R671, R674) -/
def Obligations.CommandsWaitTheirTurn : Prop :=
  (∀ (op : Op) (d : Desc) (s : State), Op.ofCode op.code = op → ((s.cmdRing d.ring.val).en = false ∨ s.serving = false) →
    exec (ringInstr op d) s = .next s) ∧
  (∀ (op : Op) (d : Desc) (s : State), Op.ofCode op.code = op → (s.cmdRing d.ring.val).en = true → s.serving = true →
    (((s.fetched d.ring.val).cmdRing d.ring.val).backlog ≠ [] ∨ (s.fetched d.ring.val).turnOf d.ring.val = false ∨
      (s.fetched d.ring.val).canAccept d.ring.val op d = false) →
    exec (ringInstr op d) s = .next ((s.fetched d.ring.val).park op d)) ∧
  (∀ (op : Op) (d : Desc) (s : State) (st : Status), Op.ofCode op.code = op → Offered op d s → (accepted op d s).mirrors op d = false →
    precheck op d (accepted op d s) = some st →
    exec (ringInstr op d) s = .next ((accepted op d s).complete d.ring.val st 0 0 d.handle)) ∧
  (∀ (op : Op) (d : Desc) (s : State) (st : Status), Op.ofCode op.code = op → Offered op d s → (accepted op d s).mirrors op d = true →
    precheck op d (accepted op d s).view = some st →
    exec (ringInstr op d) s = .next ((accepted op d s).complete d.ring.val st 0 0 d.handle)) ∧
  (∀ (op : Op) (d : Desc) (s : State), Op.ofCode op.code = op → Ready op d s →
    exec (ringInstr op d) s = .next (settle d.ring.val (accepted op d s) (bodyOf op d (accepted op d s)))) ∧
  (∀ (op : Op) (d : Desc) (s : State), op ∈ opTable → s.pair.role = .fenced → unmirrored s op d = false →
    precheck op d s = some .pairFenced) ∧
  (∀ (op : Op) (d : Desc) (s : State), op ∈ opTable → s.pair.role = .secondary → unmirrored s op d = false →
    precheck op d s = some .wrongState) ∧
  (∀ (op : Op) (d : Desc) (s : State), op ∈ opTable → s.pair.role ≠ .fenced → s.pair.role ≠ .secondary →
    s.handleOk op d.handle = false → precheck op d s = some .badHandle)

/-- Whatever the command of the table: when its body ends at once with a status other than OK, the next state is the accepted state with
that completion; every part but the control path and the mirrored completions is as acceptance left it, so nothing is claimed.
(Claims that an earlier command of the ring had left would go too; a ring that holds none keeps everything.) And a request for power
that is denied at once has no effect but the completion with POWER_DENIED. Where the command had already claimed a new handle (a
denied STREAM_OPEN or SEAL_OPEN, a REGION_ALLOC that may not wake a stack), that handle is freed, so the generation of its index
advances; that such a denial counts as a claim that ended is the model's reading of R64 and R92 (log entry 24). Forms whose exec is
concluded to answer a next state: regionAlloc. (R72) -/
def Obligations.FailedCommandHasNoEffect : Prop :=
  (∀ (op : Op) (d : Desc) (s u : State) (st : Status) (x y : Nat) (h : Handle), Op.ofCode op.code = op → Ready op d s → st ≠ .ok →
    let a := accepted op d s
    bodyOf op d a = .done st x y h u → u.flightHandle d.ring.val = d.handle →
    exec (ringInstr op d) s = .next ((a.dropClaims d.ring.val).complete d.ring.val st x y h) ∧
    (a.claiming d.ring.val = false → exec (ringInstr op d) s = .next (a.complete d.ring.val st x y h) ∧
      Kept completion a (a.complete d.ring.val st x y h) ∧ (a.complete d.ring.val st x y h).sec = a.sec)) ∧
  (∀ (op : Op) (d : Desc) (s u : State) (n : Need) (cls cost : Nat) (h : Handle) (k : State → Verdict), Op.ofCode op.code = op →
    Ready op d s → let a := accepted op d s
    bodyOf op d a = .need n cls cost h u k →
    u.toActive.powerAnswer cls cost ((u.toActive.cmdRing d.ring.val).inflight.any fun f => f.d.waitForPower) = .denied →
    exec (ringInstr op d) s = .next ((if h = d.handle then a.dropClaims d.ring.val else (a.dropClaims d.ring.val).handBack h).complete
      d.ring.val .powerDenied 0 0 d.handle)) ∧
  (∀ (r : Nat) (s : State), s.claiming r = false → s.dropClaims r = s) ∧
  (∀ (d : Desc) (i : Nat) (gs : List Nat) (w : Option Nat) (s : State), Ready .regionAlloc d s → let a := accepted .regionAlloc d s
    allocOk a d = true → a.claimIdx 256 (fun i => !(a.region i).alloc) = some i →
    allocGranules a (d.u 0x08 4) (if dBit d 0x0C 1 then some (d.u 0x0D 1) else none) = some gs →
    (if dBit d 0x0C 0 then (windowFor a (d.u 0x08 4)).map some else some none) = some w →
    let c : State := if gs.any fun g => a.hbm.selfRef.getLsbD (g / 12288) then a.toActive else a
    let b : State := { c with regions := upd c.regions i fun x => { Region.reset with gen := x.gen, alloc := true, granules := gs, window := w } }
    let h := b.handleOf 3 i
    let b := b.setInflight d.ring.val (Option.map fun f => { f with handle := h })
    (wakeStacks d.ring.val h d.waitForPower (b.asleep i) b).isNone = true →
    exec (.regionAlloc d) s = .next ((if h = d.handle then a.dropClaims d.ring.val else (a.dropClaims d.ring.val).handBack h).complete
      d.ring.val .powerDenied 0 0 d.handle)) ∧
  (∀ (s : State) (h : Handle), Kept [.streams, .chans, .regions, .sinks, .groups, .sweeps, .mps, .sec] s (s.handBack h)) ∧
  (∀ (s : State) (i : Fin 256),
    ((s.handBack (BitVec.ofNat 32 (3 * 2 ^ 24 + i.val))).region i.val).gen = nextGen (s.region i.val).gen ∧
    ((s.handBack (BitVec.ofNat 32 (3 * 2 ^ 24 + i.val))).region i.val).alloc = (s.region i.val).alloc)

/-- Fetching and accepting a command on an ACTIVE device changes the control path alone: the ring has the command in flight with the
handle of its descriptor and two entries owed, its fetched count is one more, its event ring's holding queue has two entries more
reserved, and a FENCE is noted. Other command rings and every doorbell and port are as before. (R69, R70, R80, R628) -/
def Obligations.AcceptanceReserves : Prop :=
  ∀ (op : Op) (d : Desc) (s : State), s.pwr.st = .active → let t := accepted op d s
    let r := d.ring.val
    (∃ f, (t.cmdRing r).inflight = some f ∧ f.op = op ∧ f.d = d ∧ f.handle = d.handle ∧ f.owed = 2 ∧ f.interim = false) ∧
    (t.cmdRing r).fetched = (s.cmdRing r).fetched + 1 ∧ (t.cmdRing r).cons = (s.cmdRing r).cons ∧
    (nth t.io.evt (s.cmdRing r).evt.val .reset).reserved = (nth s.io.evt (s.cmdRing r).evt.val .reset).reserved + 2 ∧
    (d.fence = true → t.io.fence = some ⟨d.ring, s.io.accepted⟩) ∧ (d.fence = false → t.io.fence = s.io.fence) ∧
    (∀ q : Nat, q ≠ r → t.cmdRing q = s.cmdRing q) ∧ t.io.data = s.io.data ∧ t.io.ports = s.io.ports ∧ t.io.out = s.io.out ∧
    t.io.dbBad = s.io.dbBad ∧ Kept [.io] s t

/-- The command leaves its ring, the consumer count advances by one unless the ring was set up anew since, other rings stay, and only
the control path, the mirrored completions and the journal may change. A command that completes OK and is of the journalled kind
leaves an entry with its opcode, tag and handle as the journal's last; any other status leaves security state as it was. (R55, R68,
R70, R73, R699) -/
def Obligations.FinalCompletion : Prop :=
  ∀ (s : State) (r : Fin 16) (f : Inflight) (st : Status) (a b : Nat) (h : Handle), (s.cmdRing r.val).inflight = some f →
    let t := s.complete r.val st a b h
    (t.cmdRing r.val).inflight = none ∧
    (t.cmdRing r.val).cons = (if (s.cmdRing r.val).old then (s.cmdRing r.val).cons else (s.cmdRing r.val).cons + 1) ∧
    (∀ q : Nat, q ≠ r.val → t.cmdRing q = s.cmdRing q) ∧ Kept completion s t ∧
    (st ≠ .ok → t.sec = s.sec) ∧
    (st = .ok → f.op.unjournalled = false → ∃ e, t.sec.journal.getLast? = some e ∧ e.source = 0 ∧ e.opcode = f.op.code ∧ e.tag = f.d.tag ∧
      e.handle = h ∧ t.sec.jNext = e.index + 1) ∧
    (st = .ok → f.op.unjournalled = true → t.sec = s.sec)

/-- A record other than CMD_DONE is written to its ring when nothing is held and the ring has room, waits in the holding queue when an
entry is neither occupied nor reserved, and is otherwise dropped, counted in LOST (saturating), with LOST set in the next record
written. A write takes the next place of the ring and clears that mark. The part of the state that an event changes is the control
path. (R77, R79, R80, R81, R84) -/
def Obligations.EventPosting : Prop :=
  (∀ (io : Io) (n : Fin 16) (e : EvtRecord), (nth io.evt n.val .reset).held = [] → io.evtRoom n.val = true → io.evtPost n.val e = io.evtWrite n.val e) ∧
  (∀ (io : Io) (n : Fin 16) (e : EvtRecord), ((nth io.evt n.val .reset).held ≠ [] ∨ io.evtRoom n.val = false) → (nth io.evt n.val .reset).en = true →
    (nth io.evt n.val .reset).held.length + (nth io.evt n.val .reset).reserved < 64 →
    (nth (io.evtPost n.val e).evt n.val .reset) = { (nth io.evt n.val .reset) with held := (nth io.evt n.val .reset).held ++ [e] } ∧ (io.evtPost n.val e).out = io.out) ∧
  (∀ (io : Io) (n : Fin 16) (e : EvtRecord), ((nth io.evt n.val .reset).held ≠ [] ∨ io.evtRoom n.val = false) →
    ((nth io.evt n.val .reset).en = false ∨ 64 ≤ (nth io.evt n.val .reset).held.length + (nth io.evt n.val .reset).reserved) →
    (nth (io.evtPost n.val e).evt n.val .reset) = { (nth io.evt n.val .reset) with lost := min 65535 ((nth io.evt n.val .reset).lost + 1), lostNext := true } ∧
    (io.evtPost n.val e).out = io.out) ∧
  (∀ (io : Io) (n : Fin 16) (e : EvtRecord),
    (nth (io.evtWrite n.val e).evt n.val .reset).written = (nth io.evt n.val .reset).written + 1 ∧ (nth (io.evtWrite n.val e).evt n.val .reset).lostNext = false ∧
    (nth (io.evtWrite n.val e).evt n.val .reset).recent.getLast? = some { e with lost := e.lost || (nth io.evt n.val .reset).lostNext }) ∧
  (∀ (s : State) (e : Ev) (h : Handle) (l : List (Nat × Nat)), Kept [.io] s (s.note e h l))

/-- NOP without parameters completes OK with no other effect; with FENCE set it is accepted only when no other command, on any ring, is
in flight. A descriptor whose opcode byte is not in the table completes with BAD_OPCODE and has no other effect. Forms whose exec is
concluded to answer a next state: nop, badOpcode. (R104) -/
def Obligations.BadOpcodeAndNop : Prop :=
  (∀ (d : Desc) (s : State), Ready .nop d s → d.clean [] = true →
    exec (.nop d) s = .next ((accepted .nop d s).complete d.ring.val .ok 0 0 0)) ∧
  (∀ (d : Desc) (s : State), Ready .nop d s → d.clean [] = false →
    exec (.nop d) s = .next ((accepted .nop d s).complete d.ring.val .badParam 0 0 d.handle)) ∧
  (∀ (d : Desc) (s : State), Offered .nop d s → d.fence = true → (s.fetched d.ring.val).anyInflight = false) ∧
  (∀ (code : BitVec 8) (d : Desc) (s : State), Op.ofCode code = .bad code → Offered (.bad code) d s →
    exec (.badOpcode code d) s = .next ((accepted (.bad code) d s).complete d.ring.val .badOpcode 0 0 d.handle)) ∧
  (∀ (code : BitVec 8) (d : Desc) (s : State), Op.ofCode code ≠ .bad code → exec (.badOpcode code d) s = .fault .illFormed)

/-- A write of a doorbell on its own ring's port with (p - c) mod 2^32 at most the size makes p the producer count and reads a parked
slot anew; a larger difference is ignored and counted in BAD_COUNT (saturating). Forms whose exec is concluded to answer a next
state: commandDoorbell, dataDoorbell. (R58) -/
def Obligations.DoorbellCountsInRange : Prop :=
  (∀ (n : Fin 16) (value : Word) (slots : List (BitVec 512)) (s : State), s.serving = true → s.hasPort (s.cmdRing n.val).port.val = true → (s.cmdRing n.val).en = true →
    (value - (s.cmdRing n.val).cons).toNat ≤ 2 ^ (s.cmdRing n.val).size →
    exec (.commandDoorbell (s.cmdRing n.val).port (BitVec.ofNat 20 (4096 * n.val)) 4 value slots) s = .next
      (State.takeCmds (State.fetchCmd
        (let t := s.rung n.val value
         { t with io := { t.io with cmd := upd t.io.cmd n.val fun c => { c with prod := value, parked := false } } }) n.val) n.val slots)) ∧
  (∀ (n : Fin 16) (value : Word) (slots : List (BitVec 512)) (s : State), s.serving = true → s.hasPort (s.cmdRing n.val).port.val = true → (s.cmdRing n.val).en = true →
    2 ^ (s.cmdRing n.val).size < (value - (s.cmdRing n.val).cons).toNat →
    exec (.commandDoorbell (s.cmdRing n.val).port (BitVec.ofNat 20 (4096 * n.val)) 4 value slots) s = .next
      { s with io := { s.io with dbBad := upd s.io.dbBad n.val fun c => min 65535 (c + 1) } }) ∧
  (∀ (n : Fin 128) (value : Word) (slots : List (BitVec 256)) (s : State), s.serving = true → s.hasPort (s.dring n.val).port.val = true → (s.dring n.val).en = true →
    (value - (s.dring n.val).cons).toNat ≤ 2 ^ (s.dring n.val).size →
    ∃ t, exec (.dataDoorbell (s.dring n.val).port (BitVec.ofNat 20 (4096 * (n.val + 32))) 4 value slots) s = .next t ∧
      (t.dring n.val).prod = value ∧ (s.pwr.st = .active → Kept [.io] s t)) ∧
  (∀ (n : Fin 128) (value : Word) (slots : List (BitVec 256)) (s : State), s.serving = true → s.hasPort (s.dring n.val).port.val = true → (s.dring n.val).en = true →
    2 ^ (s.dring n.val).size < (value - (s.dring n.val).cons).toNat →
    exec (.dataDoorbell (s.dring n.val).port (BitVec.ofNat 20 (4096 * (n.val + 32))) 4 value slots) s = .next
      { s with io := { s.io with dbBad := upd s.io.dbBad (n.val + 32) fun c => min 65535 (c + 1) } })

/-- An event doorbell on its ring's port whose count lies no more than the size behind what was written becomes the consumer count, and
held records follow while there is room; any other is ignored and counted in BAD_COUNT (saturating). A timer that expires on an
enabled ring with unsignalled records signals its vector. Forms whose exec is concluded to answer a next state: eventDoorbell,
interruptTimerExpiry. (R59) -/
def Obligations.EventDoorbellAndTimer : Prop :=
  (∀ (n : Fin 16) (value : Word) (s : State), s.serving = true → s.hasPort (nth s.io.evt n.val .reset).port.val = true →
    (nth s.io.evt n.val .reset).en = true → ((nth s.io.evt n.val .reset).written - value).toNat ≤ 2 ^ (nth s.io.evt n.val .reset).size →
    exec (.eventDoorbell (nth s.io.evt n.val .reset).port (BitVec.ofNat 20 (4096 * (n.val + 16))) 4 value) s = .next
      (let t := s.rung (n.val + 16) value
       { t with io := Io.evtDrain 64 { t.io with evt := upd t.io.evt n.val fun r => { r with consumed := value } } n.val })) ∧
  (∀ (n : Fin 16) (value : Word) (s : State), s.serving = true → s.hasPort (nth s.io.evt n.val .reset).port.val = true →
    (nth s.io.evt n.val .reset).en = true → 2 ^ (nth s.io.evt n.val .reset).size < ((nth s.io.evt n.val .reset).written - value).toNat →
    exec (.eventDoorbell (nth s.io.evt n.val .reset).port (BitVec.ofNat 20 (4096 * (n.val + 16))) 4 value) s = .next
      { s with io := { s.io with dbBad := upd s.io.dbBad (n.val + 16) fun c => min 65535 (c + 1) } }) ∧
  (∀ (n : Nat) (value : Word) (s : State), s.pwr.st = .active → s.pair.role ≠ .primary → s.rung n value = s) ∧
  (∀ (n : Fin 16) (s : State), (nth s.io.evt n.val .reset).en = true → (nth s.io.evt n.val .reset).timer ≠ 0 → 0 < (nth s.io.evt n.val .reset).unsig →
    exec (.interruptTimerExpiry n) s = .next { s with io := s.io.signal n.val })

/-- Enabling a command, event or data ring with a size of 2^6 to 2^16, an aligned base (and, for a command ring, an enabled event ring
on its own port) stores the set-up and starts its counts at 0; a command accepted before a disable runs on beside the new counts.
Disabling a command ring drops what waits unaccepted, with a FENCE that was read but not accepted; an event ring that nothing names
and that owes nothing goes off with its held records; a data ring that serves no bound sink goes off. Forms whose exec is concluded
to answer a next state: cmdRingEnable, cmdRingDisable, evtRingEnable, evtRingDisable, dataRingEnable, dataRingDisable. (R47, R48,
R782, R783, R784) -/
def Obligations.RingEnableAndDisable : Prop :=
  (∀ (n : Fin 16) (v : Word) (s : State), s.serving = true → v.getLsbD 31 = true → (s.cmdRing n.val).en = false →
    inR (bits v.toNat 20 16) 6 16 = true → (s.cmdRing n.val).base.toNat % 4096 = 0 →
    (s.cmdRing n.val).wb.toNat % 4 = 0 → s.hasPort (bits v.toNat 27 27) = true → (nth s.io.evt (Fin.ofNat 16 (bits v.toNat 3 0)).val .reset).en = true →
    (nth s.io.evt (Fin.ofNat 16 (bits v.toNat 3 0)).val .reset).port = Fin.ofNat 2 (bits v.toNat 27 27) →
    exec (.cmdRingEnable n v) s = .next { s with io := { s.io with cmd := upd s.io.cmd n.val fun c =>
      { c with err := c.err && !v.getLsbD 30, en := true, size := bits v.toNat 20 16, port := Fin.ofNat 2 (bits v.toNat 27 27)
               evt := Fin.ofNat 16 (bits v.toNat 3 0), prod := 0, cons := 0, fetched := 0, asked := 0, reads := [], parked := false
               backlog := [], old := c.inflight.isSome } } }) ∧
  (∀ (n : Fin 16) (v : Word) (s : State), s.serving = true → v.getLsbD 31 = false → (s.cmdRing n.val).en = true →
    exec (.cmdRingDisable n v) s = .next { s with io := { s.io.dropFence n.val with cmd := upd s.io.cmd n.val fun c =>
      { c with err := c.err && !v.getLsbD 30, en := false, parked := false, backlog := [], reads := [] } } }) ∧
  (∀ (n : Nat) (io : Io), Io.dropFence io n = { io with fence := (io.dropFence n).fence }) ∧
  (∀ (n : Nat) (f : Fence) (io : Io), io.fence = some f → (io.dropFence n).fence =
    if f.ring.val = n ∧ ((nth io.cmd n .reset).inflight.any fun g => g.d.fence) = false then none else some f) ∧
  (∀ (n : Fin 16) (v : Word) (s : State), s.serving = true → v.getLsbD 31 = true → (nth s.io.evt n.val .reset).en = false →
    inR (bits v.toNat 20 16) 6 16 = true → (nth s.io.evt n.val .reset).base.toNat % 4096 = 0 → s.hasPort (bits v.toNat 27 27) = true →
    exec (.evtRingEnable n v) s = .next { s with io := Io.evtDrain 64 { s.io with evt := upd s.io.evt n.val fun r =>
      { r with err := r.err && !v.getLsbD 30, en := true, size := bits v.toNat 20 16, port := Fin.ofNat 2 (bits v.toNat 27 27)
               vector := BitVec.ofNat 6 (v.toNat % 64), written := 0, consumed := 0, unsig := 0 } } n.val }) ∧
  (∀ (n : Fin 16) (v : Word) (s : State), s.serving = true → v.getLsbD 31 = false → (nth s.io.evt n.val .reset).en = true → (nth s.io.evt n.val .reset).owes = false →
    (∀ c : Fin 16, (s.cmdRing c.val).en = true → (s.cmdRing c.val).evt ≠ n) →
    exec (.evtRingDisable n v) s = .next { s with io := { s.io with evt := upd s.io.evt n.val fun r =>
      { r with err := r.err && !v.getLsbD 30, en := false, held := [], unsig := 0 } } }) ∧
  (∀ (n : Fin 128) (v : Word) (s : State), s.serving = true → v.getLsbD 31 = true → (s.dring n.val).en = false →
    inR (bits v.toNat 20 16) 6 16 = true → (s.dring n.val).base.toNat % 4096 = 0 → s.hasPort (bits v.toNat 27 27) = true →
    exec (.dataRingEnable n v) s = .next { s with io := { s.io with data := upd s.io.data n.val fun r =>
      { r with err := r.err && !v.getLsbD 30, en := true, size := bits v.toNat 20 16, port := Fin.ofNat 2 (bits v.toNat 27 27), prod := 0
               cons := 0, fetched := 0, asked := 0, reads := [], parked := false, posted := [] } } }) ∧
  (∀ (n : Fin 128) (v : Word) (s : State), s.serving = true → v.getLsbD 31 = false → (s.dring n.val).en = true → s.ringServes n.val = false →
    exec (.dataRingDisable n v) s = .next { s with io := { s.io with data := upd s.io.data n.val fun r =>
      { r with err := r.err && !v.getLsbD 30, en := false, posted := [], reads := [] } } })

/-- A link that goes down ends L1, leaves the slot reads that are not answered to be asked for again, and halts the port's sinks. A port
reset disables every ring of the port, leaves the other port's rings enabled and every engine alone, and keeps the port's
completion-error count. An L1 entry is asked for on an idle link and noted. Forms whose exec is concluded to answer a next state:
pcieLinkDown, portReset, l1EntryRequest. (R569, R723, R724, R799) -/
def Obligations.PortRows : Prop :=
  (∀ (p : Fin 2) (s : State), (s.hostPort p.val).linkUp = true → exec (.pcieLinkDown p) s = .next ((s.linkLost p.val).haltPort p.val)) ∧
  (∀ (p : Fin 2) (s : State), ((s.linkLost p.val).hostPort p.val).linkUp = false ∧ ((s.linkLost p.val).hostPort p.val).l1 = false ∧
    (∀ n : Fin 16, ((s.linkLost p.val).cmdRing n.val).reads = (if (s.cmdRing n.val).port = p then [] else (s.cmdRing n.val).reads) ∧
      ((s.linkLost p.val).cmdRing n.val).asked = (if (s.cmdRing n.val).port = p then (s.cmdRing n.val).fetched else (s.cmdRing n.val).asked)) ∧
    (∀ n : Fin 128, ((s.linkLost p.val).dring n.val).reads = (if (s.dring n.val).port = p then [] else (s.dring n.val).reads)) ∧
    Kept [.io] s (s.linkLost p.val)) ∧
  (∀ (p : Fin 2) (s : State), s.hasPort p.val = true → ∃ t, exec (.portReset p) s = .next t ∧
    (∀ n : Fin 16, (t.cmdRing n.val).en = true → (t.cmdRing n.val).port ≠ p) ∧ (∀ n : Fin 16, (nth t.io.evt n.val .reset).en = true → (nth t.io.evt n.val .reset).port ≠ p) ∧
    (∀ n : Fin 128, (t.dring n.val).en = true → (t.dring n.val).port ≠ p) ∧
    (∀ n : Fin 16, (s.cmdRing n.val).port ≠ p → (t.cmdRing n.val).en = (s.cmdRing n.val).en) ∧
    (∀ n : Fin 16, (nth s.io.evt n.val .reset).port ≠ p → (nth t.io.evt n.val .reset).en = (nth s.io.evt n.val .reset).en) ∧
    (∀ n : Fin 128, (s.dring n.val).port ≠ p → (t.dring n.val).en = (s.dring n.val).en) ∧ (t.hostPort p.val).msix = HostPort.reset.msix ∧
    (t.hostPort p.val).linkUp = false ∧ (t.hostPort p.val).cplErr = (s.hostPort p.val).cplErr ∧ t.chans = s.chans ∧ t.acqs = s.acqs ∧ t.mps = s.mps ∧ t.hbm = s.hbm) ∧
  (∀ (p : Fin 2) (s : State), (s.hostPort p.val).linkUp = true → (s.hostPort p.val).l1 = false → (∀ k : Fin 128, (s.sink k.val).bound = false) →
    (∀ n : Fin 16, (s.cmdRing n.val).port = p → (s.cmdRing n.val).backlog = [] ∧ (s.cmdRing n.val).inflight = none) →
    (∀ n : Fin 16, (nth s.io.evt n.val .reset).port = p → (nth s.io.evt n.val .reset).en = true → (nth s.io.evt n.val .reset).held = []) →
    exec (.l1EntryRequest p) s = .next (State.emit { s with io := { s.io with ports := upd s.io.ports p.val fun x => { x with l1 := true } } }
      (.l1Request p)))

/-- A request that could not fit the budget beside the static charge is denied. One that finds no earlier or equal class waiting, fits
the available power and is not held back by AVS is granted at once, or when it is large waits for the 20 µs spacing of the last
large grant. Any other is queued with WAIT_FOR_POWER while its queue has fewer than 64 requests, and is denied without the flag or
with a full queue. An issued grant is charged to its object and lowers the available power by its cost. (R601, R605, R606, R607,
R610, R615) -/
def Obligations.PowerAdmission : Prop :=
  (∀ (s : State) (cls cost : Nat) (w : Bool), s.pau.budget < cost + s.static → s.powerAnswer cls cost w = .denied) ∧
  (∀ (s : State) (cls cost : Nat) (w : Bool), cost + s.static ≤ s.pau.budget → (∀ c ≤ cls, s.pau.waiting c = []) →
    s.thim.cutting 0 = false → (cost : Int) ≤ s.available → (cost ≤ 5000 ∨ (s.pau.avsMoving = false ∧ s.pau.avsFault = false)) →
    s.powerAnswer cls cost w = (match s.spacing cost with | some due => .spaced due | none => .granted)) ∧
  (∀ (s : State) (cls cost : Nat), cost + s.static ≤ s.pau.budget → ((∃ c ≤ cls, s.pau.waiting c ≠ []) ∨ s.available < (cost : Int)) →
    (s.pau.waiting cls).length < 64 → s.powerAnswer cls cost true = .queued ∧ s.powerAnswer cls cost false = .denied) ∧
  (∀ (s : State) (cls cost : Nat) (w : Bool), ((∃ c ≤ cls, s.pau.waiting c ≠ []) ∨ s.available < (cost : Int)) →
    64 ≤ (s.pau.waiting cls).length → s.powerAnswer cls cost w = .denied) ∧
  (∀ (s : State) (c : Fin 16) (cost : Nat), (nth s.mps c.val .reset).grant = 0 →
    (s.charge (.mp c.val) cost s.now).available = s.available - cost)

/-- POWER_BUDGET sets budget and queue limit, denies what can no longer fit, examines the queues and reports whether the new budget lies
under what is charged. POWER_QUERY writes the power block and reports the available power. SLEEP notes the state to enter with its
wake mask and second, keeping the present state. POWER_GRANT examines the queues. A queued request of a ring that has waited the
queue limit completes with TIMEOUT. The spaced grant that is due first is issued at its instant. Forms whose exec is concluded to
answer a next state: powerBudget, powerQuery, sleep, powerGrant, powerQueueTimeout, grantSpacingExpiry. (R608, R609, R610, R623,
R625, R629, R631) -/
def Obligations.PowerCommandsAndQueues : Prop :=
  (∀ (d : Desc) (s : State), Ready .powerBudget d s → d.clean [(0x08, 8)] = true → inR (d.u 0x08 4) 30000 285000 = true →
    inR (d.u 0x0C 4) 1 600000 = true → let a := accepted .powerBudget d s
    let b : State := { a with pau := { a.pau with budget := d.u 0x08 4, budgetSet := true, queueMs := d.u 0x0C 4 } }
    exec (.powerBudget d) s = .next
      (b.denyUnfit.examineAll.complete d.ring.val .ok (if d.u 0x08 4 < b.static + b.granted then 1 else 0) 0 d.handle)) ∧
  (∀ (d : Desc) (s : State), Ready .powerQuery d s → d.clean [(0x08, 12)] = true → 64 ≤ d.u 0x10 4 →
    addrOk (d.u 0x08 8) (d.u 0x10 4) 64 = true → let a := accepted .powerQuery d s
    (a.hostPort (a.flightPort d.ring.val).val).linkUp = true →
    exec (.powerQuery d) s = .next (State.complete
      { a with io := a.io.write (a.flightPort d.ring.val).val (d.u 0x08 8) a.powerBlock false } d.ring.val .ok 0 a.available.toNat d.handle)) ∧
  (∀ (d : Desc) (s : State), Ready .sleep d s → d.clean [(0x08, 2), (0x10, 8)] = true → let a := accepted .sleep d s
    a.sleepOk (d.u 0x08 1) (d.u 0x09 1) (d.u 0x10 8) = true → a.sleepGoes (d.u 0x08 1) = true →
    exec (.sleep d) s = .next (State.complete { a with pwr := { a.pwr with
      entering := if d.u 0x08 1 = 1 ∧ a.pwr.st = .idle then none
        else some (if d.u 0x08 1 = 1 then .idle else if d.u 0x08 1 = 2 then .retain else .dormant)
      enteredAt := a.now, wakeMask := BitVec.ofNat 6 (d.u 0x09 1), wakeSec := BitVec.ofNat 40 (d.u 0x10 8) } }
      d.ring.val .ok 0 0 d.handle)) ∧
  (∀ s : State, exec .powerGrant s = .next s.examineAll) ∧
  (∀ (cls : Fin 3) (pos : Nat) (q : PowerReq) (s : State), (s.pau.waiting cls.val)[pos]? = some q → q.ring.isSome = true →
    s.pair.role ≠ .secondary →
    exec (.powerQueueTimeout cls pos) s = .next ((s.until (q.since + s.pau.queueMs * 1000000)).refuse cls.val q .timeout)) ∧
  (∀ (c : Nat) (q : PowerReq) (s : State), s.pau.nextSpaced = some (c, q) → exec .grantSpacingExpiry s = .next
    (let t := s.until q.since
     State.issueGrant { t with pau := t.pau.setQueue c ((t.pau.queue c).erase q) } c q))

/-- A thermal reading stores the eight temperatures; at 115 °C the safe state is entered. In the critical state every continuous unit
with ARR below its maximum, but on a secondary, steps up one level, and at each shed instant the channel first in the shed order is
shed and the next instant is 10 ms later. An AVS step that succeeds moves the setpoint by at most 5 mV towards the goal and sends
it; the third failure in a row sets the fault, holds the control and raises THERMAL 4. A write of 1 clears the fault. Forms whose
exec is concluded to answer a next state: thermalSensorRead, criticalArrStep, shedTimer, avsStep, avsFaultClear. (R615, R616, R617,
R618, R619, R620, R621, R633) -/
def Obligations.HeatAndVoltageRows : Prop :=
  (∀ (temps : Vector Int 8) (s : State), s.boot.die ≠ .held → let p := { s.pau with temps := temps }
    115 ≤ p.hottest → exec (.thermalSensorRead temps) s = .next
      (State.enterSafe { s with pau := p, thim := s.thim.cycle p.hottest } true)) ∧
  (∀ (temps : Vector Int 8) (s : State), s.serving = true → let p := { s.pau with temps := temps }
    p.hottest < 115 → exec (.thermalSensorRead temps) s = .next
      (let t := State.thermalStates { s with pau := p, thim := s.thim.cycle p.hottest }
       State.denyUnfit { t with pau := { t.pau with avsMoving := t.avsMoves } })) ∧
  (∀ (s : State) (t : Nat), s.pau.critSince = some t → exec .criticalArrStep s = .next
    ((List.range 128).foldl (fun s u =>
      let a := s.acq u
      if a.arr && a.newLevel.getD a.level < a.par.arrMax && s.pair.role != Role.secondary then s.arrStep u (a.newLevel.getD a.level + 1) else s) s)) ∧
  (∀ s : State, s.pau.critSince = none → exec .criticalArrStep s = .next s) ∧
  (∀ (s : State) (c t ch : Nat) (rest : List Nat), s.pau.critSince = some c → s.pau.shedAt = some t →
    let u := s.until t
    let u' : State := { u with pau := { u.pau with shedAt := some (t + 10000000) } }
    u'.granted_ = ch :: rest → exec .shedTimer s = .next (u'.shed ch)) ∧
  (∀ s : State, s.serving = true → s.avsMoves = true → s.pau.setpoint < s.avsGoal → exec (.avsStep true) s = .next
    (let v := min s.avsGoal (s.pau.setpoint + 5)
     State.emit { s with pau := { s.pau with setpoint := v, avsFails := 0, avsMoving := v != s.avsGoal } } (.pmbus (s.pau.avsCfg.toNat % 128) v))) ∧
  (∀ s : State, s.serving = true → s.avsMoves = true → s.avsGoal ≤ s.pau.setpoint → exec (.avsStep true) s = .next
    (let v := max s.avsGoal (s.pau.setpoint - 5)
     State.emit { s with pau := { s.pau with setpoint := v, avsFails := 0, avsMoving := v != s.avsGoal } } (.pmbus (s.pau.avsCfg.toNat % 128) v))) ∧
  (∀ s : State, s.serving = true → s.avsMoves = true → 2 ≤ s.pau.avsFails → exec (.avsStep false) s = .next
    (State.thermal { s with pau := { s.pau with avsFails := 0, avsFault := true, avsMoving := false } } 4)) ∧
  (∀ (v : Word) (s : State), s.serving = true → v.getLsbD 31 = true → s.pau.avsFault = true → ∃ t, exec (.avsFaultClear v) s = .next t ∧
    t.pau.avsFault = false ∧ t.pau.avsFails = 0 ∧ t.pau.setpoint = s.pau.setpoint ∧ Kept [.pau] s t)

/-- On the way into RETAIN a trained port's link enters L2; with a port missing after 1 s the device stays IDLE with L2_TIMEOUT set. The
state that SLEEP asked for begins when nothing has begun since. WAKE_IN is wake source 5; the RTC's scheduled second is source 3. A
link that comes up takes the port's speed and width, within Gen 1 to 5 and 1 to 16 lanes, releases WAKE_N, and resumes what waited.
In RETAIN a deasserted PERST_N leads to IDLE with the time base restarted and WAKE_N asserted; otherwise the port may train. Forms
whose exec is concluded to answer a next state: pcieL2Entry, l2Timeout, powerStateEntryDone, wakeIn, scheduledWake, pcieLinkUp,
perstNDeassert. (R622, R624, R625, R626, R627, R733, R799) -/
def Obligations.SleepAndWakeRows : Prop :=
  (∀ (p : Fin 2) (s : State), s.pwr.entering = some .retain → (s.hostPort p.val).linkUp = true → exec (.pcieL2Entry p) s = .next
    { s with io := { s.io with ports := upd s.io.ports p.val fun x => { x with linkUp := false, l1 := false, l2 := true } } }) ∧
  (∀ s : State, s.pwr.entering = some .retain → s.l2Missing = true → exec .l2Timeout s = .next
    (let u := s.until (s.pwr.enteredAt + 1000000000)
     let t := if u.pwr.st = .active then u.toIdle else u
     { t with pwr := { t.pwr with entering := none, l2Timeout := true } })) ∧
  (∀ s : State, s.pwr.entering = some .idle → s.maySleep 1 = true → exec .powerStateEntryDone s = .next s.toIdle) ∧
  (∀ s : State, s.pwr.entering = some .retain → s.maySleep 2 = true → s.l2Missing = false → exec .powerStateEntryDone s = .next
    (if s.pwr.st = .active then s.toIdle else s).toRetain) ∧
  (∀ s : State, s.pwr.entering = some .dormant → s.maySleep 3 = true → exec .powerStateEntryDone s = .next s.toDormant) ∧
  (∀ s : State, exec .wakeIn s = .next (s.wakeSleep 5)) ∧
  (∀ s : State, s.pwr.wakeMask.getLsbD 3 = true → (s.pwr.entering.isSome = true ∨ s.pwr.st = .retain ∨ s.pwr.st = .dormant) →
    exec .scheduledWake s = .next ((s.untilRtc (s.pwr.wakeSec.toNat * unitS)).wakeSleep 3)) ∧
  (∀ (p : Fin 2) (speed : Fin 8) (width : Fin 64) (s : State), s.hasPort p.val = true → s.boot.die ≠ .held → s.pwr.st ≠ .retain →
    s.pwr.st ≠ .dormant → (s.hostPort p.val).perst = false →
    exec (.pcieLinkUp p speed width) s = .next
      (let t : State := { s with io := { s.io with ports := upd s.io.ports p.val fun x => { x with
         linkUp := true, l1 := false, l2 := false, speed := max 1 (min 5 speed.val), width := max 1 (min 16 width.val) } } }
       let u := if t.pins.wakeN then State.emit { t with pins := { t.pins with wakeN := false } } (.wake false) else t
       if u.serving then u.resumePort p.val else u)) ∧
  (∀ (p : Fin 2) (s : State), s.pwr.st = .retain → s.hasPort p.val = true → ∃ t, exec (.perstNDeassert p) s = .next t ∧ t.pwr.st = .idle ∧ t.pwr.entering = none ∧
    t.time.tb = s.thim.rtc / unitS * unitS ∧ t.time.timeSet = false ∧ t.pins.wakeN = true ∧
    Kept [.io, .time, .pwr, .pins] s t) ∧
  (∀ (p : Fin 2) (s : State), s.pwr.st ≠ .retain → s.hasPort p.val = true → exec (.perstNDeassert p) s = .next
    { s with io := { s.io with ports := upd s.io.ports p.val fun x => { x with perst := false } } }) ∧
  (∀ (p : Fin 2) (s : State), s.hasPort p.val = false → exec (.perstNDeassert p) s = .next s)

/-- An uncorrectable word of the management cores is logged and the cores are reloaded. The watchdog's first stage counts, logs and
reloads, its second counts, logs and restarts the die. Data for a command that waits for its host buffer is kept with it and carries
the command on, if its handle is still good, after the mirror where a primary mirrors it; a failed read counts and completes with
MEM_FAULT; a descriptor fetch that returns goes to the ring. A save writes the retire list and the lifetime counters to the store,
and STICKY entries and calibration sets at most once in ten minutes. Forms whose exec is concluded to answer a next state:
mgmtCoreReload, watchdogStage1, watchdogStage2, hostReadCompletion, persistentStoreSave. (R65, R546, R551, R596, R663, R749) -/
def Obligations.FirmwareFaultRows : Prop :=
  (∀ s : State, s.serving = true → exec .mgmtCoreReload s = .next (s.sramFault 0x16 0).reload) ∧
  (∀ s : State, s.boot.die = .serving → s.thim.wdtStage = 0 → exec .watchdogStage1 s = .next
    (let t := State.thimLog { s with thim := { s.thim with wdt1 := min 65535 (s.thim.wdt1 + 1), wdtStage := 1 } } 2 255 255 0
     (pairPin s t).reload)) ∧
  (∀ s : State, s.boot.die = .serving → s.thim.wdtStage = 1 → exec .watchdogStage2 s = .next
    ((State.thimLog { s with thim := { s.thim with wdt2 := min 65535 (s.thim.wdt2 + 1) } } 3 255 255 0).restartDie false)) ∧
  (∀ (ring : Fin 16) (f : Inflight) (data : List (BitVec 8)) (s : State), s.waitsAt ring.val .hostRead = some f →
    let t := s.setInflight ring.val (Option.map fun f => { f with buffer := data })
    exec (.hostReadCompletion (.buffer ring) (.ok data)) s = .next (mirrorOr ring.val f.op f.d data t (dataWith f.op f.d data t)) ∧
    (t.mirrors f.op f.d = false → exec (.hostReadCompletion (.buffer ring) (.ok data)) s = .next (settle ring.val t (dataWith f.op f.d data t))) ∧
    (s.handleOk f.op f.d.handle = true → dataWith f.op f.d data s = dataOf f.op f.d data s)) ∧
  (∀ (ring : Fin 16) (f : Inflight) (r : ReadResult) (s : State), s.waitsAt ring.val .hostRead = some f → (∀ l, r ≠ .ok l) →
    exec (.hostReadCompletion (.buffer ring) r) s = .next
      (((s.cplError (s.flightPort ring.val).val).unclaim ring.val f.handle).complete ring.val .memFault 0 0 f.d.handle)) ∧
  (∀ (ring : Fin 16) (data : List (BitVec 8)) (s : State), (s.cmdRing ring.val).en = true →
    exec (.hostReadCompletion (.cmdFetch ring) (.ok data)) s = .next (s.takeCmds ring.val (slots512 data))) ∧
  (∀ (ring : Fin 128) (data : List (BitVec 8)) (s : State), (s.dring ring.val).en = true →
    exec (.hostReadCompletion (.dataFetch ring) (.ok data)) s = .next (s.takeData ring.val (slots256 data))) ∧
  (∀ s : State, s.serving = true →
    let due : Bool := s.store.saved.all fun t => decide (t + 600000000000 ≤ s.now)
    exec (.persistentStoreSave true) s = .next (State.retireDone
      { s with store := { s.store with
          retired := s.integ.retired, life := s.thim.life
          sticky := if due then s.integ.log.filter (fun e => e.sticky) else s.store.sticky
          cal := if due then s.calSave else s.store.cal, saved := if due then some s.now else s.store.saved } } true)) ∧
  (∀ s : State, s.serving = true → exec (.persistentStoreSave false) s = .next (s.retireDone false))

/-- POR_N low notes it and, but in DORMANT, resets and holds the die; its release lets the die start, and in DORMANT is a power-on reset
that ends it. The crystal's start after VDD_AON was absent puts the RTC and the time base to second 0. SYS_RESET.DIE restarts the
die with the error log kept. A failed start counts, tries the other slot, and the fourth holds the die with a Thimble log entry.
PWR_EN falls 1 ms after DORMANT was entered. The safe state ends when its conditions hold. VDD_AON low resets all. Forms whose exec
is concluded to answer a next state: porNAssert, porNRelease, xt32CrystalStart, sysResetDie, bootStartTimeout, pwrEnFall,
safeStateExit, vddAonLow. (R721, R722, R731, R751, R752) -/
def Obligations.DieResetRows : Prop :=
  (∀ s : State, s.pwr.st ≠ .dormant → exec .porNAssert s = .next (State.resetDie { s with boot := { s.boot with porLow := true } } false)) ∧
  (∀ s : State, s.pwr.st = .dormant → exec .porNAssert s = .next { s with boot := { s.boot with porLow := true } }) ∧
  (∀ s : State, s.boot.porLow = true → s.pwr.st ≠ .dormant →
    exec .porNRelease s = .next (State.releaseDie { s with boot := { s.boot with porLow := false } })) ∧
  (∀ s : State, s.boot.porLow = true → s.pwr.st = .dormant →
    let t := State.resetDie { s with boot := { s.boot with porLow := false } } false
    exec .porNRelease s = .next (State.releaseDie { t with pins := { t.pins with pwrEn := true } }) ∧ t.pwr.st ≠ .dormant) ∧
  (∀ s : State, s.boot.xtal32 = false → s.pwr.st ≠ .dormant → exec .xt32CrystalStart s = .next (State.releaseDie
    { s with boot := { s.boot with xtal32 := true }, thim := { s.thim with rtc := 0 }, time := { s.time with tb := 0 } })) ∧
  (∀ (v : Word) (s : State), s.serving = true → v.getLsbD 31 = true → exec (.sysResetDie v) s = .next (s.restartDie true)) ∧
  (∀ s : State, s.boot.die = .booting → s.boot.failed < 3 → exec .bootStartTimeout s = .next
    (State.restartDie { s with boot := { s.boot with failed := s.boot.failed + 1, tryOther := !s.boot.tryOther } } false)) ∧
  (∀ s : State, s.boot.die = .booting → 3 ≤ s.boot.failed → exec .bootStartTimeout s = .next
    ((State.restartDie { s with boot := { s.boot with failed := s.boot.failed + 1, tryOther := !s.boot.tryOther } } false).thimLog 4 255 255 0)) ∧
  (∀ s : State, s.pwr.st = .dormant → s.pins.pwrEn = true → exec .pwrEnFall s = .next
    (let t := s.until (s.pwr.enteredAt + 1000000)
     { t with pins := { t.pins with pwrEn := false } })) ∧
  (∀ s : State, s.safeMayEnd = true → exec .safeStateExit s = .next s.leaveSafe) ∧
  (∀ s : State, ∃ t : State, exec .vddAonLow s = .next t ∧ t.thim = .reset ∧ t.boot.die = .held ∧ t.boot.failed = 0 ∧ t.boot.xtal32 = false ∧
    t.boot.safe = false ∧ t.pins.func = Vector.replicate 32 0 ∧ t.pins.level = 0 ∧ t.pins.pwrEn = true ∧ t.store = s.store ∧
    t.flash.mem = s.flash.mem ∧ t.ident = s.ident ∧ t.sec.owners = s.sec.owners)

/-- With the die starting, POR_N high, the crystal running, no safe state and an image whose security version is not below the fused
step, the device serves the host: the image and what was found are in BOOT's fields, the committed step rises only on a commit, the
stacks that failed are out of service and the others trained, the power state is IDLE, and the budget is the default's. Forms whose
exec is concluded to answer a next state: bootReady. (R694, R695, R696, R697, R733, R734, R735, R736) -/
def Obligations.BootReadyServesTheHost : Prop :=
  ∀ (b : BootInfo) (s : State), s.boot.die = .booting → s.boot.porLow = false → s.boot.xtal32 = true → s.boot.safe = false →
    s.sec.step ≤ b.secVersion → b.secVersion ≤ 512 → ∃ t, exec (.bootReady b) s = .next t ∧
      t.boot.die = .serving ∧ t.boot.ready = true ∧ t.boot.image = b.slotB ∧ t.boot.failed = 0 ∧ t.boot.storeDisc = b.storeDiscarded ∧
      t.boot.bootMs = b.bootMs ∧ t.sec.step = (if b.commit = true ∧ s.sec.step < b.secVersion then b.secVersion else s.sec.step) ∧
      t.hbm.failed = b.hbmFailed &&& (if s.ident.small then 3#4 else 15#4) ∧
      t.hbm.trained = (if s.ident.small then 3#4 else 15#4) &&& ~~~t.hbm.failed ∧ t.pwr.st = .idle ∧ t.pwr.entering = none ∧
      t.pau.budget = s.pau.budgetDef.toNat ∧ t.ident.fw = b.fwVersion ∧ t.chans = s.chans ∧ t.streams = s.streams ∧
      t.regions = s.regions ∧ t.hbm.mem = s.hbm.mem ∧ t.flash = s.flash

/-- A write of FLASH_CTL with GO, an aligned address and no operation under way starts the read, program or erase it names; program and
erase only within the slot that is not running, else DENIED is set and nothing starts. SELECT starts the write of the older
descriptor copy. An operation that ends clears BUSY; a read fills the buffer with the addressed bytes of an image slot, an erase
leaves its 64 KiB erased, a program clears bits, and a selection makes the older copy valid with the slot and the next count. Forms
whose exec is concluded to answer a next state: flashRead, flashProgram, flashErase, flashSelect, flashOperationDone. (R727, R728,
R729, R732, R788) -/
def Obligations.BootFlashRows : Prop :=
  (∀ (v : Word) (s : State), s.serving = true → bits v.toNat 30 28 = 1 → v.getLsbD 31 = true → v.toNat % 4 = 0 → s.flash.busy = false →
    s.flash.addr.toNat % 256 = 0 → exec (.flashRead v) s = .next (State.emit { s with flash := { s.flash with
      op := 1, busy := true, run := some (1, s.flash.addr.toNat), page := s.flash.buf } } (.flash 1 s.flash.addr.toNat))) ∧
  (∀ (v : Word) (s : State), s.serving = true → bits v.toNat 30 28 = 2 → v.getLsbD 31 = true → v.toNat % 4 = 0 → s.flash.busy = false →
    s.flash.addr.toNat % 256 = 0 → s.flashOpen s.flash.addr.toNat 256 = true →
    exec (.flashProgram v) s = .next (State.emit { s with flash := { s.flash with
      op := 2, busy := true, run := some (2, s.flash.addr.toNat), page := s.flash.buf } } (.flash 2 s.flash.addr.toNat))) ∧
  (∀ (v : Word) (s : State), s.serving = true → bits v.toNat 30 28 = 3 → v.getLsbD 31 = true → v.toNat % 4 = 0 → s.flash.busy = false →
    s.flash.addr.toNat % 65536 = 0 → s.flashOpen s.flash.addr.toNat 65536 = true →
    exec (.flashErase v) s = .next (State.emit { s with flash := { s.flash with
      op := 3, busy := true, run := some (3, s.flash.addr.toNat), page := s.flash.buf } } (.flash 3 s.flash.addr.toNat))) ∧
  (∀ (v : Word) (s : State), s.serving = true → bits v.toNat 30 28 = 2 → v.getLsbD 31 = true → v.toNat % 4 = 0 → s.flash.busy = false →
    s.flash.addr.toNat % 256 = 0 → s.flashOpen s.flash.addr.toNat 256 = false →
    exec (.flashProgram v) s = .next { s with flash := { s.flash with op := 2, denied := true } }) ∧
  (∀ (v : Word) (s : State), s.serving = true → bits v.toNat 30 28 = 0 → v.getLsbD 31 = false → (v.toNat % 4 = 1 ∨ v.toNat % 4 = 2) →
    s.flash.busy = false → exec (.flashSelect v) s = .next (State.emit { s with flash := { s.flash with
      op := 0, busy := true, run := some (4, v.toNat % 4 - 1), page := s.flash.buf } } (.flash 4 (v.toNat % 4 - 1)))) ∧
  (∀ (a : Nat) (s : State), s.flash.run = some (1, a) → 0x00010000 ≤ a → a < 0x02010000 → exec (.flashOperationDone false) s = .next
    { s with flash := { s.flash with busy := false, run := none
                                     buf := wordsOf ((Mem.reads s.flash.mem a 256).map fun b => ~~~b) } }) ∧
  (∀ (a : Nat) (s : State), s.flash.run = some (2, a) → exec (.flashOperationDone false) s = .next
    { s with flash := Flash.program { s.flash with busy := false, run := none } a }) ∧
  (∀ (a : Nat) (s : State), s.flash.run = some (3, a) → exec (.flashOperationDone false) s = .next
    { s with flash := { s.flash with busy := false, run := none, mem := Mem.clear s.flash.mem a (a + 65536) } }) ∧
  (∀ (slot : Fin 2) (s : State), s.flash.run = some (4, slot.val) → (s.flash.copy s.flash.current).count ≠ 0xFFFFFFFF#32 →
    ∃ t, exec (.flashOperationDone false) s = .next t ∧ t.flash.busy = false ∧ t.flash.activeB = (slot.val == 1) ∧
      (t.flash.copy t.flash.current).count = (s.flash.copy s.flash.current).count + 1 ∧ t.flash.mem = s.flash.mem ∧ Kept [.flash] s t)

/-- A 4-byte write at an aligned offset of a serving device goes to that register; another width or a misaligned write changes nothing
but REG_ERR.BAD_WIDTH with the offset; an offset without a register sets UNMAPPED. A read returns the register's value and clears
exactly the fields that a read clears, in the bytes it addresses; reading RTC_SEC latches the fraction; while the device serves
nothing no register is written. Forms whose exec is concluded to answer a next state: registerWrite, rtcSecRead, rcFieldRead. (R12,
R101, R734, R778, R779, R787, R805) -/
def Obligations.RegisterWriteAndRead : Prop :=
  (∀ (p : Fin 2) (off : BitVec 24) (w : Nat) (v : BitVec 64) (s : State), s.serving = false → exec (.registerWrite p off w v) s = .next s) ∧
  (∀ (p : Fin 2) (off : BitVec 24) (v : BitVec 64) (r : Reg) (s : State), s.serving = true → s.hasPort p.val = true → off.toNat % 4 = 0 →
    regAt off.toNat = some r → r.absent s.ident.small = false → r.journalled = false →
    exec (.registerWrite p off 4 v) s = .next (s.writeReg p.val (v.setWidth 32) r)) ∧
  (∀ (p : Fin 2) (off : BitVec 24) (v : BitVec 64) (s : State), s.serving = true → s.hasPort p.val = true → off.toNat % 4 = 0 →
    regAt off.toNat = none → exec (.registerWrite p off 4 v) s = .next { s with regErr := { s.regErr with unmapped := true, offset := off } }) ∧
  (∀ (p : Fin 2) (off : BitVec 24) (w : Nat) (v : BitVec 64) (s : State), s.serving = true → s.hasPort p.val = true →
    ¬ (w = 4 ∧ off.toNat % 4 = 0) → ¬ (w = 8 ∧ off.toNat % 8 = 0) →
    exec (.registerWrite p off w v) s = .next { s with regErr := { s.regErr with badWidth := true, offset := off } }) ∧
  (∀ (p : Fin 2) (s : State), s.serving = true → s.hasPort p.val = true →
    exec (.rtcSecRead p) s = .next (State.emit { s with thim := { s.thim with rtcLatch := some (BitVec.ofNat 32 s.thim.rtcFrac) } }
      (.mmio p (BitVec.ofNat 32 (s.thim.rtcSecond % 2 ^ 32))))) ∧
  (∀ (p : Fin 2) (s : State), s.serving = true → s.hasPort p.val = true → ∃ t, exec (.rcFieldRead p 0x04000C 4) s = .next t ∧
    t.clk = { s.clk with missed := 0 } ∧ Kept [.io, .clk] s t)

/-- Each row is the 4-byte write of its register, so it sets exactly what that register's fields set: PLL_S_CFG enables a lockable loop
with its fields or disables a held one with loss of lock, cause 6; CLKOUT_CFG starts or stops its output; an offered function code
on a free pin becomes the pin's; LANE_CFG discards saved equaliser state; EYE_CTL starts a scan on a lane in LP0; monitor set-up
writes reach their register. What may be journalled is. Forms whose exec is concluded to answer a next state: pllSEnable,
pllSDisable, clkoutEnable, clkoutDisable, pinFuncWrite, tapDiscard, eyeScanStart, monConfigWrite. (R114, R115, R116, R122, R171,
R176, R642, R786) -/
def Obligations.SetUpRegisterRows : Prop :=
  (∀ (v : Word) (s : State), s.serving = true → exec (.pllSEnable v) s = .next (s.wordWrite 0 0x040000 v)) ∧
  (∀ (v : Word) (s : State), s.serving = true → exec (.pllSDisable v) s = .next (s.wordWrite 0 0x040000 v)) ∧
  (∀ (v : Word) (s : State), s.clk.en = false → inR (bits v.toNat 27 24) 1 8 = true → inR (bits v.toNat 11 0) 112 2880 = true →
    v.getLsbD 28 = true → s.pllCfg v = (let t : State := { s with clk := { s.clk with cfg := v &&& 0xFFC00FFF#32 } }
      State.refreshOuts { t with clk := { t.clk with cfgErr := !t.clk.lockable } })) ∧
  (∀ (v : Word) (s : State), s.clk.en = true → s.clk.lock = true → v.getLsbD 28 = false →
    s.pllCfg v = State.loseLockFree { s with clk := { s.clk with cfg := s.clk.cfg &&& ~~~0x10000000#32, cfgErr := false } } 6) ∧
  (∀ (n : Fin 16) (v : Word) (s : State), s.serving = true → exec (.clkoutEnable n v) s = .next (s.wordWrite 0 (0x040100 + 8 * n.val) v)) ∧
  (∀ (n : Fin 16) (v : Word) (s : State), s.serving = true → exec (.clkoutDisable n v) s = .next (s.wordWrite 0 (0x040100 + 8 * n.val) v)) ∧
  (∀ (n : Fin 16) (v : Word) (s : State), outFunc v ≤ 3 → outFormat v ≤ 4 → bits v.toNat 15 10 ≠ 63 →
    (outFunc v = outFunc (nth s.clk.outCfg n.val 0) ∨ (s.outUsed n.val = false ∧ (nth s.clk.outCfg n.val 0).getLsbD 31 = false)) →
    ((nth s.clk.outCfg n.val 0).getLsbD 31 = true → outFormat v = outFormat (nth s.clk.outCfg n.val 0) ∧ outDiv v = outDiv (nth s.clk.outCfg n.val 0)) →
    s.clkoutCfg n.val v = State.refreshOut
      { s with clk := { s.clk with outCfg := upd s.clk.outCfg n.val fun _ => v &&& 0xFFC0FFFF#32 } } n.val) ∧
  (∀ (n : Fin 32) (v : Word) (s : State), s.serving = true → exec (.pinFuncWrite n v) s = .next (s.wordWrite 0 (0x030000 + 4 * n.val) v)) ∧
  (∀ (n : Fin 32) (v : Word) (s : State), s.pinUsed n.val = false → offered n.val (v.toNat % 16) = true → v.toNat % 16 ≠ 5 →
    nth (s.pinFunc n.val v).pins.func n.val 0 = BitVec.ofNat 4 (v.toNat % 16) ∧ Kept [.io, .pins] s (s.pinFunc n.val v)) ∧
  (∀ (n : Fin 64) (v : Word) (s : State), s.serving = true → exec (.tapDiscard n v) s = .next (s.wordWrite 0 (0x050000 + 0x40 * n.val) v)) ∧
  (∀ (n : Fin 64) (v : Word) (s : State), v.getLsbD 29 = true → ((s.laneCfg n.val v).lane n.val).saved = none ∧ Kept [.lanes] s (s.laneCfg n.val v)) ∧
  (∀ (v : Word) (s : State), s.serving = true → exec (.eyeScanStart v) s = .next (s.wordWrite 0 0x051000 v)) ∧
  (∀ (v : Word) (s : State), v.getLsbD 31 = true → s.eye.busy = false → (s.lane (v.extractLsb' 24 6).toNat).pstate = 0 →
    s.eyeCtl v = { s with eye := { s.eye with start := true, busy := true, lane := v.extractLsb' 24 6, dwell := v.extractLsb' 20 4 } }) ∧
  (∀ (v : Word) (s : State), s.serving = true → exec (.monConfigWrite 0x0B0000 v) s = .next (s.wordWrite 0 0x0B0000 v))

/-- When the reference goes, a locked PLL_S with a coast window begins to coast, a slew in progress is cut short (TIME_SUSPECT to the
next epoch) and CLOCK_COAST is raised with cause and window; with a window of 0 lock is lost with cause 5; a PLL_S that is not
locked only loses the reference. When the reference returns the offset measurement begins exactly during a coast. A phase offset
inside the threshold closes the loop and raises CLOCK_RESTORED 0; outside it policy 0 steps, realigns the dividers by the offset's
whole VCO cycles, raises TIME_BREAK and CLOCK_RESTORED 1 and suspects every group, another policy but 2 slews by at most 1 ppm, and
policy 2 loses lock with cause 2. The end of a slew raises CLOCK_RESTORED 2. A lock that may come sets LOCK, drops PPS validity and
brings up the outputs. Each row names the whole next state. Forms whose exec is concluded to answer a next state: refinAbsent,
refinPresent, phaseOffsetMeasured, slewEnd, pllSLock. (R108, R109, R117, R130, R132, R134, R135, R136, R137, R138, R166) -/
def Obligations.ReferenceEventsOfPllS : Prop :=
  (∀ (cause : Fin 2) (s : State), s.clk.lock = true → s.clk.window ≠ 0 → exec (.refinAbsent cause) s = .next (State.note
    { s with
      clk := { s.clk with refPresent := false, measuring := false, lock := false, coast := true, slewing := false, driftPpb := 0
                          coastStart := some s.now }
      time := { s.time with groupSuspect := if s.clk.slewing then Vector.replicate 16 true else s.time.groupSuspect } }
    .clockCoast 0 [(1, cause.val), (3, 0), (4, s.clk.window), (4, 0)])) ∧
  (∀ (cause : Fin 2) (s : State), s.clk.lock = true → s.clk.window = 0 → exec (.refinAbsent cause) s = .next
    (State.loseLockFree { s with clk := { s.clk with refPresent := false, measuring := false } } 5)) ∧
  (∀ (cause : Fin 2) (s : State), s.clk.lock = false → exec (.refinAbsent cause) s = .next
    { s with clk := { s.clk with refPresent := false, measuring := false } }) ∧
  (∀ s : State, exec .refinPresent s = .next { s with clk := { s.clk with refPresent := true, measuring := s.clk.coast } }) ∧
  (∀ (ps : Int) (s : State), s.clk.coast = true → s.clk.measuring = true →
    let inside := ps.natAbs ≤ 10 * bits s.clk.coastCfg.toNat 11 4
    let us := (s.now - s.clk.coastStart.getD s.now) / 1000
    let closed : State := { s with clk := { s.clk with
      lock := true, coast := false, measuring := false, coastStart := none, coastUs := us, comparePps := true } }
    (inside → exec (.phaseOffsetMeasured ps) s = .next (closed.note .clockRestored 0 [(1, 0), (3, 0), (4, us), (4, 0)])) ∧
    (¬ inside → s.clk.policy = 0 →
      let moved : State := { closed with clk := { closed.clk with realign := s.clk.realign + s.clk.vcoCycles ps } }
      exec (.phaseOffsetMeasured ps) s = .next
      ((moved.note .timeBreak 0 [(1, 0), (3, 0), (4, twos 32 (max (-(2 ^ 31 - 1 : Int)) (min (2 ^ 31 - 1) ps))), (4, twos 32 0)]).note
        .clockRestored 0 [(1, 1), (3, 0), (4, us), (4, 0)]).suspectAll) ∧
    (¬ inside → s.clk.policy = 2 → exec (.phaseOffsetMeasured ps) s = .next (s.loseLockFree 2)) ∧
    (¬ inside → s.clk.policy ≠ 0 → s.clk.policy ≠ 2 → ∃ k : Nat, 1 ≤ k ∧ k ≤ 1000 ∧ exec (.phaseOffsetMeasured ps) s = .next
      { closed with free := s.free + 1, clk := { closed.clk with slewing := true, slewPpb := if ps < 0 then -(k : Int) else k } })) ∧
  (∀ s : State, s.clk.slewing = true → exec .slewEnd s = .next (State.note { s with clk := { s.clk with slewing := false } }
    .clockRestored 0 [(1, 2), (3, 0), (4, s.clk.coastUs), (4, 0)])) ∧
  (∀ s : State, s.clk.en = true → s.clk.cfgErr = false → s.clk.refPresent = true → s.clk.lock = false → s.clk.coast = false →
    s.clocksOff = false → exec .pllSLock s = .next
      (State.refreshOuts { s with clk := { s.clk with lock := true, ppsValid := false, ppsGood := 0, ppsBad := 0 } }))

/-- During a coast the end of the window, a measured drift above the limit and a stopped crystal lose lock with causes 0, 1 and 4; a
phase error of the closed loop loses lock with cause 3. A drift within the limit is held, and what a loss in the coast reports; the
closed loop has none, a free value. A stopped crystal is held, so that the safe state does not end. A loss of lock leaves LOCK and
COAST clear and LOST set, PPSIN not valid with its counts at 0, its last edge forgotten, every sync group suspect and marked as not
yet followed by an epoch, and the time base, the identity and the flash as they were. Forms whose exec is concluded to answer a next
state: coastWindowExpiry, coastDriftExceeded, pllSPhaseError, crystalStopped. (R131, R132, R140, R142) -/
def Obligations.LossOfLockRows : Prop :=
  (∀ (s : State) (t : Nat), s.clk.coast = true → s.clk.coastStart = some t →
    exec .coastWindowExpiry s = .next ((s.until (t + s.clk.window * 1000000)).loseLockFree 0)) ∧
  (∀ (ppb : Int) (s : State), s.clk.coast = true → 100 * bits s.clk.coastCfg.toNat 19 12 < ppb.natAbs →
    exec (.coastDriftExceeded ppb) s = .next (s.loseLock 1 ppb)) ∧
  (∀ (ppb : Int) (s : State), s.clk.coast = true → ppb.natAbs ≤ 100 * bits s.clk.coastCfg.toNat 19 12 →
    exec (.coastDriftExceeded ppb) s = .next { s with clk := { s.clk with driftPpb := ppb } }) ∧
  (∀ (cause : Nat) (s : State), s.clk.coast = true → s.loseLockFree cause = s.loseLock cause s.clk.driftPpb) ∧
  (∀ s : State, s.clk.lock = true → exec .pllSPhaseError s = .next (s.loseLockFree 3)) ∧
  (∀ s : State, let t : State := { s with boot := { s.boot with xtal50 := false } }
    exec .crystalStopped s = .next (if s.clk.coast then t.loseLockFree 4 else t) ∧ t.safeMayEnd = false) ∧
  (∀ (s : State) (cause : Nat) (drift : Int), let t := s.loseLock cause drift
    t.clk.lock = false ∧ t.clk.coast = false ∧ t.clk.lost = true ∧ t.clk.slewing = false ∧ t.clk.ppsValid = false ∧ t.clk.ppsGood = 0 ∧
    t.clk.ppsBad = 0 ∧ t.time.afterLoss = 0xFFFF#16 ∧ t.time.groupSuspect = Vector.replicate 16 true ∧
    t.time.lastEdge = none ∧ t.time.tb = s.time.tb ∧ t.ident = s.ident ∧ t.flash = s.flash)

/-- An edge is in its place when it comes 1 s after the last within the window, or, while PPSIN is valid, on the flywheel's second. One
in its place, with PLL_S locked or coasting and two good edges before it, makes PPSIN valid, sets EDGE_ERR (clamped), clears the
pending comparison, and moves the second boundary of the time base to the edge. A missing or misplaced edge of a valid PPSIN counts,
and the third in a row ends validity. (The edge meant is the next at that offset, at least 1 ms after the last: log entry 61.) Forms
whose exec is concluded to answer a next state: ppsEdge, ppsEdgeMissing. (R110, R111, R112, R139, R162, R803) -/
def Obligations.PpsEdgeRows : Prop :=
  (∀ (w e l : Nat) (s : State), s.time.lastEdge = some l → s.clk.ppsValid = false →
    (s.inPlace w e = true ↔ unitS ≤ e - l + w * unitNs ∧ e - l ≤ unitS + w * unitNs)) ∧
  (∀ (ns : Int) (s : State), s.pllOk = true → 2 ≤ s.clk.ppsGood → let e := s.time.run + ((s.nextEdge ns).1 - s.time.tb)
    s.inPlace 100 e = true →
    ∃ t, exec (.ppsEdge ns) s = .next t ∧ t.clk.ppsValid = true ∧ t.clk.edgeErr = max (-32767) (min 32767 ns) ∧
      t.clk.comparePps = false ∧ t.clk.ppsBad = 0 ∧ t.time.tb = (s.nextEdge ns).2 ∧
      t.time.lastEdge = some e ∧ Kept [.now, .time, .thim, .clk, .io] s t) ∧
  (∀ (ns : Int) (s : State), s.inPlace (if s.pllOk then 100 else 2000) (s.time.run + ((s.nextEdge ns).1 - s.time.tb)) = false →
    s.clk.ppsValid = true → s.clk.ppsBad < 2 → exec (.ppsEdge ns) s = .next (let u := s.untilTb (s.nextEdge ns).1
      { u with clk := { u.clk with ppsBad := s.clk.ppsBad + 1, missed := min 65535 (s.clk.missed + 1) } })) ∧
  (∀ s : State, s.clk.ppsValid = true → s.clk.ppsBad < 2 → exec .ppsEdgeMissing s = .next
    { s with clk := { s.clk with ppsBad := s.clk.ppsBad + 1, missed := min 65535 (s.clk.missed + 1) } }) ∧
  (∀ s : State, s.clk.ppsValid = true → 2 ≤ s.clk.ppsBad → exec .ppsEdgeMissing s = .next
    { s with clk := { s.clk with ppsValid := false, ppsGood := 0, ppsBad := 0 }, time := { s.time with lastEdge := none } }) ∧
  (∀ s : State, s.clk.ppsValid = false → exec .ppsEdgeMissing s = .next
    { s with clk := { s.clk with ppsGood := 0 }, time := { s.time with lastEdge := none } })

/-- SYNC_SCHEDULE with every operand in range, PLL_S locked or coasting, PPSIN valid or HOLDOVER allowed and no clash waits for its
epoch. At the epoch's boundary it completes OK with the epoch's label and the groups of its mask carry TIME_SUSPECT only while the
time was never set; its SYSREF output pulses if it can; with PPSIN not valid and no permission it times out. TIME_SET with NOW loads
the time base and the RTC at once, while no channel runs or with FORCE; without NOW it waits for a valid PPS edge, which loads the
second, or times out 2 s after acceptance. Forms whose exec is concluded to answer a next state: syncSchedule, syncEpoch, timeSet,
timeSetLoad, timeSetTimeout. (R152, R156, R157, R158, R160, R162, R163, R164, R165) -/
def Obligations.EpochsAndTimeSet : Prop :=
  (∀ (d : Desc) (s : State), Ready .syncSchedule d s → let a := accepted .syncSchedule d s
    d.clean [(0x08, 13)] = true → epochSecond d < 2 ^ 40 → bits (d.u 0x12 1) 6 4 = 0 → d.u 0x14 1 < 4 →
    a.time.tb + 2 * unitS ≤ epochSecond d * unitS → epochSecond d * unitS ≤ a.time.tb + 3600 * unitS → epochMask d ≠ 0 →
    (bit (d.u 0x12 1) 7 = true → inR (d.u 0x13 1) 1 16 = true ∧ outFunc (nth a.clk.outCfg (d.u 0x12 1 % 16) 0) = 2) →
    a.pllOk = true → (a.clk.ppsValid = true ∨ dBit d 0x14 1 = true) → a.epochs = [] →
    exec (.syncSchedule d) s = .next (a.setInflight d.ring.val (Option.map fun f => { f with stage := .epoch, handle := d.handle }))) ∧
  (∀ (ring : Fin 16) (f : Inflight) (s : State), s.waitsAt ring.val .epoch = some f → s.clk.ppsValid = false → dBit f.d 0x14 1 = false →
    s.time.loadedAt ≠ some (epochSecond f.d, s.now) →
    exec (.syncEpoch ring) s = .next ((s.untilTb (epochSecond f.d * unitS)).finish ring.val .timeout 0 0)) ∧
  (∀ (ring : Fin 16) (f : Inflight) (s : State), s.waitsAt ring.val .epoch = some f → (s.clk.ppsValid = true ∨ dBit f.d 0x14 1 = true) →
    let label := if s.time.loadedAt = some (epochSecond f.d, s.now) then s.time.tb / unitS else epochSecond f.d
    let u := if label = epochSecond f.d then s.untilTb (epochSecond f.d * unitS) else s
    let q := u.sendSysref f.d
    let p := q.2.applyEpoch (epochMask f.d) label q.1 (dBit f.d 0x14 0)
    exec (.syncEpoch ring) s = .next (p.1.finish ring.val .ok p.2 label) ∧
    ∀ g : Fin 16, bit (epochMask f.d) g.val = true → nth p.1.time.groupSuspect g.val false = !p.1.time.timeSet) ∧
  (∀ (d : Desc) (s : State), epochOutput d = none → s.sendSysref d = (0, s)) ∧
  (∀ (d : Desc) (n : Nat) (s : State), epochOutput d = some n → s.sysrefReady n = true → s.hotSecondary = false →
    (s.sendSysref d).2 = State.emit { s with free := s.free + 1 } (.sysref n (d.u 0x13 1))) ∧
  (∀ (d : Desc) (n : Nat) (s : State), epochOutput d = some n → s.sysrefReady n = false → (s.sendSysref d).2 = { s with free := s.free + 1 }) ∧
  (∀ (d : Desc) (s : State), Ready .timeSet d s → let a := accepted .timeSet d s
    d.clean [(0x08, 13)] = true → d.u 0x08 8 < 2 ^ 40 → d.u 0x14 1 < 4 → dBit d 0x14 0 = true →
    (dBit d 0x14 1 = true ∨ ∀ c : Fin 128, (a.chan c.val).st ≠ .running) →
    ∃ t, exec (.timeSet d) s = .next (t.complete d.ring.val .ok 0 0 d.handle) ∧ t.time.tb = d.u 0x08 8 * unitS + d.u 0x10 4 * unitF ∧
      t.thim.rtc = t.time.tb ∧ t.time.timeSet = true ∧ Kept [.io, .pair, .sec, .time, .thim] a t) ∧
  (∀ (d : Desc) (s : State), Ready .timeSet d s → let a := accepted .timeSet d s
    d.clean [(0x08, 13)] = true → d.u 0x08 8 < 2 ^ 40 → d.u 0x14 1 < 4 → dBit d 0x14 0 = false →
    exec (.timeSet d) s = .next (a.setInflight d.ring.val (Option.map fun f => { f with stage := .pps, handle := d.handle }))) ∧
  (∀ (ring : Fin 16) (f : Inflight) (s : State), s.waitsAt ring.val .pps = some f → s.clk.ppsValid = true →
    (dBit f.d 0x14 1 = true ∨ ∀ c : Fin 128, (s.chan c.val).st ≠ .running) →
    ∃ t, exec (.timeSetLoad ring) s = .next (t.finish ring.val .ok 0 0) ∧ t.time.tb = f.d.u 0x08 8 * unitS ∧ t.thim.rtc = t.time.tb ∧
      t.time.timeSet = true ∧ Kept [.io, .pair, .sec, .time, .thim] s t) ∧
  (∀ (ring : Fin 16) (f : Inflight) (s : State), s.waitsAt ring.val .pps = some f → s.clk.ppsValid = false →
    exec (.timeSetTimeout ring) s = .next ((s.until (f.since + 2000000000)).finish ring.val .timeout 0 0))

/-- While ACTIVE, losing the active fabric PLL with the standby locked switches to the standby after a pause of at most 2 µs, counts the
switch and raises FABRIC_PLL_SWITCH; with the standby unlocked the safe state is entered. The failed PLL relocks as standby, and
losing the standby switches nothing. A relock shows that the crystal runs. Forms whose exec is concluded to answer a next state:
fabricPllSwitch, fabricPllRelock, standbyPllLockLoss. (R143, R144, R145, R147) -/
def Obligations.FabricPllRows : Prop :=
  (∀ (pauseNs : Nat) (s : State), s.pwr.st = .active → s.clk.fActive = false → s.clk.f1Lock = true → ∃ t,
    exec (.fabricPllSwitch pauseNs) s = .next (t.note .fabricPllSwitch 0 [(1, 1), (3, 0), (4, min 2000 pauseNs), (4, 0)]) ∧
    t.clk = { s.clk with fActive := true, switches := min 65535 (s.clk.switches + 1), f0Lock := false } ∧
    t.now = s.now + min 2000 pauseNs ∧ Kept [.now, .time, .thim, .clk] s t) ∧
  (∀ (pauseNs : Nat) (s : State), s.pwr.st = .active → s.clk.fActive = true → s.clk.f0Lock = true → ∃ t,
    exec (.fabricPllSwitch pauseNs) s = .next (t.note .fabricPllSwitch 0 [(1, 0), (3, 0), (4, min 2000 pauseNs), (4, 0)]) ∧
    t.clk = { s.clk with fActive := false, switches := min 65535 (s.clk.switches + 1), f1Lock := false } ∧
    t.now = s.now + min 2000 pauseNs ∧ Kept [.now, .time, .thim, .clk] s t) ∧
  (∀ (pauseNs : Nat) (s : State), s.pwr.st = .active → (if s.clk.fActive then s.clk.f0Lock else s.clk.f1Lock) = false →
    exec (.fabricPllSwitch pauseNs) s = .next (s.enterSafe false)) ∧
  (∀ s : State, s.pwr.st = .active → exec .fabricPllRelock s = .next
    { s with boot := { s.boot with xtal50 := true }, clk := { s.clk with f0Lock := true, f1Lock := true } }) ∧
  (∀ s : State, s.pwr.st = .active → s.clk.fActive = false →
    exec .standbyPllLockLoss s = .next { s with clk := { s.clk with f1Lock := false } }) ∧
  (∀ s : State, s.pwr.st = .active → s.clk.fActive = true →
    exec .standbyPllLockLoss s = .next { s with clk := { s.clk with f0Lock := false } })

/-- STREAM_OPEN of a new stream with parameters in range, no clash with a stream or an open in progress, a free index and its grant of
400 mW a lane holds the stream in bring-up with its lanes at stage 1 and reports the lane rate in Mbit/s; of a HELD stream it brings
the same stream up again, with a grant for the lanes that were in LP2, if any, and parks the lanes that the new map leaves out.
STREAM_CLOSE of an unused stream frees it and parks its lanes, or with HOLD keeps it HELD with its lanes in LP1. STREAM_STATUS
writes its block of 128 bytes and reports the stream's state and the lanes at stage 9; an index that no release has given yet is a
free value (log entry 2). Forms whose exec is concluded to answer a next state: streamOpen, streamClose, streamStatus. (R190, R191,
R192, R193, R194, R195, R196, R197) -/
def Obligations.StreamCommands : Prop :=
  (∀ (d : Desc) (s : State) (i : Nat), Ready .streamOpen d s → let a := accepted .streamOpen d s
    d.handle = 0 → streamOk a d = true →
    (((((List.range 32).filter fun i => (a.stream i).st != .free).map fun i => (a.stream i).claim) ++
      a.opening d.ring.val).any (lanesClash (parOf d))) = false →
    a.claimIdx 32 (fun i => (a.stream i).st == .free) = some i →
    let p := parOf d
    let b := a.setStream i fun x => { Stream.reset with gen := x.gen, st := .bringup, par := p, lanes := p.map }
    GrantedNow b 0 (400 * p.l) d.waitForPower →
    let g := withGrant b (.lanes i) (400 * p.l)
    let t := (g.setLanes p.map fun l => l.start p.rate (g.stream i).par.rate).setStream i fun x =>
      { Stream.reset with gen := x.gen, st := .bringup, par := p, lanes := p.map, since := g.now, grant := 400 * p.l }
    exec (.streamOpen d) s = .next (t.complete d.ring.val .ok (p.rate / 128000000 % 65536) 0 (t.handleOf 1 i))) ∧
  (∀ (d : Desc) (s : State), Ready .streamOpen d s → let a := accepted .streamOpen d s
    let i := hIdx d.handle
    d.handle ≠ 0 → (a.stream i).st = .held → (a.stream i).reopening = false → streamOk a d = true →
    (((((List.range 32).filter fun j => (a.stream j).st != .free && !(j == i)).map fun j => (a.stream j).claim) ++
      a.opening d.ring.val).any (lanesClash (parOf d))) = false →
    let p := parOf d
    let b := a.setStream i fun x => { x with reopening := true }
    let cold := p.map.filter fun l => (b.lane l).pstate == 2
    (cold = [] ∨ GrantedNow b 0 (400 * cold.length) d.waitForPower) →
    let g := if cold.isEmpty then b else withGrant b (.lanes i) (400 * cold.length)
    let old := (g.stream i).par.rate
    let k := g.parkLanes ((g.stream i).lanes.filter fun l => !p.map.contains l) old
    let t := (k.setLanes p.map fun l => l.start p.rate old).setStream i fun x =>
      { Stream.reset with gen := x.gen, st := .bringup, par := p, lanes := p.map, since := k.now, grant := 400 * p.l }
    exec (.streamOpen d) s = .next (t.complete d.ring.val .ok (p.rate / 128000000 % 65536) 0 (t.handleOf 1 i))) ∧
  (∀ (d : Desc) (s : State), Ready .streamClose d s → let a := accepted .streamClose d s
    let i := hIdx d.handle
    d.clean [(0x08, 1)] = true → d.u 0x08 1 ≤ 1 → a.streamUsed i d.ring.val = false → dBit d 0x08 0 = false →
    exec (.streamClose d) s = .next (((a.parkLanes (a.stream i).lanes (a.stream i).par.rate).setStream i fun x =>
      { Stream.reset with gen := nextGen x.gen }).complete d.ring.val .ok 0 0 d.handle)) ∧
  (∀ (d : Desc) (s : State), Ready .streamClose d s → let a := accepted .streamClose d s
    let i := hIdx d.handle
    d.clean [(0x08, 1)] = true → d.u 0x08 1 ≤ 1 → a.streamUsed i d.ring.val = false → dBit d 0x08 0 = true →
    exec (.streamClose d) s = .next ((((a.eyeLeave (a.stream i).lanes).setLanes (a.stream i).lanes fun l => l.idle 1).setStream i fun x =>
      { x with st := .held, next := none, deskewed := false, lateEpisode := false }).complete d.ring.val .ok 0 0 d.handle)) ∧
  (∀ (d : Desc) (s : State), Ready .streamStatus d s → let a := accepted .streamStatus d s
    d.clean [(0x08, 12)] = true → 128 ≤ d.u 0x10 4 → addrOk (d.u 0x08 8) (d.u 0x10 4) 64 = true →
    (a.stream (hIdx d.handle)).lanes.length ≤ 16 → (a.hostPort (a.flightPort d.ring.val).val).linkUp = true →
    let x := a.stream (hIdx d.handle)
    let u := if x.lastReleased.isSome then a else a.freeTake.2
    ∃ block, exec (.streamStatus d) s = .next (State.complete
      { u with io := u.io.write (a.flightPort d.ring.val).val (d.u 0x08 8) block false } d.ring.val .ok
      x.st.code (sumN (x.lanes.mapIdx fun j l => if (a.lane l).stage = 9 then 2 ^ j else 0)) d.handle) ∧ block.length = 128)

/-- Each completed stage of a lane of a stream in bring-up or DOWN sets what it found and moves the lane to the next stage; stage 6
needs the marker's polarity to be the lane's; stage 7 reads the lane's number and then waits for the pattern's end. At stage 8, with
every lane there, the skew is recorded: at most 48 ns deskews the stream, more raises LANE_FAULT 6 and restarts every lane. A stage
that takes too long raises LANE_FAULT 0 with the stage and restarts the lane; a warm lane without block lock adapts cold. Losing a
lane of an UP stream takes the stream down; in bring-up the lane alone restarts, with one LANE_FAULT (log entry 66). For a lane of
no stream nothing happens. Forms whose exec is concluded to answer a next state: laneStageComplete, laneStageTimeout,
laneColdRestart, laneLockLoss. (R180, R181, R182, R183, R184, R185, R201, R204, R207) -/
def Obligations.LaneBringUpRows : Prop :=
  (∀ (lane : Fin 64) (info : LaneInfo) (i : Nat) (s : State), s.laneStream lane.val = some i → (s.stream i).rising = true →
    ((s.lane lane.val).stage = 1 → exec (.laneStageComplete lane info) s = .next (s.setLane lane.val fun y => { y with sigDet := true, stage := 2 })) ∧
    ((s.lane lane.val).stage = 2 → exec (.laneStageComplete lane info) s = .next (s.setLane lane.val fun y => { y with cdrLock := true, stage := 3 })) ∧
    ((s.lane lane.val).stage = 3 → exec (.laneStageComplete lane info) s = .next
      ((s.adapt lane.val).setLane lane.val fun y => { y with adapted := true, stage := 4 })) ∧
    ((s.lane lane.val).stage = 4 → exec (.laneStageComplete lane info) s = .next (s.setLane lane.val fun y => { y with blockLock := true, stage := 5 })) ∧
    ((s.lane lane.val).stage = 5 → exec (.laneStageComplete lane info) s = .next (s.setLane lane.val fun y =>
      { y with marker := info.inverted, polInverted := if y.cfg.getLsbD 31 then info.inverted else y.cfg.getLsbD 30, stage := 6 })) ∧
    ((s.lane lane.val).stage = 6 → (s.lane lane.val).marker = (s.lane lane.val).polInverted →
      exec (.laneStageComplete lane info) s = .next (s.setLane lane.val fun y =>
        { y with mbLock := true, stage := if (s.stream i).par.discover && y.order.isNone then 7 else 8 })) ∧
    ((s.lane lane.val).stage = 6 → (s.lane lane.val).marker ≠ (s.lane lane.val).polInverted →
      exec (.laneStageComplete lane info) s = .next s) ∧
    ((s.lane lane.val).stage = 7 → (s.lane lane.val).order = none → info.orderFits = true → info.logical < (s.stream i).par.l →
      (∀ y ∈ (s.stream i).lanes, y ≠ lane.val → (s.lane y).order ≠ some info.logical) →
      let u := s.setLane lane.val fun y => { y with order := some info.logical }
      exec (.laneStageComplete lane info) s = .next (u.setStream i fun x => x.reorder u)) ∧
    ((s.lane lane.val).stage = 7 → (s.lane lane.val).order ≠ none →
      exec (.laneStageComplete lane info) s = .next (s.setLane lane.val fun y => { y with stage := 8 })) ∧
    ((s.lane lane.val).stage = 8 → s.pllOk = true → (s.stream i).deskewed = false → (∀ y ∈ (s.stream i).lanes, (s.lane y).stage = 8) →
      let u := s.setStream i fun x => { x with skewPs := info.skewPs }
      exec (.laneStageComplete lane info) s = .next (
        if info.skewPs ≤ 48000 then u.setStream i fun x => { x with deskewed := true, lemc0 := some (x.lemc0.getD s.time.run) }
        else (u.laneFault i lane.val 6 8 (info.skewPs / 1000)).restartAll i))) ∧
  (∀ (lane : Fin 64) (info : LaneInfo) (s : State), s.laneStream lane.val = none → exec (.laneStageComplete lane info) s = .next s ∧
    exec (.laneStageTimeout lane) s = .next s) ∧
  (∀ (lane : Fin 64) (i : Nat) (s : State), s.laneStream lane.val = some i → (s.stream i).rising = true →
    2 ≤ (s.lane lane.val).stage → (s.lane lane.val).stage ≤ 6 ∨ (s.lane lane.val).stage = 7 ∧ (s.lane lane.val).order = none ∨
      (s.lane lane.val).stage = 8 ∧ (s.stream i).deskewed = false ∧ s.pllOk = true ∧ (∀ y ∈ (s.stream i).lanes, (s.lane y).stage = 8) →
    exec (.laneStageTimeout lane) s = .next ((s.freeTake.2.laneFault i lane.val 0 (s.lane lane.val).stage s.freeTake.1.toNat).restartLane i lane.val)) ∧
  (∀ (lane : Fin 64) (s : State), (s.lane lane.val).warm = true → 2 ≤ (s.lane lane.val).stage → (s.lane lane.val).stage ≤ 4 →
    exec (.laneColdRestart lane) s = .next
      (s.setLane lane.val fun y => { y with warm := false, cdrLock := false, adapted := false, stage := 2 })) ∧
  (∀ (lane : Fin 64) (cause : Fin 4) (i : Nat) (s : State), s.laneStream lane.val = some i → (s.stream i).st = .up →
    exec (.laneLockLoss lane cause) s = .next (s.streamDown i cause.val lane.val)) ∧
  (∀ (lane : Fin 64) (cause : Fin 4) (i : Nat) (s : State), s.laneStream lane.val = some i → (s.stream i).rising = true →
    (s.lane lane.val).stage ≠ 0 → cause.val ≠ 3 → exec (.laneLockLoss lane cause) s = .next
      ((s.freeTake.2.laneFault i lane.val 0 (s.lane lane.val).stage s.freeTake.1.toNat).restartLane i lane.val))

/-- At the release point, RBD octets after an LEMC edge, a deskewed stream whose latest lane has arrived is released: it is UP with
every lane at stage 9, and its first index is 0 when it was never UP. A late lane raises LANE_FAULT 3 once an episode. A multiblock
is counted and its lanes go on adapting; of an UP stream it hands its samples on in order, zeroed and marked when the period failed;
a stream that is not in use takes none. An eye scan that ends stores its 4,096 counts. Forms whose exec is concluded to answer a
next state: releasePoint, multiblockReceived, eyeScanDone. (R175, R176, R187, R188, R198, R199, R200, R202) -/
def Obligations.StreamDataRows : Prop :=
  (∀ (i : Fin 32) (latest : Fin 64) (ns : Int) (sub : Fin 1000) (s : State), (s.stream i.val).rising = true → (s.stream i.val).deskewed = true → s.pllOk = true →
    let ps := ns * 1000 + (sub.val : Int)
    let edge := (s.stream i.val).releaseEdge s.time.run
    let u := s.untilTb (s.time.tb + (edge.2 - s.time.run))
    ((s.stream i.val).par.inTime ps = true → exec (.releasePoint i latest ns sub) s = .next (u.release i.val latest.val edge.1 ps)) ∧
    ((s.stream i.val).par.inTime ps = false → (s.stream i.val).lateEpisode = false → exec (.releasePoint i latest ns sub) s = .next
      ((u.laneFault i.val latest.val 3 9 (twos 32 ns)).setStream i.val fun x => { x with lateEpisode := true })) ∧
    ((s.stream i.val).par.inTime ps = false → (s.stream i.val).lateEpisode = true → exec (.releasePoint i latest ns sub) s = .next u)) ∧
  (∀ (i : Fin 32) (latest : Fin 64) (ps : Int) (edge : Nat) (s : State), (s.stream i.val).everUp = false →
    s.time.afterLoss.getLsbD (s.stream i.val).par.group.val = false →
    let x := (s.release i.val latest.val edge ps).stream i.val
    x.st = .up ∧ x.basis = 0 ∧ x.next = some 0 ∧ x.t0 = s.time.tb ∧ x.zeroEdge = edge ∧ x.everUp = true) ∧
  (∀ (i : Fin 32) (mb : Multiblock) (s : State), (s.stream i.val).st.runs = false → exec (.multiblockReceived i mb) s = .next s) ∧
  (∀ (i : Fin 32) (mb : Multiblock) (s : State), (s.stream i.val).st.runs = true → let u := (s.countMultiblock i.val mb).adaptAll i.val
    ((s.stream i.val).st ≠ .up → exec (.multiblockReceived i mb) s = .next u) ∧
    ((s.stream i.val).st = .up →
      let gap := mb.fifoErr || mb.failed.any fun l => (s.stream i.val).lanes.contains l.val
      let slots := mb.slots.take (s.stream i.val).par.period
      let w := if mb.fifoErr then u.sramFault 0x17 0 else u
      exec (.multiblockReceived i mb) s = .next (slots.foldl (fun s v => s.streamSample i.val v gap)
        (w.setStream i.val fun x => (x.begins w.time.run mb.arrivalPs).tally slots gap)))) ∧
  (∀ (counts : List (BitVec 16)) (s : State), counts.length = 4096 → s.eye.busy = true →
    exec (.eyeScanDone counts) s = .next { s with eye := { s.eye with busy := false, start := false, map := counts } }) ∧
  (∀ (counts : List (BitVec 16)) (s : State), counts.length ≠ 4096 → exec (.eyeScanDone counts) s = .fault .illFormed)

/-- CHAN_CREATE on a stream that is not HELD claims the lowest free index and an engine slot and leaves a STOPPED channel with the
default set-up. CHAN_DESTROY of a channel that nothing uses frees its index with the next generation. CHAN_START of a STOPPED and
CHAN_RESUME of a HALTED channel with its grant begin the channel at the later of the start index and the stream's next index, Result
A saying whether the index had passed, or leave it STARVED while the stream is not UP. CHAN_STOP drains a RUNNING channel to the
next multiple of D, waits for one that drains already, and stops a STARVED or HALTED one at once; of a STOPPED channel it completes
at once. Forms whose exec is concluded to answer a next state: chanCreate, chanDestroy, chanStart, chanResume, chanStop. (R96, R98,
R99, R213, R214, R249, R250, R251) -/
def Obligations.ChannelCommands : Prop :=
  (∀ (d : Desc) (s : State) (k : Nat) (es : List Nat) (slot : Nat), Ready .chanCreate d s → let a := accepted .chanCreate d s
    let i := hIdx d.handle
    (a.stream i).st ≠ .held → d.clean [] = true → a.claimIdx (if a.ident.small then 64 else 128) (fun k => (a.chan k).st == .empty) = some k →
    a.placeEngine (a.stream i).load = some (es, slot) →
    let b := a.setChan k fun c => { Chan.reset with
      gen := c.gen, st := .stopped, stream := i, engines := BitVec.ofNat 8 (maskOf es), slot := slot, order := a.created, fgen := 1
      fe := .default (defaultD (a.stream i).par.fs) }
    let t : State := { b with created := a.created + 1 }
    exec (.chanCreate d) s = .next
      (t.complete d.ring.val .ok (es.headD 0 * 256 + slot) (4 * slot * 256 + maskOf es) (t.handleOf 2 k))) ∧
  (∀ (d : Desc) (s : State), Ready .chanDestroy d s → let a := accepted .chanDestroy d s
    (a.chan (hIdx d.handle)).emits = false → d.clean [] = true → a.chanUsed (hIdx d.handle) = false →
    exec (.chanDestroy d) s = .next ((a.chanFree (hIdx d.handle)).complete d.ring.val .ok 0 0 d.handle)) ∧
  (∀ (s : State) (ch : Fin 128), ((s.chanFree ch.val).chan ch.val).st = .empty ∧ ((s.chanFree ch.val).chan ch.val).grant = 0) ∧
  (∀ (d : Desc) (s : State), Ready .chanStart d s → let a := accepted .chanStart d s
    let ch := hIdx d.handle
    (a.chan ch).st = .stopped → (a.chan ch).waiting = false → d.clean [(0x08, 9)] = true → d.u 0x10 1 ≤ 3 →
    let b := a.setChan ch fun c => { c with waiting := true }
    GrantedNow b 1 (a.chanCost ch) d.waitForPower →
    let g := withGrant b (.chan ch) (a.chanCost ch)
    let x := g.stream (g.chan ch).stream
    (∀ k : Nat, x.st = .up → x.next = some k →
      let late : Bool := dBit d 0x10 0 && decide (d.u 0x08 8 < k)
      let k0 := if dBit d 0x10 0 ∧ k ≤ d.u 0x08 8 then d.u 0x08 8 else k
      exec (.chanStart d) s = .next (((g.closeChanRecords ch 0).chanBegin ch k0 (dBit d 0x10 1)).complete d.ring.val .ok (b2n late) 0 d.handle)) ∧
    (x.st ≠ .up ∨ x.next = none →
      exec (.chanStart d) s = .next ((g.setChan ch fun c => { c with st := .starved, waiting := false, supFill := dBit d 0x10 1 }).complete
        d.ring.val .ok (b2n (dBit d 0x10 0 && x.next.any fun n => decide (d.u 0x08 8 < n))) 0 d.handle))) ∧
  (∀ (d : Desc) (s : State), Ready .chanResume d s → let a := accepted .chanResume d s
    let ch := hIdx d.handle
    (a.chan ch).st = .halted → (a.chan ch).waiting = false → d.clean [(0x08, 9)] = true → d.u 0x10 1 ≤ 3 →
    let b := a.setChan ch fun c => { c with waiting := true }
    GrantedNow b 1 (a.chanCost ch) d.waitForPower →
    let g := withGrant b (.chan ch) (a.chanCost ch)
    let x := g.stream (g.chan ch).stream
    (∀ k : Nat, x.st = .up → x.next = some k →
      let late : Bool := dBit d 0x10 0 && decide (d.u 0x08 8 < k)
      let k0 := if dBit d 0x10 0 ∧ k ≤ d.u 0x08 8 then d.u 0x08 8 else k
      exec (.chanResume d) s = .next (((g.closeChanRecords ch 0).chanBegin ch k0 (dBit d 0x10 1)).complete d.ring.val .ok (b2n late) 0 d.handle)) ∧
    (x.st ≠ .up ∨ x.next = none →
      exec (.chanResume d) s = .next ((g.setChan ch fun c => { c with st := .starved, waiting := false, supFill := dBit d 0x10 1 }).complete
        d.ring.val .ok (b2n (dBit d 0x10 0 && x.next.any fun n => decide (d.u 0x08 8 < n))) 0 d.handle))) ∧
  (∀ (d : Desc) (s : State), Ready .chanStop d s → d.clean [] = true → let a := accepted .chanStop d s
    let ch := hIdx d.handle
    ((a.chan ch).st = .running → exec (.chanStop d) s = .next (((a.leaveRunning ch).setChan ch fun c =>
      { c with st := .draining, stopAt := (a.stream (a.chan ch).stream).next.getD 0
               drainAt := some (ceilDiv ((a.stream (a.chan ch).stream).next.getD 0) (max 1 c.fe.d) * c.fe.d) }).setInflight
        d.ring.val (Option.map fun f => { f with stage := .drain, handle := d.handle }))) ∧
    ((a.chan ch).st = .draining → exec (.chanStop d) s = .next
      (a.setInflight d.ring.val (Option.map fun f => { f with stage := .drain, handle := d.handle }))) ∧
    ((a.chan ch).st = .starved ∨ (a.chan ch).st = .halted →
      exec (.chanStop d) s = .next ((a.enterStopped ch 0).complete d.ring.val .ok 0 0 d.handle)) ∧
    ((a.chan ch).st = .stopped → exec (.chanStop d) s = .next (a.complete d.ring.val .ok 0 0 d.handle)))

/-- CHAN_TUNE of a channel that is not RUNNING takes effect at once, of a RUNNING one at the next input or at its index, replacing a
pending word. CHAN_FILTER of a STOPPED channel claims what it names; without a user bank it stores the set-up and reports fill and
delay, with one it reads the bank first, with its claims kept meanwhile. CHAN_SPECTRAL OFF without consumers releases the transform;
otherwise it claims pipes and regions and stores the transform, or reads its user window first. Both advance the filter generation.
CHAN_PRODUCTS of a STOPPED channel stores the products with cleared accumulators. Forms whose exec is concluded to answer a next
state: chanTune, chanFilter, chanSpectral, chanProducts. (R224, R225, R226, R227, R236, R237, R245, R289, R290, R318, R319) -/
def Obligations.ChannelSetUpCommands : Prop :=
  (∀ (d : Desc) (s : State), Ready .chanTune d s → d.clean [(0x08, 6), (0x10, 9)] = true → d.u 0x18 1 ≤ 1 → let a := accepted .chanTune d s
    let ch := hIdx d.handle
    let rep := b2n (a.chan ch).tune.isSome
    let now := (a.stream (a.chan ch).stream).next.getD 0
    ((a.chan ch).st ≠ .draining → (a.chan ch).st ≠ .running → dBit d 0x18 0 = false → exec (.chanTune d) s = .next
      ((a.setChan ch fun c => { c with nco := dInt d 0x08 6, tune := none, tuneQ := [] }).complete d.ring.val .ok rep 0 d.handle)) ∧
    ((a.chan ch).st = .running → dBit d 0x18 0 = false → exec (.chanTune d) s = .next
      ((a.setChan ch fun c => { c with tune := none, tuneQ := c.tuneQ ++ [(dInt d 0x08 6, now)] }).complete d.ring.val .ok rep (now % 2 ^ 32) d.handle)) ∧
    ((a.chan ch).st ≠ .draining → dBit d 0x18 0 = true → ((a.chan ch).st = .running → now ≤ d.u 0x10 8 ∧ d.u 0x10 8 < 2 ^ 40 + now) →
      exec (.chanTune d) s = .next
        ((a.setChan ch fun c => { c with tune := some (dInt d 0x08 6, d.u 0x10 8) }).complete d.ring.val .ok rep 0 d.handle))) ∧
  (∀ (d : Desc) (p : SpecSet) (s : State), Ready .chanFilter d s → let a := accepted .chanFilter d s
    let ch := hIdx d.handle
    (a.chan ch).st = .stopped → feOk (a.stream (a.chan ch).stream).par.fs d = true → filterClaim d a = .ok p →
    (d.u 0x09 1 ≠ 0x3F → exec (.chanFilter d) s = .next (((a.setChan ch fun c => { c with fe := feOf d [], det := .reset }).setTransform
      ch d.ring.val p).complete d.ring.val .ok ((feOf d []).fillCount % 65536) ((feOf d []).delay % 2 ^ 32) d.handle)) ∧
    (d.u 0x09 1 = 0x3F → (a.hostPort (a.flightPort d.ring.val).val).linkUp = true →
      let b := a.addClaim ch ⟨d.ring.val, p, (feOf d []).d, (feOf d []).detRegion⟩
      let w := b.setInflight d.ring.val
        (Option.map fun f => { f with stage := .hostRead, handle := d.handle, asks := (d.u 0x20 8, 4 * d.u 0x28 2) })
      let io := (w.io.leaveL1 (a.flightPort d.ring.val).val).emit (.hostRead (a.flightPort d.ring.val) (d.u 0x20 8) (4 * d.u 0x28 2))
      exec (.chanFilter d) s = .next { w with io := io })) ∧
  (∀ (d : Desc) (s : State), Ready .chanSpectral d s → let a := accepted .chanSpectral d s
    let ch := hIdx d.handle
    (a.chan ch).st = .stopped → d.u 0x08 1 = 0 → d.clean [(0x08, 20)] = true → a.hasConsumers ch = false →
    exec (.chanSpectral d) s = .next ((a.setTransform ch d.ring.val .off).complete d.ring.val .ok 0 0 d.handle)) ∧
  (∀ (d : Desc) (p : SpecSet) (s : State), Ready .chanSpectral d s → let a := accepted .chanSpectral d s
    let ch := hIdx d.handle
    (a.chan ch).st = .stopped → d.u 0x08 1 ≠ 0 → specOk a d = true → spectralClaim d a = .ok p →
    let user := d.u 0x08 1 = 1 ∧ d.u 0x0B 1 = 0x3F
    let q := { p with user := [] }
    let use := pipeUse (a.stream (a.chan ch).stream).par.fs (a.chan ch).fe.d q
    (¬ user → exec (.chanSpectral d) s = .next ((a.setTransform ch d.ring.val q).complete d.ring.val .ok
      ((use / 1000000).floor.toNat % 65536) (ceilDiv q.storeUse 1024 % 65536 * 65536 + q.pipes.toNat) d.handle)) ∧
    (user → (a.hostPort (a.flightPort d.ring.val).val).linkUp = true →
      let b := a.addClaim ch ⟨d.ring.val, p, (a.chan ch).fe.d, (a.chan ch).fe.detRegion⟩
      let w := b.setInflight d.ring.val
        (Option.map fun f => { f with stage := .hostRead, handle := d.handle, asks := (d.u 0x10 8, 4 * d.u 0x18 4) })
      let io := (w.io.leaveL1 (a.flightPort d.ring.val).val).emit (.hostRead (a.flightPort d.ring.val) (d.u 0x10 8) (4 * d.u 0x18 4))
      exec (.chanSpectral d) s = .next { w with io := io })) ∧
  (∀ (ch : Fin 128) (r : Nat) (p : SpecSet) (s : State), let c := (s.setTransform ch.val r p).chan ch.val
    c.sp = p ∧ c.fgen = nextGen (s.chan ch.val).fgen ∧ c.claims = (s.chan ch.val).claims.filter fun k => k.ring != r) ∧
  (∀ (d : Desc) (s : State), Ready .chanProducts d s → let a := accepted .chanProducts d s
    let ch := hIdx d.handle
    let p := prodOf d
    (a.chan ch).st = .stopped → (a.chan ch).sp.type ≠ 0 → (p.partner ≠ 0 → a.valid 2 p.partner = true) → prodOk a ch d = true → p.mask ≠ 0 →
    p.store + a.storeTaken ch ≤ 2 ^ 26 → ((p.mask.getLsbD 5 || p.mask.getLsbD 6) = true →
      ((List.range 128).filter fun i => i != ch && (a.chan i).isX).length < 64) →
    exec (.chanProducts d) s = .next ((a.setChan ch fun c => { c.clearProducts with pr := p }).complete d.ring.val .ok
      (min 65535 (ceilDiv p.store 1024)) (p.bins / 2 ^ p.b) d.handle)) ∧
  (∀ (d : Desc) (s : State), Ready .chanProducts d s → let a := accepted .chanProducts d s
    let ch := hIdx d.handle
    (a.chan ch).st = .stopped → d.u 0x08 2 = 0 → (prodOf d).partner = 0 → prodOk a ch d = true →
    exec (.chanProducts d) s = .next ((a.setChan ch fun c => { c.clearProducts with pr := .off }).complete d.ring.val .ok 0 0 d.handle))

/-- The next output of a channel that is due and has its inputs is finished from the filter chain's result and sent on, with the swaps
that are due there applied. An uncorrectable error gives no output: a RUNNING channel halts, a DRAINING one stops. A pending word
whose index has been passed takes effect at that index. The end of a detector window adds its results to the open record. The end of
a drain stops the channel. A channel to which the event does not apply stays as it is. Forms whose exec is concluded to answer a
next state: channelOutput, retuneApply, detectorWindowEnd, channelDrainDone. (R215, R221, R222, R226, R243, R244, R252, R96) -/
def Obligations.FrontEndRows : Prop :=
  (∀ (ch : Fin 128) (x : Nat) (c' : Chan) (y : Smp) (s : State), (s.chan ch.val).dueIndex = some x →
    (s.chan ch.val).takeInputs x (s.chan ch.val).inq = (c', some y) →
    let r := (c'.applyDue (s.chan ch.val).nextOut).finishOut (s.chan ch.val).nextOut y
    exec (.channelOutput ch false) s = .next ((s.setChan ch.val fun _ => r.1).emitOutput ch.val r.2 (0 < c'.fillLeft))) ∧
  (∀ (ch : Fin 128) (s : State), let u := s.sramFault 0x10 (Nat.log2 (s.chan ch.val).engines.toNat)
    ((s.chan ch.val).st = .running → exec (.channelOutput ch true) s = .next (u.enterHalted ch.val 0)) ∧
    ((s.chan ch.val).st = .draining → exec (.channelOutput ch true) s = .next (u.enterStopped ch.val fTruncated)) ∧
    ((s.chan ch.val).emits = false → ∀ err : Bool, exec (.channelOutput ch err) s = .next s)) ∧
  (∀ (ch : Fin 128) (f : Int) (kr n : Nat) (s : State), (s.chan ch.val).tune = some (f, kr) → (s.chan ch.val).st = .running →
    (s.stream (s.chan ch.val).stream).next = some n → kr < n → (∀ x, (s.chan ch.val).dueIndex = some x → kr ≤ x) →
    (s.chan ch.val).inq = [] → (s.chan ch.val).tuneQ = [] →
    exec (.retuneApply ch) s = .next (s.setChan ch.val fun c => { c with inq := [], nco := f, tune := none, tuneFrom := some kr })) ∧
  (∀ (ch : Fin 128) (s : State), ((s.chan ch.val).tune = none ∨ (s.chan ch.val).st ≠ .running) → exec (.retuneApply ch) s = .next s) ∧
  (∀ (ch : Fin 128) (p ms r e : Nat) (w : Flags) (nco : Int) (s : State), (s.chan ch.val).det.res = some (p, ms, r, e, w, nco) →
    (∀ l : Fin 4, (nth (s.chan ch.val).cond l.val .off).type ≠ 1) → s.valid 3 (s.chan ch.val).fe.detRegion = true →
    (s.chan ch.val).det.buf.length < 255 → exec (.detectorWindowEnd ch) s = .next (s.setChan ch.val fun c => { c with det := { c.det with
      res := none, bufFirst := if c.det.buf.isEmpty then c.det.lastJ else c.det.bufFirst
      bufNco := if c.det.buf.isEmpty then nco else c.det.bufNco
      buf := c.det.buf ++ [(p, ms, r, e)], bufFlags := c.det.bufFlags ||| w } })) ∧
  (∀ (ch : Fin 128) (s : State), (s.chan ch.val).det.res = none → exec (.detectorWindowEnd ch) s = .next s) ∧
  (∀ (ch : Fin 128) (s : State), (s.chan ch.val).st = .draining → (s.chan ch.val).dueIndex = none →
    ((s.chan ch.val).sp.type = 0 ∨ (s.chan ch.val).frameOf (s.chan ch.val).nextSpec = none) →
    exec (.channelDrainDone ch) s = .next (s.enterStopped ch.val 0)) ∧
  (∀ (ch : Fin 128) (s : State), (s.chan ch.val).st ≠ .draining → exec (.channelDrainDone ch) s = .next s)

/-- A complete frame's spectrum leaves the in-pipe transform, after the frames that its pipe serves before it, or the large one; an
uncorrectable pipe word loses the frame and halts a RUNNING channel. A frame withheld for its FILL outputs leaves no spectrum. A
swap boundary applies what is due there. Intervals that have ended are handed over, with bins read as zero where their bank was
uncorrectable; the spectrum that waited longest for its partner is dropped on its time-out, from the pairs and from the calibration
alike; a spectral-kurtosis block that has ended is closed. A transform completes only on its own row. Forms whose exec is concluded
to answer a next state: spectrumComplete, largeTransformComplete, skBlockEnd, intervalBoundary, pairPartnerTimeout, swapBoundary.
(R240, R283, R284, R304, R307, R310, R313, R316, R350) -/
def Obligations.SpectrumAndProductRows : Prop :=
  (∀ (ch : Fin 128) (f : List OutSmp) (s : State), (s.chan ch.val).emits = true → (s.chan ch.val).sp.type ≠ 0 → (s.chan ch.val).sp.l ≤ 16 →
    (s.chan ch.val).frameOf (s.chan ch.val).nextSpec = some f →
    let p := (s.chan ch.val).sp.pipeOf (s.chan ch.val).nextSpec
    let u := State.serveAhead p ch.val s.outsWaiting s
    let e := ((u.sramFault 0x11 p).densTurn ch.val (s.chan ch.val).nextSpec).setChan ch.val fun c => { c with nextSpec := c.nextSpec + 1 }
    exec (.spectrumComplete ch false) s = .next (u.frameDone ch.val []) ∧
    exec (.spectrumComplete ch true) s = .next (if (s.chan ch.val).st = .running then e.enterHalted ch.val 0 else e)) ∧
  (∀ (ch : Fin 128) (f : List OutSmp) (lost : List Nat) (waits : Nat) (s : State), (s.chan ch.val).emits = true → (s.chan ch.val).sp.type ≠ 0 →
    17 ≤ (s.chan ch.val).sp.l → (s.chan ch.val).frameOf (s.chan ch.val).nextSpec = some f →
    let bad := lost.eraseDups.filter fun w => decide (w < 2 ^ (s.chan ch.val).sp.l / 4)
    exec (.largeTransformComplete ch ⟨lost, waits⟩) s = .next
      (((s.storeFaults (hIdx (s.chan ch.val).sp.region) 2 bad).overrun 2 waits).frameDone ch.val bad)) ∧
  (∀ (ch : Fin 128) (lost : List Nat) (f : List OutSmp) (s : State),
    (s.chan ch.val).frameOf (s.chan ch.val).nextSpec = some f → (s.chan ch.val).supFill = true → (orAll (f.map (·.smp.flags))).has fFill = true →
    s.frameDone ch.val lost = (s.densTurn ch.val (s.chan ch.val).nextSpec).setChan ch.val fun c =>
      { c with nextSpec := (s.chan ch.val).nextSpec + 1
               outs := c.outs.filter fun o => decide (((s.chan ch.val).nextSpec + 1) * c.sp.h ≤ o.j) }) ∧
  (∀ (ch : Fin 128) (err : Bool) (lost : List Nat) (waits : Nat) (s : State),
    ((s.chan ch.val).emits = false ∨ (s.chan ch.val).frameOf (s.chan ch.val).nextSpec = none) →
    exec (.spectrumComplete ch err) s = .next s ∧ exec (.largeTransformComplete ch ⟨lost, waits⟩) s = .next s) ∧
  (∀ (ch : Fin 128) (err : Bool) (lost : List Nat) (waits : Nat) (s : State),
    (17 ≤ (s.chan ch.val).sp.l → exec (.spectrumComplete ch err) s = .next s) ∧
    ((s.chan ch.val).sp.l < 17 → exec (.largeTransformComplete ch ⟨lost, waits⟩) s = .next s) ∧
    ((s.chan ch.val).sk = none → exec (.skBlockEnd ch lost) s = .next s)) ∧
  (∀ (ch : Fin 128) (lost : List (Nat × Nat)) (s : State), exec (.intervalBoundary ch lost) s = .next
    ((s.setChan ch.val fun c => { c with bankErr := c.bankErr ++ lost }).closeDue ch.val (s.chan ch.val).nextSpec)) ∧
  (∀ (ch : Fin 128) (s : State), (s.chan ch.val).cal.wait = [] →
    exec (.pairPartnerTimeout ch) s = .next (s.setChan ch.val fun c => { c with pairWait := c.pairWait.drop 1 })) ∧
  (∀ (ch : Fin 128) (s : State), (s.chan ch.val).pairWait = [] → exec (.pairPartnerTimeout ch) s = .next
    (s.setChan ch.val fun c => { c with cal := { c.cal with wait := c.cal.wait.drop 1 } })) ∧
  (∀ (ch : Fin 128) (a : Bool × Nat × Spectrum) (p : Bool × Spectrum) (ps : List (Bool × Spectrum)) (cs : List (Bool × Nat × Spectrum)) (s : State),
    (s.chan ch.val).pairWait = p :: ps → (s.chan ch.val).cal.wait = a :: cs → exec (.pairPartnerTimeout ch) s = .next (s.setChan ch.val fun c =>
      { c with pairWait := if p.2.m ≤ a.2.2.m then ps else p :: ps, cal := { c.cal with wait := if a.2.2.m ≤ p.2.m then cs else a :: cs } })) ∧
  (∀ (ch : Fin 128) (lost : List Nat) (a : ProdAcc) (s : State), (s.chan ch.val).sk = some a →
    (a.first + a.span ≤ (s.chan ch.val).nextSpec → exec (.skBlockEnd ch lost) s = .next
      ((s.setChan ch.val fun c => { c with bankErr := c.bankErr ++ lost.map fun b => (8, b) }).closeSk ch.val 0)) ∧
    ((s.chan ch.val).nextSpec < a.first + a.span → exec (.skBlockEnd ch lost) s = .next s)) ∧
  (∀ (ch : Fin 128) (s : State), exec (.swapBoundary ch) s = .next (s.setChan ch.val fun c => c.applyDue c.nextOut))

/-- DENS_SET with ENABLE claims the plane and its region for the channel and holds 550 mW for it; the binding waits for the frame
boundary, and nothing counts before the grant. Without ENABLE it releases the channel's plane. DENS_SNAPSHOT of a RUNNING channel's
plane waits for the frame boundary, and several may wait. At a frame boundary without a snapshot the cells decay and the counts
restart. A cell counts up by one, saturating, and no other cell changes. Forms whose exec is concluded to answer a next state:
densSet, densSnapshot, densityFrameBoundary. (R320, R321, R323, R325, R326, R327, R328) -/
def Obligations.DensityRows : Prop :=
  (∀ (d : Desc) (s : State), Ready .densSet d s → let a := accepted .densSet d s
    let ch := hIdx d.handle
    let p := d.u 0x08 1
    let rh := BitVec.ofNat 32 (d.u 0x20 4)
    dBit d 0x09 0 = true → (a.chan ch).st ≠ .draining → (a.chan ch).sp.type ≠ 0 → a.valid 3 rh = true → densOk a ch d = true →
    ((a.plane p).chan = none ∨ (a.plane p).chan = some ch) → a.writerBusy (hIdx rh) (.density p) = false →
    (planeOf d.params ch 0 0).bd * (a.stream (a.chan ch).stream).par.fs ≤ 4000000000 * (a.chan ch).sp.h * (a.chan ch).fe.d →
    let b := (a.setWriter (hIdx rh) (.density p)).setPlane p fun x => { x with chan := some ch }
    ((a.plane p).grant ≠ 0 ∨ GrantedNow b 1 550 d.waitForPower) →
    let g := if (a.plane p).grant = 0 then withGrant b (.plane p) 550 else b
    exec (.densSet d) s = .next (((g.setPlane p fun x => { x with next := some (d.params, ch) }).syncPlane p d.ring.val).complete
      d.ring.val .ok 0 0 d.handle)) ∧
  (∀ (d : Desc) (s : State), Ready .densSet d s → let a := accepted .densSet d s
    dBit d 0x09 0 = false → densOk a (hIdx d.handle) d = true → (a.plane (d.u 0x08 1)).chan = some (hIdx d.handle) →
    exec (.densSet d) s = .next ((a.freePlane (d.u 0x08 1) .wrongState).complete d.ring.val .ok 0 0 d.handle)) ∧
  (∀ (d : Desc) (s : State), Ready .densSnapshot d s → let a := accepted .densSnapshot d s
    let p := d.u 0x08 1
    d.clean [(0x08, 2)] = true → p ≤ 7 → d.u 0x09 1 ≤ 1 → ((a.plane p).bound (hIdx d.handle)).isSome = true →
    (a.chan (hIdx d.handle)).st = .running → (a.planeSlot p (slotBytes (32 + 1024 * (a.planeView p).cols))).isSome = true →
    exec (.densSnapshot d) s = .next ((a.setPlane p fun x => { x with snaps := x.snaps ++ [(d.ring, dBit d 0x09 0)] }).setInflight d.ring.val
      (Option.map fun f => { f with stage := .point, handle := d.handle }))) ∧
  (∀ (p : Fin 8) (lost : List Nat) (s : State),
    let next := ((s.plane p.val).chan.map fun ch => (s.chan ch).nextSpec).getD 0
    ((s.plane p.val).atBoundary next = true →
      exec (.densityFrameBoundary p lost) s = .next ((s.sramFaults 0x13 p.val lost).frameBoundary p.val 0 lost)) ∧
    ((s.plane p.val).atBoundary next = false → exec (.densityFrameBoundary p lost) s = .next s)) ∧
  (∀ (p : Fin 8) (s : State), (s.plane p.val).snaps = [] → (s.plane p.val).period = 0 → (s.plane p.val).next = none →
    (s.plane p.val).chan = none → s.frameBoundary p.val 0 [] = s.setPlane p.val fun y =>
      { y with cells := decayCells y.s y.cells, counted := 0, excluded := 0, frame := none, flags := 0, frames := y.frames + 1 }) ∧
  (∀ (cells : List (Nat × Nat)) (k : Nat), (cells.map (·.1)).Pairwise (· < ·) → ∀ j : Nat,
    let val := fun (l : List (Nat × Nat)) => ((l.find? fun c => c.1 == j).map (·.2)).getD 0
    val (incCell cells k) = if j = k then min (val cells + 1) (2 ^ 32 - 1) else val cells)

/-- TRIG_SET stores a condition whose fields are in range, keeping pending fires, and reports its number; with FIRE on a SOFTWARE
condition of a RUNNING channel it waits for its output. TRIG_MASK_LOAD reads its segments and writes them to the idle bank, which
becomes the active one. TRIG_COMBINE makes a new group with its inputs at the lowest free index, changes one keeping its counters,
or in mode 0 frees one that no unit uses. Forms whose exec is concluded to answer a next state: trigSet, trigMaskLoad, trigCombine.
(R384, R386, R387, R389, R390, R391, R392, R402, R403, R404, R92) -/
def Obligations.TriggerCommands : Prop :=
  (∀ (d : Desc) (s : State), Ready .trigSet d s → let a := accepted .trigSet d s
    let ch := hIdx d.handle
    d.clean [(0x08, 40)] = true → d.u 0x08 1 ≤ 3 → d.u 0x0A 1 < 8 → dBit d 0x0A 0 = false → (condOf d).type ≤ 8 →
    ((condOf d).type = 0 ∨ (condOf d).type = 7 ∨ (condOf d).type = 8 ∨ (1 ≤ (condOf d).q ∧ 1 ≤ (condOf d).r)) → condFieldsOk a ch (condOf d) = true →
    ((condOf d).spectral = true → (a.chan ch).sp.type ≠ 0) → ((condOf d).type = 4 → ((nth a.planes ((condOf d).s1 % 8) .reset).bound ch).isSome = true) →
    ((condOf d).type = 6 → a.valid 6 ((condOf d).u1.setWidth 32) = true ∧ (nth a.sweeps (hIdx ((condOf d).u1.setWidth 32)) .reset).chan = ch) →
    ((condOf d).type = 7 → a.pins.isTrigIn (condOf d).s1 = true) →
    exec (.trigSet d) s = .next ((a.setChan ch fun x => { x with cond := upd x.cond (d.u 0x08 1) fun o => { condOf d with fires := o.fires } }).complete
      d.ring.val .ok (condNo ch (d.u 0x08 1)) 0 d.handle)) ∧
  (∀ (d : Desc) (s : State), Ready .trigSet d s → let a := accepted .trigSet d s
    let ch := hIdx d.handle
    d.clean [(0x08, 40)] = true → d.u 0x08 1 ≤ 3 → d.u 0x0A 1 < 8 → dBit d 0x0A 0 = true →
    (dBit d 0x0A 1 = true → ∀ j : Nat, (a.chan ch).lastOut = some j → j * (a.chan ch).fe.d ≤ d.u 0x28 8) →
    (nth (a.chan ch).cond (d.u 0x08 1) .off).type = 8 → (a.chan ch).st = .running →
    exec (.trigSet d) s = .next ((a.setChan ch fun x => { x with cond := upd x.cond (d.u 0x08 1) fun k =>
      { k with fires := k.fires ++ [(if dBit d 0x0A 1 then some (d.u 0x28 8) else none, d.ring)] } }).setInflight d.ring.val (Option.map fun f => { f with stage := .point, handle := d.handle }))) ∧
  (∀ (d : Desc) (s : State), Ready .trigMaskLoad d s → let a := accepted .trigMaskLoad d s
    d.clean [(0x08, 1), (0x0A, 14)] = true → d.u 0x08 1 ≤ 3 → d.u 0x0A 2 ≤ 1024 → d.u 0x0A 2 ≠ 0 → addrOk (d.u 0x10 8) (8 * d.u 0x0A 2) 8 = true →
    (a.chan (hIdx d.handle)).sp.type ≠ 0 → (a.hostPort (a.flightPort d.ring.val).val).linkUp = true →
    let w := a.setInflight d.ring.val
      (Option.map fun f => { f with stage := .hostRead, handle := d.handle, asks := (d.u 0x10 8, 8 * d.u 0x0A 2) })
    let io := (w.io.leaveL1 (a.flightPort d.ring.val).val).emit (.hostRead (a.flightPort d.ring.val) (d.u 0x10 8) (8 * d.u 0x0A 2))
    exec (.trigMaskLoad d) s = .next { w with io := io }) ∧
  (∀ (d : Desc) (s : State), Ready .trigMaskLoad d s → let a := accepted .trigMaskLoad d s
    d.clean [(0x08, 1), (0x0A, 14)] = true → d.u 0x08 1 ≤ 3 → d.u 0x0A 2 = 0 → addrOk (d.u 0x10 8) 0 8 = true →
    (a.chan (hIdx d.handle)).sp.type ≠ 0 →
    exec (.trigMaskLoad d) s = .next ((a.setChan (hIdx d.handle) fun x =>
      { x with mask := upd x.mask (d.u 0x08 1) fun m => m.load (d.u 0x0C 4) [] }).complete d.ring.val .ok 0 0 d.handle)) ∧
  (∀ (d : Desc) (buf : List (BitVec 8)) (s : State), segsOk (d.u 0x0C 4) (2 ^ (s.chan (hIdx d.handle)).sp.l) (segsOf buf (d.u 0x0A 2)) = true →
    trigMaskData d buf s = .done .ok (d.u 0x0A 2) (sumN ((segsOf buf (d.u 0x0A 2)).map (·.count))) d.handle
      (s.setChan (hIdx d.handle) fun x => { x with mask := upd x.mask (d.u 0x08 1) fun m => m.load (d.u 0x0C 4) (segsOf buf (d.u 0x0A 2)) })) ∧
  (∀ (m : Mask) (base : Nat) (segs : List Seg), (m.load base segs).active = (base, segs)) ∧
  (∀ (d : Desc) (s : State) (i : Nat), Ready .trigCombine d s → let a := accepted .trigCombine d s
    d.handle = 0 → d.u 0x08 1 ≠ 0 → combineOk a d = true → (∀ c ∈ combineInputs d (d.u 0x09 1), (a.chan (c / 4)).st ≠ .empty) →
    a.claimIdx 64 (fun i => !(nth a.groups i .reset).alloc) = some i → ∃ t : State,
    exec (.trigCombine d) s = .next (t.complete d.ring.val .ok i 0 (t.handleOf 5 i)) ∧ Kept [.groups] a t ∧
    (∀ j : Nat, j ≠ i → nth t.groups j .reset = nth a.groups j .reset) ∧
    (i < 64 → let x := nth t.groups i .reset
      x.alloc = true ∧ x.gen = (nth a.groups i .reset).gen ∧ x.mode = d.u 0x08 1 ∧ x.inputs = combineInputs d (d.u 0x09 1) ∧ x.t = d.u 0x10 4 ∧ x.hits = [] ∧
      x.fired = 0)) ∧
  (∀ (d : Desc) (s : State), Ready .trigCombine d s → let a := accepted .trigCombine d s
    let i := hIdx d.handle
    d.handle ≠ 0 → d.u 0x08 1 ≠ 0 → combineOk a d = true → (∀ c ∈ combineInputs d (d.u 0x09 1), (a.chan (c / 4)).st ≠ .empty) → ∃ t : State,
    exec (.trigCombine d) s = .next (t.complete d.ring.val .ok i 0 d.handle) ∧ Kept [.groups] a t ∧
    (∀ j : Nat, j ≠ i → nth t.groups j .reset = nth a.groups j .reset) ∧
    (i < 64 → let x := nth t.groups i .reset
      let o := nth a.groups i .reset
      x.alloc = true ∧ x.gen = o.gen ∧ x.mode = d.u 0x08 1 ∧ x.inputs = combineInputs d (d.u 0x09 1) ∧ x.t = d.u 0x10 4 ∧ x.hits = [] ∧
      x.fired = o.fired ∧ x.late = o.late ∧ x.dropped = o.dropped)) ∧
  (∀ (d : Desc) (s : State), Ready .trigCombine d s → let a := accepted .trigCombine d s
    d.handle ≠ 0 → d.u 0x08 1 = 0 → combineOk a d = true →
    (∀ u : Fin 128, (a.acq u.val).st ≠ .none → (a.acq u.val).par.mode ≠ 3 → (a.acq u.val).par.line ≠ hIdx d.handle) →
    exec (.trigCombine d) s = .next (State.complete
      { a with groups := upd a.groups (hIdx d.handle) fun o => { Group.reset with gen := nextGen o.gen } } d.ring.val .ok (hIdx d.handle) 0 d.handle))

/-- A new level of a ball that is no trigger input, or the level it had, is only noted. An edge within 16 ns of the last is merged.
Another edge is an edge for every EDGE condition on the pin. A group decides its earliest pending time once every horizon has passed
it: a hit pattern that fires triggers and empties the window, one that does not fire moves its hits to the window; with none pending
it decides nothing. A queued pulse is driven at its instant and a pulse ends at its end; without one nothing happens. Forms whose
exec is concluded to answer a next state: trigIoEdge, triggerDecision, trigIoTimedDrive, trigIoPulseEnd. (R378, R379, R380, R381,
R383, R396, R397, R398, R399, R406) -/
def Obligations.TriggerPinAndGroupRows : Prop :=
  (∀ (pin : Fin 16) (level : Bool) (s : State), (s.pins.isTrigIn pin.val = false ∨ s.pins.level.getLsbD pin.val = level) →
    exec (.trigIoEdge pin level) s = .next { s with pins := { s.pins with level := setBit s.pins.level pin.val level } }) ∧
  (∀ (pin : Fin 16) (level : Bool) (l : Nat) (s : State), s.pins.isTrigIn pin.val = true → s.pins.level.getLsbD pin.val ≠ level →
    nth s.pins.lastEdge pin.val none = some l →
    s.time.tb / unitNs * unitNs - (nth s.pins.cfg pin.val 0).toNat % 65536 * 100 * unitPs < l + 16 * unitNs →
    exec (.trigIoEdge pin level) s = .next { s with pins := { s.pins with
      level := setBit s.pins.level pin.val level, merged := upd s.pins.merged pin.val fun c => min 65535 (c + 1) } }) ∧
  (∀ (pin : Fin 16) (level : Bool) (s : State), s.pins.isTrigIn pin.val = true → s.pins.level.getLsbD pin.val ≠ level →
    let t := s.time.tb / unitNs * unitNs - (nth s.pins.cfg pin.val 0).toNat % 65536 * 100 * unitPs
    ((nth s.pins.lastEdge pin.val none).all fun l => decide (l + 16 * unitNs ≤ t)) = true →
    let u : State := { s with pins := { s.pins with
      level := setBit s.pins.level pin.val level, lastEdge := upd s.pins.lastEdge pin.val fun _ => some t } }
    let edge : Nat := if level = (nth s.pins.cfg pin.val 0).getLsbD 31 then 1 else 0
    exec (.trigIoEdge pin level) s = .next ((List.range 512).foldl (fun (s : State) n =>
      let c := s.chan (n / 4)
      let k := nth c.cond (n % 4) .off
      if c.emits = true ∧ k.type = 7 ∧ k.s1 = pin.val ∧ bit k.s2 edge = true then
        s.condHit (n / 4) (n % 4) (ceilDiv ((s.stream c.stream).indexAt t) (max 1 c.fe.d) * max 1 c.fe.d)
      else s) u)) ∧
  (∀ (g : Fin 64) (h : Hit) (s : State), let x := nth s.groups g.val .reset
    x.alloc = true → h ∈ x.hits → (∀ k ∈ x.hits, h.time ≤ k.time) → s.horizonsPast x h.time = true →
    (∀ cause : Nat, x.fires h.time = some cause → let t := s.trigger g.val h.time cause
      exec (.triggerDecision g) s = .next { t with groups := upd t.groups g.val fun y =>
        { y with hits := y.hits.filter (fun k => decide (h.time < k.time)), past := [], last := some h.time } }) ∧
    (x.fires h.time = none → exec (.triggerDecision g) s = .next { s with groups := upd s.groups g.val fun y => { y with
      hits := y.hits.filter (fun k => decide (h.time < k.time)), last := some h.time
      past := (y.past ++ y.hits.filter fun k => k.time == h.time).filter fun k => within y.t h.time k.time } })) ∧
  (∀ (g : Fin 64) (s : State), (nth s.groups g.val .reset).hits = [] → exec (.triggerDecision g) s = .next s) ∧
  (∀ (pin : Fin 16) (due : Nat) (rest : List Nat) (s : State), nth s.pins.queue pin.val [] = due :: rest →
    exec (.trigIoTimedDrive pin) s = .next (let t := s.untilTb due
      State.drivePin { t with pins := { t.pins with queue := upd t.pins.queue pin.val fun _ => rest } } pin.val)) ∧
  (∀ (pin : Fin 16) (s : State), nth s.pins.queue pin.val [] = [] → exec (.trigIoTimedDrive pin) s = .next s) ∧
  (∀ (pin : Fin 16) (s : State), s.muted = false → s.drivePin pin.val = State.emit { s with pins := { s.pins with
    pulseEnd := upd s.pins.pulseEnd pin.val fun _ => some (s.time.tb + bits (nth s.pins.cfg pin.val 0).toNat 23 16 * 8 * unitNs) } }
      (.pin pin.val (!(nth s.pins.cfg pin.val 0).getLsbD 31))) ∧
  (∀ (pin : Fin 16) (e : Nat) (s : State), nth s.pins.pulseEnd pin.val none = some e →
    exec (.trigIoPulseEnd pin) s = .next (let t := s.untilTb e
      State.emit { t with pins := { t.pins with pulseEnd := upd t.pins.pulseEnd pin.val fun _ => none } }
        (.pin pin.val ((nth s.pins.cfg pin.val 0).getLsbD 31)))) ∧
  (∀ (pin : Fin 16) (s : State), nth s.pins.pulseEnd pin.val none = none → exec (.trigIoPulseEnd pin) s = .next s)

/-- ACQ_SET with a source on a region that no writer has puts the lowest free unit there, IDLE with its counters at zero, and makes it
the region's writer; on a region whose unit is IDLE or DONE it sets the unit again and keeps its counters; source 0 frees the unit.
ACQ_ARM starts the unit: STREAMING in mode 3, else FILLING, and in modes 0 to 2 marks the region's records as delivered. ACQ_DISARM
makes a unit IDLE: at once outside a capture, and inside one when bit 0 cuts it; else it waits for the capture's end. ACQ_FORCE
reports what the trigger does: accepted, early or overlapping. Forms whose exec is concluded to answer a next state: acqSet, acqArm,
acqDisarm, acqForce. (R438, R446, R448, R466, R467, R468, R469, R470, R105) -/
def Obligations.AcquisitionCommands : Prop :=
  (∀ (d : Desc) (u : Nat) (s : State), Ready .acqSet d s → let a := accepted .acqSet d s
    let i := hIdx d.handle
    let p := acqPar d
    let x : Acq := { Acq.reset with st := .idle, region := i, par := p }
    p.source ≠ 0 → (p.source = 1 → a.valid 1 (acqSource d) = true ∧ (a.stream p.srcIdx).st ≠ .held) →
    (p.source = 2 ∨ p.source = 3 → a.valid 2 (acqSource d) = true) → (p.source = 3 → (a.chan p.srcIdx).makes p.code = true) →
    acqParOk a d i = true → (a.region i).writer = .none → firstIdx 128 (fun u => (a.acq u).st == .none) = some u →
    exec (.acqSet d) s = .next (State.complete ((a.setAcq u fun _ => x).setWriter i (.acq u)) d.ring.val .ok u (acqResultB a x) d.handle)) ∧
  (∀ (d : Desc) (u : Nat) (s : State), Ready .acqSet d s → let a := accepted .acqSet d s
    let i := hIdx d.handle
    let p := acqPar d
    let o := a.acq u
    let x : Acq := { Acq.reset with
      st := .idle, region := i, par := p, early := o.early, hold := o.hold, overlap := o.overlap, dropped := o.dropped }
    p.source ≠ 0 → (p.source = 1 → a.valid 1 (acqSource d) = true ∧ (a.stream p.srcIdx).st ≠ .held) →
    (p.source = 2 ∨ p.source = 3 → a.valid 2 (acqSource d) = true) → (p.source = 3 → (a.chan p.srcIdx).makes p.code = true) →
    acqParOk a d i = true → (a.region i).writer = .acq u → (o.st = .idle ∨ o.st = .done) →
    exec (.acqSet d) s = .next (((a.setAcq u fun _ => x).chanLevel o).complete d.ring.val .ok u (acqResultB a x) d.handle)) ∧
  (∀ (d : Desc) (u : Nat) (s : State), Ready .acqSet d s → let a := accepted .acqSet d s
    d.u 0x08 1 = 0 → (a.region (hIdx d.handle)).writer = .acq u → ((a.acq u).st = .idle ∨ (a.acq u).st = .done) → acqReserved d = true →
    exec (.acqSet d) s = .next ((((a.setAcq u fun _ => .reset).chanLevel (a.acq u)).setWriter
      (hIdx d.handle) .none).complete d.ring.val .ok u 0 d.handle)) ∧
  (∀ (d : Desc) (u : Nat) (s : State), Ready .acqArm d s → let a := accepted .acqArm d s
    let o := a.acq u
    (a.region (hIdx d.handle)).writer = .acq u → (o.st = .idle ∨ o.st = .done) → (3 ≤ o.par.mode → (a.region o.region).sink ≠ none) →
    d.clean [(0x08, 9)] = true → d.u 0x10 1 < 2 →
    let idx := if dBit d 0x10 0 then some (d.u 0x08 8) else none
    let b : State := if o.par.mode ≤ 2 then
        { a with regions := upd a.regions o.region fun r => { r with recs := r.recs.map fun x : Rec => { x with delivered := true } } }
      else a
    exec (.acqArm d) s = .next ((b.setAcq u fun y =>
      { y with st := if y.par.mode = 3 then .streaming else .filling, armIdx := idx, hist := [], firstNo := none, cap := none, segment := 0
               holdEnd := 0, holdLeft := 0 }).complete d.ring.val .ok 0 0 d.handle)) ∧
  (∀ (d : Desc) (u : Nat) (s : State), Ready .acqDisarm d s → let a := accepted .acqDisarm d s
    d.clean [(0x08, 1)] = true → d.u 0x08 1 < 2 → (a.region (hIdx d.handle)).writer = .acq u → (a.acq u).st ≠ .capture →
    let b := if (a.acq u).st = .streaming ∧ (a.acq u).par.source ≠ 3 then a.cutChunk u 0 else a
    exec (.acqDisarm d) s = .next ((b.acqIdle u).complete d.ring.val .ok 0 0 d.handle)) ∧
  (∀ (d : Desc) (u : Nat) (s : State), Ready .acqDisarm d s → let a := accepted .acqDisarm d s
    d.clean [(0x08, 1)] = true → d.u 0x08 1 < 2 → (a.region (hIdx d.handle)).writer = .acq u → (a.acq u).st = .capture →
    (dBit d 0x08 0 = true → exec (.acqDisarm d) s = .next
      (((a.acqBreak u fTruncated).acqIdle u).complete d.ring.val .ok 0 0 d.handle)) ∧
    (dBit d 0x08 0 = false → exec (.acqDisarm d) s = .next ((a.setAcq u fun y => { y with disarm := y.disarm ++ [d.ring] }).setInflight d.ring.val
      (Option.map fun f => { f with stage := .point, handle := d.handle })))) ∧
  (∀ (u : Fin 128) (s : State), (s.acq u.val).disarm = [] → s.acqIdle u.val = s.setAcq u.val fun y =>
    { y with disarm := [], st := .idle, cap := none, hist := [], firstNo := none, armIdx := none }) ∧
  (∀ (d : Desc) (u : Nat) (s : State), Ready .acqForce d s → let a := accepted .acqForce d s
    let o := a.acq u
    d.clean [(0x08, 9)] = true → d.u 0x10 1 < 2 → (a.region (hIdx d.handle)).writer = .acq u →
    (o.st = .filling ∨ o.st = .armed ∨ o.st = .capture ∨ o.st = .holdoff) → o.par.mode ≠ 3 → o.disarm = [] →
    let xt := if dBit d 0x10 0 then d.u 0x08 8 else ((a.nextItem o).getD 0) * a.acqPitch o
    let r := a.acqTrigger u xt ((a.stream (a.acqStream o)).timeOf xt) (causeMask 0 true false 0) o.par.line true
    exec (.acqForce d) s = .next (r.1.complete d.ring.val .ok (match r.2 with | .early => 1 | .overlapping => 2 | _ => 0) 0 d.handle))

/-- A hold-off in ns ends in ARMED at its instant. A capture whose items are all in the circle is closed. A chunk that has reached its
multiple of C is put as one record, and the items after it stay; nothing else moves a unit's record. With ARR the level goes up one
step at a fill of HIGH or more, and down one at LOW or less after the dwell, each reported by RATE_STEP; a unit of a secondary does
not step by itself. Forms whose exec is concluded to answer a next state: holdoffEnd, captureComplete, chunkClose, arrStepUp,
arrStepDown. (R441, R445, R449, R451, R456, R457, R676) -/
def Obligations.AcquisitionRows : Prop :=
  (∀ (u : Fin 128) (s : State), (s.acq u.val).st = .holdoff → (s.acq u.val).par.flags.getLsbD 4 = false →
    exec (.holdoffEnd u) s = .next ((s.until (s.now + ceilDiv ((s.acq u.val).holdEnd - s.time.tb) unitNs)).setAcq u.val
      fun a => { a with st := .armed })) ∧
  (∀ (u : Fin 128) (s : State), ((s.acq u.val).st ≠ .holdoff ∨ (s.acq u.val).par.flags.getLsbD 4 = true) → exec (.holdoffEnd u) s = .next s) ∧
  (∀ (u : Fin 128) (lost : List Nat) (zeroed : List (Nat × Nat)) (c : Capture) (x : Item) (s : State), (s.acq u.val).cap = some c →
    (s.acq u.val).hist.getLast? = some x → (s.acq u.val).par.mode ≤ 2 → c.toNo ≤ x.no →
    exec (.captureComplete u lost zeroed) s = .next (s.closeCapture u.val c.toNo 0 lost zeroed)) ∧
  (∀ (u : Fin 128) (lost : List Nat) (zeroed : List (Nat × Nat)) (s : State), (s.acq u.val).cap = none →
    exec (.captureComplete u lost zeroed) s = .next s) ∧
  (∀ (u : Fin 128) (lost : List Nat) (zeroed : List (Nat × Nat)) (x l : Item) (rest : List Item) (s : State),
    (s.acq u.val).hist = x :: rest → (x :: rest).getLast? = some l → 3 ≤ (s.acq u.val).par.mode → (s.acq u.val).par.source ≠ 3 →
    let bound := (x.no / max 1 (s.acq u.val).par.c + 1) * (s.acq u.val).par.c
    (bound ≤ l.no + 1 →
      let p := s.acqLost u.val lost ((x :: rest).filter fun y => decide (y.no < bound))
      let q := p.1.acqZeroed u.val zeroed p.2.1
      exec (.chunkClose u lost zeroed) s = .next (((q.1.putChunk u.val q.2 p.2.2).setAcq u.val
        fun a => { a with hist := (x :: rest).filter fun y => decide (bound ≤ y.no) }).newLevel u.val)) ∧
    (l.no + 1 < bound → exec (.chunkClose u lost zeroed) s = .next s)) ∧
  (∀ (u : Fin 128) (lost : List Nat) (zeroed : List (Nat × Nat)) (s : State), (s.acq u.val).hist = [] →
    exec (.chunkClose u lost zeroed) s = .next s) ∧
  (∀ (u : Fin 128) (s : State), (s.acq u.val).arr = true → s.pair.role ≠ .secondary → (s.acq u.val).par.high ≤ (s.region (s.acq u.val).region).fill →
    let level := (s.acq u.val).newLevel.getD (s.acq u.val).level
    level < (s.acq u.val).par.arrMax → ((s.acq u.val).lastStep = 0 ∨ (s.acq u.val).lastStep + 1000000 ≤ s.now) →
    exec (.arrStepUp u) s = .next (s.arrStep u.val (level + 1))) ∧
  (∀ (u : Fin 128) (s : State), (s.acq u.val).arr = true → s.pair.role ≠ .secondary → (s.region (s.acq u.val).region).fill ≤ (s.acq u.val).par.low →
    let level := (s.acq u.val).newLevel.getD (s.acq u.val).level
    0 < level → (s.acq u.val).lastStep + (s.acq u.val).par.dwell * 1000000 ≤ s.now →
    exec (.arrStepDown u) s = .next (s.arrStep u.val (level - 1))) ∧
  (∀ (u : Fin 128) (s : State), (s.pair.role = .secondary ∨ (s.acq u.val).arr = false) → exec (.arrStepUp u) s = .next s ∧ exec (.arrStepDown u) s = .next s) ∧
  (∀ (u : Fin 128) (new : Nat) (s : State), (s.acq u.val).hist = [] ∨ (s.acq u.val).par.source = 3 →
    ((s.arrStep u.val new).acq u.val).level = new ∧ ((s.arrStep u.val new).acq u.val).newLevel = none ∧
    ((s.arrStep u.val new).acq u.val).lastStep = s.now)

/-- SWEEP_SET with handle 0 claims the lowest free unit and writes its set-up and both regions' writers; with an idle unit's handle it
sets that unit again; type 0 on an idle unit frees it and its regions. SWEEP_RUN starts an idle unit with its grant at its channel's
next spectrum; a stop takes effect at once on an idle unit or without spectra, else it waits for the spectrum boundary; it closes a
record, or reads a row mask, which waits. A decided block gives its candidates, and the flush period closes the open record. Forms
whose exec is concluded to answer a next state: sweepSet, sweepRun, sweepBlockDecided, sweepFlushPeriod. (R412, R413, R426, R430,
R434, R435, R436) -/
def Obligations.SweepCommandsAndRows : Prop :=
  (∀ (d : Desc) (u : Nat) (s : State), Ready .sweepSet d s → let a := accepted .sweepSet d s
    let x0 := sweepOf d
    let c := a.chan x0.chan
    let x := { x0 with phi := shapes x0.type (min 4096 x0.nr) (a.rowFreqs x0) }
    d.handle = 0 → d.u 0x0C 1 ≠ 0 → a.valid 2 (BitVec.ofNat 32 (d.u 0x08 4)) = true → a.valid 3 x0.candRegion = true → a.valid 3 x0.histRegion = true →
    c.sp.type ≠ 0 → sweepOk a d x = true → a.claimIdx (if a.ident.small then 1 else 2) (fun u => !(a.sweep u).claimed) = some u →
    a.writerBusy (hIdx x.candRegion) (.sweepCand u) = false → a.writerBusy (hIdx x.histRegion) (.sweepHist u) = false → x.candRegion ≠ x.histRegion →
    x.nr * (a.stream c.stream).par.fs ≤ 1000000000 * c.sp.h * c.fe.d →
    let b := (((a.dropWriter (.sweepCand u)).dropWriter (.sweepHist u)).setWriter (hIdx x.candRegion) (.sweepCand u)).setWriter (hIdx x.histRegion) (.sweepHist u)
    let t := b.setSweep u fun o => { x with
      gen := o.gen, dropped := o.dropped, evtLimited := o.evtLimited, sums := List.replicate x.nt [], noise := List.replicate (7 * x.nt) 0 }
    exec (.sweepSet d) s = .next (t.complete d.ring.val .ok u x.maxDelay (t.handleOf 6 u))) ∧
  (∀ (d : Desc) (s : State), Ready .sweepSet d s → let a := accepted .sweepSet d s
    let x0 := sweepOf d
    let c := a.chan x0.chan
    let x := { x0 with phi := shapes x0.type (min 4096 x0.nr) (a.rowFreqs x0) }
    let u := hIdx d.handle
    d.handle ≠ 0 → d.u 0x0C 1 ≠ 0 → a.valid 2 (BitVec.ofNat 32 (d.u 0x08 4)) = true → a.valid 3 x0.candRegion = true → a.valid 3 x0.histRegion = true →
    (a.sweep u).run = false → (a.sweep u).stopping = [] → c.sp.type ≠ 0 → sweepOk a d x = true →
    a.writerBusy (hIdx x.candRegion) (.sweepCand u) = false → a.writerBusy (hIdx x.histRegion) (.sweepHist u) = false → x.candRegion ≠ x.histRegion →
    x.nr * (a.stream c.stream).par.fs ≤ 1000000000 * c.sp.h * c.fe.d →
    let b := (((a.dropWriter (.sweepCand u)).dropWriter (.sweepHist u)).setWriter (hIdx x.candRegion) (.sweepCand u)).setWriter (hIdx x.histRegion) (.sweepHist u)
    let t := b.setSweep u fun o => { x with
      gen := o.gen, dropped := o.dropped, evtLimited := o.evtLimited, sums := List.replicate x.nt [], noise := List.replicate (7 * x.nt) 0 }
    exec (.sweepSet d) s = .next (t.complete d.ring.val .ok u x.maxDelay (t.handleOf 6 u))) ∧
  (∀ (d : Desc) (s : State), Ready .sweepSet d s → let a := accepted .sweepSet d s
    d.handle ≠ 0 → d.u 0x0C 1 = 0 → (a.sweep (hIdx d.handle)).run = false → (a.sweep (hIdx d.handle)).stopping = [] →
    d.clean [(0x08, 0x2E)] = true → d.u 0x0E 1 ≤ 15 → d.u 0x0F 1 ≤ 127 →
    exec (.sweepSet d) s = .next ((a.sweepFree (hIdx d.handle)).complete d.ring.val .ok (hIdx d.handle) 0 d.handle)) ∧
  (∀ (d : Desc) (s : State), Ready .sweepRun d s → d.clean [(0x08, 1), (0x10, 8)] = true → let a := accepted .sweepRun d s
    let u := hIdx d.handle
    (d.u 0x08 1 = 0 → (a.sweep u).run = false → (a.sweep u).stopping = [] → exec (.sweepRun d) s = .next (a.complete d.ring.val .ok 0 0 d.handle)) ∧
    (d.u 0x08 1 = 0 → ((a.sweep u).run = true ∧ (a.chan (a.sweep u).chan).emits = true ∨ (a.sweep u).run = false ∧ (a.sweep u).stopping ≠ []) →
      exec (.sweepRun d) s = .next ((a.setSweep u fun x => { x with stopping := x.stopping ++ [d.ring] }).setInflight d.ring.val
        (Option.map fun f => { f with stage := .point, handle := d.handle }))) ∧
    (d.u 0x08 1 = 0 → (a.sweep u).run = true → (a.chan (a.sweep u).chan).emits = false → (a.sweep u).stopping = [] →
      let c := (a.setSweep u fun x => { x with stopping := [], run := false, grant := 0 }).sweepRecord u
      c.2 = true → (c.1.sweep u).queue = [] → exec (.sweepRun d) s = .next (c.1.complete d.ring.val .ok 0 0 d.handle)) ∧
    (d.u 0x08 1 = 1 → (a.sweep u).run = false → (a.sweep u).stopping = [] → GrantedNow a 1 3400 d.waitForPower →
      exec (.sweepRun d) s = .next ((((withGrant a (.sweep u) 3400).setSweep u fun x => { x with run := true, restart := true }).sweepMask u 0).complete
        d.ring.val .ok 0 0 d.handle)) ∧
    (d.u 0x08 1 = 2 → (a.sweepRecord u).2 = true → exec (.sweepRun d) s = .next ((a.sweepRecord u).1.complete d.ring.val .ok 0 0 d.handle)) ∧
    (d.u 0x08 1 = 3 → addrOk (d.u 0x10 8) 512 8 = true → (a.hostPort (a.flightPort d.ring.val).val).linkUp = true →
      let w := a.setInflight d.ring.val (Option.map fun f => { f with stage := .hostRead, handle := d.handle, asks := (d.u 0x10 8, 512) })
      let io := (w.io.leaveL1 (a.flightPort d.ring.val).val).emit (.hostRead (a.flightPort d.ring.val) (d.u 0x10 8) 512)
      exec (.sweepRun d) s = .next { w with io := io })) ∧
  (∀ (d : Desc) (buf : List (BitVec 8)) (s : State), sweepMaskData d buf s = .wait .point d.handle (s.setSweep (hIdx d.handle) fun x => { x with
    maskNext := some ((List.range (s.sweep (hIdx d.handle)).nr).map fun r => bit (num buf (r / 8) 1) (r % 8),
      (x.maskNext.map (·.2)).getD [] ++ [d.ring]) })) ∧
  (∀ (u : Fin 2) (lost : List (Nat × Nat)) (waits : Nat) (s : State), let v := s.sweep u.val
    let v : Sweep := { v with hist := v.hist.map fun (k : SweepCol) => if lost.any (fun z => z.1 == k.m) then
      { k with cells := k.cells.mapIdx (fun r v => if lost.contains (k.m, r) then 0 else v), flags := k.flags ||| fPoison } else k }
    let pitch := (s.chan v.chan).sp.h * (s.chan v.chan).fe.d
    (∀ (x : Sweep) (cs : List Cand), v.nextBlock pitch = some (x, cs) → exec (.sweepBlockDecided u ⟨lost, waits⟩) s = .next
      (cs.foldl (fun s k => s.sweepCand u.val k) (((s.overrun 3 waits).storeFaults (hIdx v.histRegion) 3
        (lost.map fun z => (v.columnAt z.1 + 2 * z.2) / 32).eraseDups).setSweep u.val fun _ => x))) ∧
    (v.nextBlock pitch = none → exec (.sweepBlockDecided u ⟨lost, waits⟩) s = .next s)) ∧
  (∀ (u : Fin 2) (t : Nat) (s : State), (s.sweep u.val).recStart = some t → let e := s.until (t + (s.sweep u.val).flushMs * 1000000)
    (((s.sweep u.val).stopping = [] ∨ (s.sweep u.val).run = true) → exec (.sweepFlushPeriod u) s = .next (e.sweepRecord u.val).1) ∧
    ((s.sweep u.val).stopping ≠ [] → (s.sweep u.val).run = false → exec (.sweepFlushPeriod u) s = .next (e.sweepStop u.val))) ∧
  (∀ (u : Fin 2) (s : State), (s.sweep u.val).recStart = none → exec (.sweepFlushPeriod u) s = .next s)

/-- CAL_SET with POLICY_ONLY notes the policy for the next period; without ENABLE it takes a STOPPED channel out of its group; with
ENABLE a channel heads its own group with a drive, or joins the group of its reference, which restarts. CAL_FREEZE freezes the group
at once and withdraws its pending swaps; clearing it takes effect at once while nothing is accumulated, else at the next period.
CAL_TABLE_LOAD reads its data and with bit 0 clear writes the templates only, at once. Forms whose exec is concluded to answer a
next state: calSet, calFreeze, calTableLoad. (R354, R356, R357, R358, R359, R360, R361, R362) -/
def Obligations.CalibrationCommands : Prop :=
  (∀ (d : Desc) (s : State), Ready .calSet d s → let a := accepted .calSet d s
    let c := a.chan (hIdx d.handle)
    dBit d 0x08 3 = true → c.cal.on = true → policyOk d = true → subtractOk c (d.u 0x09 1) c.cal.fc c.cal.bc c.cal.b = true →
    exec (.calSet d) s = .next ((a.setChan (hIdx d.handle) fun c => { c with cal := { c.cal with newPolicy := some (polOf d) } }).complete
      d.ring.val .ok 0 0 d.handle)) ∧
  (∀ (d : Desc) (s : State), Ready .calSet d s → let a := accepted .calSet d s
    let ch := hIdx d.handle
    dBit d 0x08 3 = false → dBit d 0x08 0 = false → calClean d = true → (a.chan ch).st = .stopped →
    ((a.chan ch).cal.on = false ∨ (a.chan ch).cal.ref ≠ 0 ∨ a.calGroup ch = [ch]) →
    exec (.calSet d) s = .next ((a.calLeave ch).complete d.ring.val .ok 0 0 d.handle)) ∧
  (∀ (d : Desc) (s : State), Ready .calSet d s → let a := accepted .calSet d s
    let ch := hIdx d.handle
    let k := calOf d
    let dn := d.u 0x0A 1
    let out := d.u 0x0B 1
    let ref := hIdx (BitVec.ofNat 32 k.ref)
    dBit d 0x08 3 = false → dBit d 0x08 0 = true → (a.chan ch).st = .stopped → (a.chan ch).sp.type ≠ 0 → (k.delay = true → (a.chan ch).fe.fdl ≠ 0) →
    (k.ref ≠ 0 → a.valid 2 (BitVec.ofNat 32 k.ref) = true ∧ (a.driveOf ref).isSome = true) → a.valid 3 k.region = true → calOk a ch d = true →
    (bit out 7 = true → nth a.pins.func (16 + dn) 0 = 4) → (bit out 6 = true → bits (nth a.clk.outCfg (out % 16) 0).toNat 30 28 = 3) →
    (k.ref = 0 → (a.drive dn).owner = none ∨ (a.drive dn).owner = some ch) → a.writerBusy (hIdx k.region) (.calTab ch) = false →
    (k.ref ≠ 0 → a.calGroup ch = [] ∨ a.calGroup ch = [ch]) → a.storeTaken ch - (a.chan ch).cal.store + k.store + (a.chan ch).pr.store ≤ 2 ^ 26 →
    (k.ref ≠ 0 → ch ∈ a.calGroup ref ∨ (a.calGroup ref).length < 16) →
    let b := match a.driveOf ch with
      | some x => if k.ref = 0 ∧ x = dn then a else a.freeDrive x
      | none => a
    let b := ((b.dropParts ch).dropWriter (.calTab ch)).setWriter (hIdx k.region) (.calTab ch)
    let b := if k.ref = 0 then b.setUpDrive ch d else b
    let gen := ((b.driveOf (k.refOf ch)).map fun x => (b.drive x).gen).getD 0
    exec (.calSet d) s = .next (((b.setChan ch fun c => { c with calGen := gen, cal := if c.cal.on then k else b.calRestored ch k }).calRestart
      (k.refOf ch)).complete d.ring.val .ok 0 0 d.handle)) ∧
  (∀ (d : Desc) (x : Nat) (s : State), Ready .calFreeze d s → let a := accepted .calFreeze d s
    d.clean [(0x08, 1)] = true → d.u 0x08 1 ≤ 1 → a.calDrive (hIdx d.handle) = some x →
    (d.u 0x08 1 = 1 → exec (.calFreeze d) s = .next
      (((a.withdrawSwaps x (fun _ => true) true).setDrive x fun v => { v with frozen := true, thaw := false }).complete d.ring.val .ok 0 0 d.handle)) ∧
    (d.u 0x08 1 = 0 → ((a.drive x).frozen = false ∨ (a.drive x).period = none) → exec (.calFreeze d) s = .next
      ((a.setDrive x fun v => { v with frozen := false, thaw := false }).complete d.ring.val .ok 0 0 d.handle)) ∧
    (d.u 0x08 1 = 0 → (a.drive x).frozen = true → (a.drive x).period ≠ none → exec (.calFreeze d) s = .next
      ((a.setDrive x fun v => { v with thaw := true }).setInflight d.ring.val (Option.map fun f => { f with stage := .point, handle := d.handle })))) ∧
  (∀ (d : Desc) (s : State), Ready .calTableLoad d s → let a := accepted .calTableLoad d s
    let k := (a.chan (hIdx d.handle)).cal
    k.on = true → d.clean [(0x08, 13), (0x18, 8)] = true → d.u 0x14 1 ≤ 7 → d.u 0x10 4 = 32 + 8 * (k.bc / 2 ^ k.b) → addrOk (d.u 0x08 8) (d.u 0x10 4) 4 = true →
    (a.hostPort (a.flightPort d.ring.val).val).linkUp = true →
    let w := a.setInflight d.ring.val
      (Option.map fun f => { f with stage := .hostRead, handle := d.handle, asks := (d.u 0x08 8, d.u 0x10 4) })
    let io := (w.io.leaveL1 (a.flightPort d.ring.val).val).emit (.hostRead (a.flightPort d.ring.val) (d.u 0x08 8) (d.u 0x10 4))
    exec (.calTableLoad d) s = .next { w with io := io }) ∧
  (∀ (d : Desc) (buf : List (BitVec 8)) (x : Nat) (s : State), let ch := hIdx d.handle
    let k := (s.chan ch).cal
    let n := k.bc / 2 ^ k.b
    (-131072 ≤ sx 32 (num buf 0 4) ∧ sx 32 (num buf 0 4) ≤ 131071) → (-131072 ≤ sx 32 (num buf 4 4) ∧ sx 32 (num buf 4 4) ≤ 131071) →
    num buf 0x0A 2 ≤ 256 → num buf 0x19 7 = 0 → d.u 0x14 1 = 0 → s.calDrive ch = some x →
    calTableData d buf s = .done .ok 0 0 d.handle (s.setChan ch fun c => { c with cal := { c.cal with
      t := (List.range n).map fun i => num buf (32 + 4 * n + 4 * i) 4, combN := num buf 0x0A 2, combP0 := num buf 0x0C 4, combDp := num buf 0x10 4
      target := num buf 0x14 4, targetE := num buf 0x18 1 } }))

/-- A cycle of a drive switches its source on at the cycle's start and off after the on-time, and a period that is due begins. After A
cycles the group's accumulators change buffers, the derivation starts and the next period begins. The derivation sets the group's
swap. At m_s the group takes its swap, with its event, its journal entry and its records, and its accumulation restarts. A drive
without its cause changes nothing. Forms whose exec is concluded to answer a next state: calOnStart, calOnEnd, calPeriodEnd,
calDerivationDone, calSwap. (R240, R332, R339, R350, R351, R355) -/
def Obligations.CalibrationRows : Prop :=
  (∀ (drive : Fin 4) (s : State), (s.drive drive.val).owner ≠ none → (s.drive drive.val).on = false → s.pllOk = true →
    let v := s.drive drive.val
    let k := max (v.cycle + 1) (ceilDiv (s.time.tb * v.n) unitS)
    let t := ((s.untilTb (cycleStart v.n k)).setDrive drive.val fun v => { v with cycle := k }).driveSource drive.val true
    exec (.calOnStart drive) s = .next (if v.period = none then t.periodStart drive.val k else t)) ∧
  (∀ (drive : Fin 4) (s : State), (s.drive drive.val).on = true → let v := s.drive drive.val
    exec (.calOnEnd drive) s = .next ((s.untilTb (cycleStart v.n v.cycle + unitS / (max 1 v.n * 2 ^ v.r))).driveSource drive.val false)) ∧
  (∀ (d : Nat) (on : Bool) (s : State), d < 4 → ((s.driveSource d on).drive d).on = on) ∧
  (∀ (drive : Fin 4) (ref k : Nat) (s : State), (s.drive drive.val).owner = some ref → (s.drive drive.val).period = some k →
    (s.drive drive.val).old = none → let e := k + (s.chan ref).cal.cycles
    let t := s.untilTb (cycleStart (s.drive drive.val).n e)
    exec (.calPeriodEnd drive) s = .next ((((t.calGroup ref).foldl (fun s i => s.setChan i fun c =>
      { c with cal := { c.cal with prev := some (c.cal.cur, c.cal.pol), cur := .zero } }) t).setDrive drive.val fun v =>
        { v with old := some k, oldFrozen := (s.drive drive.val).frozen }).periodStart drive.val e)) ∧
  (∀ (drive : Fin 4) (ref k : Nat) (s : State), (s.drive drive.val).owner = some ref → (s.drive drive.val).old = some k →
    let derived := (s.calGroup ref).filterMap fun i => (s.chan i).cal.prev.map fun p => s.calDerive i p.1 p.2
    let t := (s.calGroup ref).foldl (fun s i => s.setChan i fun c =>
      { c with cal := { c.cal with prev := none, wait := c.cal.wait.filter fun w => w.2.1 != k } }) s
    exec (.calDerivationDone drive) s = .next ((t.swapDerived drive.val ref derived).setDrive drive.val fun v => { v with old := none })) ∧
  (∀ (drive : Fin 4) (ref : Nat) (g : GroupSwap) (s : State), (s.drive drive.val).owner = some ref → s.pair.role ≠ .secondary →
    (∀ x ∈ (s.drive drive.val).swaps, x.asked = true) → ((s.drive drive.val).swaps.find? fun x => (s.chan ref).swapMade x.tag) = some g →
    let gen := nextCalGen (s.drive drive.val).gen
    let t := (s.calGroup ref).foldl (fun (s : State) i =>
      if i = ref ∨ (s.chan i).emits = false then s.setChan i fun c => (c.swaps.filter fun q => q.tag == g.tag).foldl Chan.applySwap c else s) s
    let t := (t.setDrive drive.val fun v => { v with gen := gen, swaps := v.swaps.filter fun x => x.tag != g.tag }).calRestart ref
    let n := t.note .calSwap (t.handleOf 2 ref) [(2, gen), (1, b2n !g.live), (1, g.bits), (8, g.ms)]
    let j := n.journal 2 0xFF 0 (n.handleOf 2 ref)
      (Config.sha384 ((n.calGroup ref).flatMap fun i => (n.chan i).cal.tab.g.flatMap fun x => le 4 x))
    let r := g.recs.foldl (fun s x => s.calRecord x true false gen) j
    let f := if g.freeze then r.setDrive drive.val fun v => { v with frozen := true, thaw := false } else r
    exec (.calSwap drive) s = .next (match g.ring with
      | some r => f.finish r.val .ok 0 0
      | none => f)) ∧
  (∀ (drive : Fin 4) (s : State), (s.drive drive.val).owner = none →
    exec (.calOnStart drive) s = .next s ∧ exec (.calPeriodEnd drive) s = .next s ∧ exec (.calDerivationDone drive) s = .next s ∧
    exec (.calSwap drive) s = .next s) ∧
  (∀ (drive : Fin 4) (s : State), (s.drive drive.val).on = false → exec (.calOnEnd drive) s = .next s)

/-- REGION_ALLOC claims the lowest free index, its granules and its window, asks for the wakes of its stacks, and waits for the zeroing;
when that is done with every stack awake, every byte of the region reads zero and the command completes with the stacks and the
window. REGION_FREE of a region nothing uses advances its generation. A BAR4 read inside a codeword of a mapped region answers its
bytes, poisoned ones marked, elsewhere all ones and a drop; a write of a whole codeword writes it, a shorter one merges, an unmapped
or forbidden one is dropped, and no byte outside it changes. A port the part lacks does nothing. A read or write of several
codewords completes too. Forms whose exec is concluded to answer a next state: regionAlloc, regionZeroingDone, regionFree, bar4Read,
bar4Write. (R91, R517, R518, R519, R520, R522, R523, R524, R538, R542, R556) -/
def Obligations.RegionCommandsAndBar4 : Prop :=
  (∀ (d : Desc) (i : Nat) (gs : List Nat) (w : Option Nat) (s : State), Ready .regionAlloc d s → let a := accepted .regionAlloc d s
    allocOk a d = true → a.claimIdx 256 (fun i => !(a.region i).alloc) = some i →
    allocGranules a (d.u 0x08 4) (if dBit d 0x0C 1 then some (d.u 0x0D 1) else none) = some gs →
    (if dBit d 0x0C 0 then (windowFor a (d.u 0x08 4)).map some else some none) = some w →
    let c : State := if gs.any fun g => a.hbm.selfRef.getLsbD (g / 12288) then a.toActive else a
    let b : State := { c with regions := upd c.regions i fun x => { Region.reset with gen := x.gen, alloc := true, granules := gs, window := w } }
    let h := b.handleOf 3 i
    let b := b.setInflight d.ring.val (Option.map fun f => { f with handle := h })
    (b.asleep i = [] → exec (.regionAlloc d) s = .next (b.setInflight d.ring.val (Option.map fun f => { f with stage := .zeroing, handle := h }))) ∧
    (∀ t : State, wakeStacks d.ring.val h d.waitForPower (b.asleep i) b = some t →
      exec (.regionAlloc d) s = .next (t.setInflight d.ring.val (Option.map fun f => { f with stage := .zeroing, handle := h })))) ∧
  (∀ (ring : Fin 16) (f : Inflight) (s : State), s.waitsAt ring.val .zeroing = some f → s.asleep (hIdx f.handle) = [] →
    let x := s.region (hIdx f.handle)
    exec (.regionZeroingDone ring) s = .next ((s.zeroRegion (hIdx f.handle)).finish ring.val .ok (execRegionZeroingDone.maskOf4 x.stacks)
      (x.window.getD (2 ^ 32 - 1)))) ∧
  (∀ (ring : Fin 16) (s : State), (s.waitsAt ring.val .zeroing = none ∨ ∃ f, s.waitsAt ring.val .zeroing = some f ∧ s.asleep (hIdx f.handle) ≠ []) →
    exec (.regionZeroingDone ring) s = .next s) ∧
  (∀ (i o : Nat) (s : State), o < (s.region i).bytes → Mem.read (s.zeroRegion i).hbm.mem ((s.region i).addr o) = 0) ∧
  (∀ (d : Desc) (s : State), Ready .regionFree d s → let a := accepted .regionFree d s
    let x := a.region (hIdx d.handle)
    d.clean [] = true → x.writer = .none → x.sink = none →
    (a.ringsWaiting fun f => f.op == .regionAlloc && f.stage == .zeroing && f.handle == d.handle) = [] →
    (a.mps.toList.any fun m => m.st == .running && m.inReg == d.handle) = false →
    exec (.regionFree d) s = .next ((a.freeRegion (hIdx d.handle)).complete d.ring.val .ok 0 0 d.handle)) ∧
  (∀ (i : Fin 256) (s : State), ((s.freeRegion i.val).region i.val).alloc = false ∧
    ((s.freeRegion i.val).region i.val).gen = nextGen (s.region i.val).gen) ∧
  (∀ (port : Fin 2) (addr len i o : Nat) (s : State), 0 < len → addr % 32 + len ≤ 32 → s.hasPort port.val = true → s.bar4Byte addr = some (i, o) →
    s.hbm.failed.getLsbD (s.cwAt i o / 65536 / 12288) = false → let data := readRegion s.hbm.mem (s.region i) o len
    (s.integ.poison.contains (s.cwAt i o) = false → exec (.bar4Read port addr len []) s = .next (s.emit (.bar4 port data false))) ∧
    (s.integ.poison.contains (s.cwAt i o) = true →
      exec (.bar4Read port addr len []) s = .next ((s.uncorrectable (locHbm (s.cwAt i o)) 2 8).emit (.bar4 port data true)))) ∧
  (∀ (port : Fin 2) (addr len : Nat) (errs : List (Nat × MemErr)) (s : State), 0 < len → ∃ t : State,
    exec (.bar4Read port addr len errs) s = .next t ∧ (s.hasPort port.val = false → t = s)) ∧
  (∀ (port : Fin 2) (addr len : Nat) (s : State), 0 < len → s.hasPort port.val = true → addr % 32 + len ≤ 32 → s.bar4Byte addr = none →
    exec (.bar4Read port addr len []) s = .next (s.bar4Drop.emit (.bar4 port (List.replicate len 0xFF#8) false))) ∧
  (∀ (port : Fin 2) (addr i o : Nat) (data : List (BitVec 8)) (s : State), 0 < data.length → addr % 32 + data.length ≤ 32 →
    s.hasPort port.val = true → s.bar4Byte addr = some (i, o) → s.hbm.failed.getLsbD (s.cwAt i o / 65536 / 12288) = false →
    ((s.region i).writer.hostMay = true → exec (.bar4Write port addr data) s = .next (if data.length = 32 then s.putBytes i o data
      else s.partial_ (locHbm (s.cwAt i o)) (addr % 32) data .none 8)) ∧
    ((s.region i).writer.hostMay = false → exec (.bar4Write port addr data) s = .next s.bar4Drop)) ∧
  (∀ (port : Fin 2) (addr i o : Nat) (data : List (BitVec 8)) (s t : State), 0 < data.length → addr % 32 + data.length ≤ 32 →
    s.hasPort port.val = true → s.bar4Byte addr = some (i, o) → Mem.wf s.hbm.mem = true → (s.region i).addr o < 4 * 12288 * granuleBytes →
    exec (.bar4Write port addr data) s = .next t → ∀ x : Nat, (x < (s.region i).addr o ∨ (s.region i).addr o + data.length ≤ x) →
      Mem.read t.hbm.mem x = Mem.read s.hbm.mem x) ∧
  (∀ (port : Fin 2) (addr : Nat) (data : List (BitVec 8)) (s : State), 0 < data.length → addr % 32 + data.length ≤ 32 →
    s.hasPort port.val = true → s.bar4Byte addr = none → exec (.bar4Write port addr data) s = .next s.bar4Drop) ∧
  (∀ (port : Fin 2) (addr : Nat) (data : List (BitVec 8)) (s : State), 0 < data.length → ∃ t : State,
    exec (.bar4Write port addr data) s = .next t ∧ (s.hasPort port.val = false → t = s))

/-- A stack whose wake is granted leaves self-refresh. A real-time port enters panic on a stack that is up, once, and counts it. A
refresh that comes due in panic is owed; the eighth owed one is forced. A retraining that comes due in panic is put off for at most
100 ms, else it runs at once. When the last panic of a stack ends, its owed refreshes and put-off retrainings run. A stack above 85
degrees is hot. Where the cause is missing (a stack asleep, out of service or not fitted, a wake without grant) nothing happens.
Forms whose exec is concluded to answer a next state: stackWakeDone, refreshDue, retrainDue, qosPanicEntry, qosPanicExit,
hbmStackTemperature. (R528, R532, R534, R537, R539) -/
def Obligations.HbmRows : Prop :=
  (∀ (k : Fin 4) (s : State), s.pwr.st = .active → s.hbm.wake.getLsbD k.val = true → (s.pau.q0.any fun q => q.need == .stack k) = false →
    s.hbm.failed.getLsbD k.val = false →
    exec (.stackWakeDone k) s = .next { s with hbm := { s.hbm with selfRef := setBit s.hbm.selfRef k.val false } }) ∧
  (∀ (k : Fin 4) (s : State), (s.hbm.wake.getLsbD k.val = false ∨ s.hbm.failed.getLsbD k.val = true) → exec (.stackWakeDone k) s = .next s) ∧
  (∀ (pc : Fin 128) (s : State), s.stackUp (pc.val / 32) = true → s.panicOn (pc.val / 32) = true → ∃ t : State,
    exec (.refreshDue pc) s = .next t ∧ Kept [.hbm] s t ∧
    (nth s.hbm.owed pc.val 0 + 1 < 8 → nth t.hbm.owed pc.val 0 = nth s.hbm.owed pc.val 0 + 1 ∧ t.hbm.forced = s.hbm.forced) ∧
    (8 ≤ nth s.hbm.owed pc.val 0 + 1 → t.hbm.owed = s.hbm.owed ∧
      nth t.hbm.forced (pc.val / 32) 0 = satN 65535 (nth s.hbm.forced (pc.val / 32) 0 + 1)) ∧
    nth t.hbm.owedMax (pc.val / 32) 0 = max (nth s.hbm.owedMax (pc.val / 32) 0) (nth s.hbm.owed pc.val 0 + 1)) ∧
  (∀ (pc : Fin 128) (s : State), (s.panicOn (pc.val / 32) = false ∨ s.stackUp (pc.val / 32) = false) → exec (.refreshDue pc) s = .next s) ∧
  (∀ (pc : Fin 128) (s : State), s.stackUp (pc.val / 32) = false → exec (.retrainDue pc) s = .next s) ∧
  (∀ (p : Fin 12) (k : Fin 4) (s : State), p.val ≤ 3 → s.stackUp k.val = true → (nth s.hbm.panic p.val 0).getLsbD k.val = false →
    exec (.qosPanicEntry p k) s = .next { s with hbm := { s.hbm with
      panic := upd s.hbm.panic p.val fun b => setBit b k.val true, panics := upd s.hbm.panics p.val fun n => satN 255 (n + 1) } }) ∧
  (∀ (p : Fin 12) (k : Fin 4) (s : State), (4 ≤ p.val ∨ s.stackUp k.val = false ∨ (nth s.hbm.panic p.val 0).getLsbD k.val = true) →
    exec (.qosPanicEntry p k) s = .next s) ∧
  (∀ (p : Fin 12) (k : Fin 4) (s : State), (∀ q : Fin 12, q ≠ p → (nth s.hbm.panic q.val 0).getLsbD k.val = false) → ∃ t : State,
    exec (.qosPanicExit p k) s = .next t ∧ Kept [.hbm] s t ∧ t.panicOn k.val = false ∧
    ∀ pc : Fin 128, (pc.val / 32 = k.val → nth t.hbm.owed pc.val 0 = 0 ∧ nth t.hbm.retrainLate pc.val none = none) ∧
      (pc.val / 32 ≠ k.val → nth t.hbm.owed pc.val 0 = nth s.hbm.owed pc.val 0)) ∧
  (∀ (pc : Fin 128) (s : State), s.stackUp (pc.val / 32) = true →
    (s.panicOn (pc.val / 32) = false → exec (.retrainDue pc) s = .next { s with hbm := s.hbm.retrain pc.val }) ∧
    (s.panicOn (pc.val / 32) = true → nth s.hbm.retrainLate pc.val none = none →
      exec (.retrainDue pc) s = .next { s with hbm := { s.hbm with retrainLate := upd s.hbm.retrainLate pc.val fun _ => some s.now } }) ∧
    (∀ t : Nat, s.panicOn (pc.val / 32) = true → nth s.hbm.retrainLate pc.val none = some t → t + 100000000 ≤ s.now →
      exec (.retrainDue pc) s = .next { s with hbm := s.hbm.retrain pc.val })) ∧
  (∀ (k : Fin 4) (c : Int) (s : State), k.val < stacksFitted s → exec (.hbmStackTemperature k c) s = .next { s with hbm := { s.hbm with
    temp := upd s.hbm.temp k.val fun _ => c, hot := setBit s.hbm.hot k.val (decide (85 < c)) } }) ∧
  (∀ (k : Fin 4) (c : Int) (s : State), stacksFitted s ≤ k.val → exec (.hbmStackTemperature k c) s = .next s)

/-- DEV_INFO and LOG_READ write their block and complete. MEM_RETIRE enters its granule in the list and waits for the store, keeping
whether a region held it. LOG_CLEAR removes closed entries, STICKY ones only with its bit, and the overflow count, or the one entry
of a location. A targeted scrub that rewrites its codeword ends the episode as scrubbed; a patrol burst under its grant does its
reads and moves on 64 MiB, past stacks that cannot be read. The SRAM patrol logs what it meets in the arrays it reads. A partial
write of a good codeword writes its bytes and ends an open episode; one of a poisoned codeword leaves it poisoned and reports
POISON_WRITE; in an SRAM array only the log shows it. Forms whose exec is concluded to answer a next state: devInfo, memRetire,
logRead, logClear, darnerScrub, darnerPatrolBurst, sramPatrol, partialWrite. (R105, R553, R555, R556, R557, R559, R560, R562, R563) -/
def Obligations.ErrorLogCommandsAndRows : Prop :=
  (∀ (d : Desc) (s : State), Ready .devInfo d s → d.clean [(0x08, 12)] = true → 64 ≤ d.u 0x10 4 → addrOk (d.u 0x08 8) (d.u 0x10 4) 64 = true →
    let a := accepted .devInfo d s
    (a.hostPort (a.flightPort d.ring.val).val).linkUp = true →
    exec (.devInfo d) s = .next (State.complete
      { a with io := a.io.write (a.flightPort d.ring.val).val (d.u 0x08 8) a.devInfo false } d.ring.val .ok 0 0 d.handle)) ∧
  (∀ (d : Desc) (s : State), Ready .memRetire d s → let a := accepted .memRetire d s
    let g := d.u 0x08 4
    d.clean [(0x08, 4)] = true → g < 12288 * stacksFitted a → g ∉ a.integ.retired → a.sec.life ≠ .decommissioned → a.integ.retired.length < 256 →
    exec (.memRetire d) s = .next (State.setInflight
      { a with integ := { a.integ with
          retired := a.integ.retired ++ [g]
          log := a.integ.log.map fun e => if locMem e.loc < 4 && locIdx e.loc / 65536 == g then { e with retired := true } else e } }
      d.ring.val (Option.map fun f => { f with
        stage := .point, handle := d.handle, buffer := [(BitVec.ofBool (a.granuleUsed g)).setWidth 8] }))) ∧
  (∀ (d : Desc) (s : State), Ready .logRead d s → d.clean [(0x08, 13)] = true → d.u 0x14 1 ≤ 1 → 64 ≤ d.u 0x10 4 →
    addrOk (d.u 0x08 8) (d.u 0x10 4) 64 = true → let a := accepted .logRead d s
    (a.hostPort (a.flightPort d.ring.val).val).linkUp = true →
    let out := (a.integ.byAge.filter fun e => !dBit d 0x14 0 || e.sticky).take ((d.u 0x10 4 - 32) / 32)
    ∃ head : List (BitVec 8), head.length = 32 ∧ exec (.logRead d) s = .next (State.complete
      { a with io := a.io.write (a.flightPort d.ring.val).val (d.u 0x08 8) (head ++ out.flatMap LogEntry.bytes) false }
      d.ring.val .ok out.length a.integ.overflow d.handle)) ∧
  (∀ (d : Desc) (s : State), Ready .logClear d s → d.clean [(0x08, 1), (0x10, 8)] = true → d.u 0x08 1 ≤ 3 → let a := accepted .logClear d s
    let loc := BitVec.ofNat 64 (d.u 0x10 8)
    (dBit d 0x08 1 = false → exec (.logClear d) s = .next (State.complete { a with integ := { a.integ with
      log := a.integ.log.filter fun e => e.isOpen || (e.sticky && !dBit d 0x08 0), overflow := 0 } } d.ring.val .ok 0 0 d.handle)) ∧
    (dBit d 0x08 1 = true → (∀ e ∈ a.integ.log, e.loc ≠ loc) → exec (.logClear d) s = .next (a.complete d.ring.val .ok 0 0 d.handle)) ∧
    (∀ e : LogEntry, dBit d 0x08 1 = true → (a.integ.log.find? fun x => x.loc == loc) = some e → (e.sticky = true → dBit d 0x08 0 = true) →
      exec (.logClear d) s = .next (State.complete (if e.isOpen then a else { a with integ := { a.integ with
        log := a.integ.log.filter fun x => x.loc != loc } }) d.ring.val .ok 0 0 d.handle))) ∧
  (∀ (loc : BitVec 64) (s : State), locMem loc < 4 → (s.integ.episode loc).1 = true →
    exec (.darnerScrub loc .rewritten) s = .next { s with integ := { s.integ.endEpisode loc true with scrubs := satN 65535 (s.integ.scrubs + 1) } } ∧
    exec (.darnerScrub loc .overtaken) s = .next { s with integ := s.integ.endEpisode loc false } ∧
    exec (.darnerScrub loc .uncorrectable) s = .next ((s.poisonCw (locIdx loc)).uncorrectable loc 1 9)) ∧
  (∀ (loc : BitVec 64) (o : ScrubOutcome) (s : State), (4 ≤ locMem loc ∨ (s.integ.episode loc).1 = false) → exec (.darnerScrub loc o) s = .next s) ∧
  (∀ (errs : List (BitVec 64 × MemErr)) (s : State), s.serving = true → s.pwr.st = .active → s.integ.darner.getLsbD 31 = true →
    s.integ.patrolGrant ≠ 0 → exec (.darnerPatrolBurst errs) s = .next (s.patrolBurst errs)) ∧
  (∀ (s : State), (s.patrolBurst []).integ.patrolPos = s.patrolFrom 4 ((s.integ.patrolPos + 32) % (12288 * stacksFitted s)) ∧ (s.patrolBurst []).integ.patrolGrant = 0) ∧
  (∀ (errs : List (BitVec 64 × MemErr)) (s : State), (s.serving = false ∨ s.pwr.st ≠ .active ∨ s.integ.darner.getLsbD 31 = false) →
    exec (.darnerPatrolBurst errs) s = .next s) ∧
  (∀ (s : State), exec (.sramPatrol []) s = .next s) ∧
  (∀ (errs : List (BitVec 64 × MemErr)) (loc : BitVec 64) (e : MemErr) (s t : State), exec (.sramPatrol errs) s = .next t →
    exec (.sramPatrol (errs ++ [(loc, e)])) s = .next (if patrolled (locMem loc) = true then t.readErr loc e 255 else t)) ∧
  (∀ (loc : BitVec 64) (off : Nat) (data : List (BitVec 8)) (s : State), locMem loc < 4 → s.integ.poison.contains (locIdx loc) = false →
    let t := (s.freeTake.2).putCw (locIdx loc) off data
    exec (.partialWrite loc off data .none) s = .next { t with integ := t.integ.endEpisode loc false }) ∧
  (∀ (loc : BitVec 64) (off : Nat) (data : List (BitVec 8)) (s : State), s.integ.poison.contains (locIdx loc) = true → locMem loc < 4 →
    ∃ t : State, exec (.partialWrite loc off data .none) s = .next t ∧ t.integ.poison.contains (locIdx loc) = true ∧
      Kept [.free, .hbm, .integ, .io, .pair] s t) ∧
  (∀ (loc : BitVec 64) (off : Nat) (data : List (BitVec 8)) (s : State), 4 ≤ locMem loc → let t := s.freeTake.2
    exec (.partialWrite loc off data .none) s = .next t ∧
    exec (.partialWrite loc off data .corrected) s = .next { t with integ :=
      { t.integ.record loc 3 255 t.time74 with sramCorr := satN 65535 (t.integ.sramCorr + 1) } } ∧
    exec (.partialWrite loc off data .uncorrectable) s = .next
      (State.note { t with integ := t.integ.record loc 4 255 t.time74 } .poisonWrite 0 (eccData loc 4 255 0)))

/-- SINK_BIND of a region binds the sink to it and to its channel and reports the channel and the undelivered bytes; of a corner turn it
claims its staging region, channel and ring and reads its input list first. SINK_UNBIND of a halted sink or one with nothing under
way releases it at once, else it waits. STORE_QUEUE_ATTACH claims the lowest free queue and reports the queues and the staging room.
DMA_RESTART of a halted sink clears the halt, marks the records that its operand gives up as delivered, and reports the next record.
Forms whose exec is concluded to answer a next state: sinkBind, sinkUnbind, storeQueueAttach, dmaRestart. (R578, R579, R586, R589,
R591, R594, R597, R598, R599) -/
def Obligations.SinkCommands : Prop :=
  (∀ (d : Desc) (c : Nat) (s : State), Ready .sinkBind d s → let a := accepted .sinkBind d s
    let h := bindSink d a
    let k := hIdx h
    let src := hIdx (bindRegion d)
    bindHandles d a = true → bindState d a = true → bindFields d a = true → bindCorner d = false → bindClaim d [] a = .ok c → ∃ t : State,
    exec (.sinkBind d) s = .next (t.complete d.ring.val .ok c ((a.region src).owed % 2 ^ 32) h) ∧ Kept [.sinks, .dma, .regions, .sec] a t ∧
    (k < 128 → (t.sink k).alloc = true ∧ (t.sink k).bound = true ∧ (t.sink k).halted = false ∧ (t.sink k).gen = (a.sink k).gen ∧
      (t.sink k).moving = (d.u 0x11 1 == 0) ∧ (t.sink k).par.region = src ∧ (t.sink k).par.chan = c ∧ (t.sink k).par.ring = bindRing d ∧
      (t.sink k).par.target = d.u 0x0C 1 ∧ (t.sink k).par.cls = d.u 0x0F 1 ∧ (t.sink k).par.session = bindSession d) ∧
    (nth t.dma c .reset).sink = (if c < 64 then some k else none) ∧ (t.region src).sink = some k ∧
    ∀ i : Nat, i ≠ src → t.region i = a.region i) ∧
  (∀ (d : Desc) (c : Nat) (s : State), Ready .sinkBind d s → let a := accepted .sinkBind d s
    let h := bindSink d a
    let par := bindPar d c []
    bindHandles d a = true → bindState d a = true → bindFields d a = true → bindCorner d = true → bindClaim d [] a = .ok c →
    (a.hostPort (a.flightPort d.ring.val).val).linkUp = true →
    let b := (a.setWriter par.region (.staging (hIdx h))).setSink (hIdx h) fun x => { x with claim := some (d.ring.val, par) }
    let w := b.setInflight d.ring.val (Option.map fun f => { f with stage := .hostRead, handle := h, asks := (d.u 0x20 8, 4 * d.u 0x28 1) })
    let io := (w.io.leaveL1 (a.flightPort d.ring.val).val).emit (.hostRead (a.flightPort d.ring.val) (d.u 0x20 8) (4 * d.u 0x28 1))
    exec (.sinkBind d) s = .next { w with io := io }) ∧
  (∀ (d : Desc) (s : State), Ready .sinkUnbind d s → d.clean [(0x08, 1)] = true → d.u 0x08 1 < 4 → let a := accepted .sinkUnbind d s
    let k := hIdx d.handle
    (a.sink k).draining = none →
    ((a.sink k).halted = true ∨ (a.sink k).bound = false →
      exec (.sinkUnbind d) s = .next ((a.unbindNow k (dBit d 0x08 1)).complete d.ring.val .ok 0 0 d.handle)) ∧
    (∀ t : State, a.unbindStep k (dBit d 0x08 0) = (t, true) →
      exec (.sinkUnbind d) s = .next ((t.unbindNow k (dBit d 0x08 1)).complete d.ring.val .ok 0 0 d.handle)) ∧
    (∀ t : State, a.unbindStep k (dBit d 0x08 0) = (t, false) →
      exec (.sinkUnbind d) s = .next ((t.setSink k fun x => { x with draining := some d.ring }).setInflight d.ring.val
        (Option.map fun f => { f with stage := .unitDrain, handle := d.handle })))) ∧
  (∀ (d : Desc) (q : Nat) (s : State), Ready .storeQueueAttach d s → let a := accepted .storeQueueAttach d s
    let h := if d.handle = 0 then a.sinkPick else d.handle
    let k := hIdx h
    let i := hIdx (attachRegion d)
    let qs := a.queuesOf k ++ [attachQueue d k]
    a.valid 3 (attachRegion d) = true → ((a.sink k).bound = false ∨ (a.sink k).halted = true) → attachOk d a k = true →
    (d.handle ≠ 0 → (a.sink k).storage = true) → a.writerBusy i (.storage k) = false → firstIdx 32 (fun q => !(a.queue q).attached) = some q →
    h ≠ 0 → queuesEnd qs + prpBytes qs ≤ (a.region i).bytes →
    let t := ((a.setQueue q fun _ => attachQueue d k).setWriter i (.storage k)).setSink k fun x =>
      { x with alloc := true, storage := true, stRegion := some i, queues := x.queues ++ [q] }
    exec (.storeQueueAttach d) s = .next
      (t.complete d.ring.val .ok qs.length (((a.region i).bytes - queuesEnd qs - prpBytes qs) / 1024) h)) ∧
  (∀ (d : Desc) (s : State), Ready .dmaRestart d s → let a := accepted .dmaRestart d s
    let k := hIdx d.handle
    let x := a.sink k
    x.halted = true → d.clean [(0x08, 1)] = true → d.u 0x08 1 < 3 → ∃ (t : State) (b : Nat),
    exec (.dmaRestart d) s = .next (t.complete d.ring.val .ok 0 b d.handle) ∧
    b = (((t.nextRec k).map fun r => r.seq).getD (if d.u 0x08 1 = 2 then x.faultSeq + 1 else x.faultFirst)) % 2 ^ 32 ∧ Kept [.io, .regions, .sinks, .storeQ, .hbm, .integ] a t ∧
    (k < 128 → (t.sink k).halted = false ∧ (t.sink k).next = (if d.u 0x08 1 = 2 then x.faultSeq + 1 else x.faultFirst) ∧
      (t.sink k).gapDue = (d.u 0x08 1 != 0)) ∧
    (d.u 0x08 1 = 0 → (t.region x.par.region).recs.map (fun r => (r.seq, r.delivered)) = (a.region x.par.region).recs.map fun r => (r.seq, r.delivered)))

/-- A beat moves only the sink that arbitration serves. A sink begins to move when its fill reaches HIGH or its oldest record has waited
AGE. An open buffer that holds bytes is closed at its close time. A confirming read writes the buffer back, or halts the sink with
cause 1. A completion entry of a command under way writes the head doorbell and ends the command; one not completed in 1 s fails. A
full block of a corner turn is emitted, an open one at its maximum wait. A drain of 1 s times out. A sink, queue or ring to which
the event does not apply stays as it is. Forms whose exec is concluded to answer a next state: dmaBeat, sinkPacingStart,
bufferCloseTime, confirmReadDone, nvmeCompletion, nvmeCommandTimeout, cornerTurnBlockEmit, cornerTurnWaitExpiry,
sinkUnbindDrainTimeout. (R575, R577, R581, R582, R588, R590, R593, R595, R599) -/
def Obligations.SinkRows : Prop :=
  (∀ (k : Fin 128) (c : Nat) (err : MemErr) (s : State),
    (s.servedChan = some (c, k.val) → exec (.dmaBeat k err) s = .next (s.sinkBeat k.val err)) ∧
    ((∀ x, s.servedChan = some x → x.2 ≠ k.val) → exec (.dmaBeat k err) s = .next s)) ∧
  (∀ (k : Fin 128) (s : State), let x := s.sink k.val
    let r := s.region x.par.region
    x.bound = true → x.moving = false → x.halted = false →
    (x.startTest r = true → exec (.sinkPacingStart k) s = .next (s.setSink k.val fun x => { x with moving := true })) ∧
    (∀ y : Rec, x.startTest r = false → (r.recs.find? fun y : Rec => y.ready && !y.delivered) = some y → x.par.age ≠ 0 →
      exec (.sinkPacingStart k) s = .next ((s.until (y.tm + x.par.age * 1000000)).setSink k.val fun x => { x with moving := true }))) ∧
  (∀ (k : Fin 128) (s : State), ((s.sink k.val).bound = false ∨ (s.sink k.val).moving = true ∨ (s.sink k.val).halted = true) →
    exec (.sinkPacingStart k) s = .next s) ∧
  (∀ (k : Fin 128) (s : State), (s.sink k.val).buf = none → exec (.bufferCloseTime k) s = .next s) ∧
  (∀ (k : Fin 128) (r : ReadResult) (s : State), (s.sink k.val).confirm = none → exec (.confirmReadDone k r) s = .next s) ∧
  (∀ (k : Fin 128) (b : OpenBuf) (s : State), (s.sink k.val).buf = some b → (s.sink k.val).par.close ≠ 0 → (s.sink k.val).cur = none → b.used ≠ 0 →
    exec (.bufferCloseTime k) s = .next (((s.until (b.tm + (s.sink k.val).par.close * 100000)).closeBuf k.val 0).unbindCheck k.val)) ∧
  (∀ (k : Fin 128) (b : OpenBuf) (bytes : List (BitVec 8)) (s : State), (s.sink k.val).confirm = some b →
    exec (.confirmReadDone k (.ok bytes)) s = .next
      (((s.setSink k.val fun x => { x with confirm := none }).writeBack k.val b true).unbindCheck k.val) ∧
    (∀ r : ReadResult, (∀ l, r ≠ .ok l) → exec (.confirmReadDone k r) s = .next
      (((s.cplError (s.sinkPort k.val)).haltSink k.val 1 1 ((b.ends.getLast?).getD b.first) none).unbindCheck k.val))) ∧
  (∀ (q : Fin 32) (r : Nat) (ok : Bool) (s : State), (s.queue q.val).busy r = true → let x := s.queue q.val
    let head := (x.head + 1) % x.cqSize
    let t := s.setQueue q.val fun x => { x with head := head, phase := if head = 0 then !x.phase else x.phase }
    exec (.nvmeCompletion q r ok) s = .next
      (State.nvmeEnd { t with io := t.io.write (x.u 0x35 1) (x.doorbell true) (le 4 head) false } q.val r ok)) ∧
  (∀ (q : Fin 32) (r : Nat) (y : StoreRec) (s : State), (s.queue q.val).busy r = true → (s.queue q.val).recs[r]? = some y →
    exec (.nvmeCommandTimeout q r) s = .next ((s.until (y.tm + 1000000000)).nvmeEnd q.val r false)) ∧
  (∀ (q : Fin 32) (r : Nat) (ok : Bool) (s : State), (s.queue q.val).busy r = false →
    exec (.nvmeCompletion q r ok) s = .next s ∧ exec (.nvmeCommandTimeout q r) s = .next s) ∧
  (∀ (k : Fin 128) (b : Nat) (t : State) (s : State), s.ctOpen k.val = some b → (s.sink k.val).bound = true → (s.sink k.val).par.corner = true →
    s.ctFull k.val b = true → s.ctEmit k.val b 0 = some t → exec (.cornerTurnBlockEmit k) s = .next t) ∧
  (∀ (k : Fin 128) (b : Nat) (s : State), s.ctOpen k.val = some b → (s.sink k.val).bound = true → (s.sink k.val).par.corner = true →
    let tms := (s.sink k.val).par.inputs.flatMap fun i =>
      ((s.ctSteps i).filter fun c => c.step / max 1 (s.sink k.val).par.t == b).map fun c => c.rec'.tm
    let u := s.until (tms.foldl min (tms.headD s.now) + (s.sink k.val).par.maxWait * 10000)
    exec (.cornerTurnWaitExpiry k) s = .next ((u.ctEmit k.val b 0).getD u)) ∧
  (∀ (k : Fin 128) (s : State), s.ctOpen k.val = none →
    exec (.cornerTurnBlockEmit k) s = .next s ∧ exec (.cornerTurnWaitExpiry k) s = .next s) ∧
  (∀ (ring : Fin 16) (s : State), s.waitsAt ring.val .unitDrain = none → exec (.sinkUnbindDrainTimeout ring) s = .next s) ∧
  (∀ (ring : Fin 16) (f : Inflight) (s : State), s.waitsAt ring.val .unitDrain = some f → f.op = .sinkUnbind → dBit f.d 0x08 0 = true →
    exec (.sinkUnbindDrainTimeout ring) s = .next (((s.until (f.since + 1000000000)).setSink (hIdx f.d.handle)
      fun x => { x with draining := none, flushing := none }).finish ring.val .timeout 0 0))

/-- MP_LOAD reads its image, then a core that passes the image's checks is LOADED with it: its program, its data, its entry. MP_START
with its grant loads the data memory, sets the registers to their start values, makes the output region the core's and runs it at
the entry. MP_STOP without DRAIN, or with the core drained, stops it at once: LOADED, or EMPTY with the next generation with UNLOAD;
with DRAIN it waits, at most 100 ms. A time-out of a ring at which no MP_STOP waits does nothing. Forms whose exec is concluded to
answer a next state: mpLoad, mpStart, mpStop, mpStopDrainTimeout. (R493, R502, R503, R504, R505, R506, R508, R509, R714) -/
def Obligations.MpCommands : Prop :=
  (∀ (d : Desc) (s : State), Ready .mpLoad d s → let a := accepted .mpLoad d s
    (d.handle ≠ 0 → (a.mp (hIdx d.handle)).st ≠ .running) → a.sec.life ≠ .decommissioned → d.clean [(0x08, 12)] = true →
    addrOk (d.u 0x08 8) (d.u 0x10 4) 8 = true → inR (d.u 0x10 4) 64 mpImageMax = true → (d.handle = 0 → a.mpPick ≠ 0) →
    (a.hostPort (a.flightPort d.ring.val).val).linkUp = true → let h := if d.handle = 0 then a.mpPick else d.handle
    let w := a.setInflight d.ring.val (Option.map fun f => { f with stage := .hostRead, handle := h, asks := (d.u 0x08 8, d.u 0x10 4) })
    let io := (w.io.leaveL1 (a.flightPort d.ring.val).val).emit (.hostRead (a.flightPort d.ring.val) (d.u 0x08 8) (d.u 0x10 4))
    exec (.mpLoad d) s = .next { w with io := io }) ∧
  (∀ (d : Desc) (buf : List (BitVec 8)) (t : State) (s : State) (h : Handle) (b : Nat), mpLoadData d buf s = .done .ok (hIdx h) b h t → hIdx h < 16 →
    let p := num buf 0x08 2
    (t.mp (hIdx h)).st = .loaded ∧ (t.mp (hIdx h)).gen = (s.mp (hIdx h)).gen ∧ b = num buf 0x14 4 ∧
    ((t.mp (hIdx h)).image.map fun g => g.entry) = some (num buf 0x0A 2) ∧ ((t.mp (hIdx h)).image.map fun g => g.prog.length) = some p ∧
    1 ≤ p ∧ p ≤ 4096 ∧ num buf 0x0A 2 < p ∧ (num buf 0x10 4 = 0 → s.sec.life ≠ .owned) ∧ Kept [.mps] s t) ∧
  (∀ (d : Desc) (s : State), Ready .mpStart d s → let a := accepted .mpStart d s
    let c := hIdx d.handle
    let m := a.mp c
    let n := (m.image.map fun g => g.data.length).getD 0
    a.valid 3 (mpIn d) = true → a.valid 3 (mpOut d) = true → (m.st = .loaded ∨ m.st = .trapped) →
    (a.ringsWaiting fun f => f.op == .mpStart && f.stage == .power && f.d.handle == d.handle) = [] →
    d.clean [(0x08, 14), (0x18, 4)] = true → d.u 0x14 1 < 2 → mpWinOk (d.u 0x10 2) = true → mpWinOk (d.u 0x12 2) = true →
    2 * (d.u 0x10 2 + d.u 0x12 2) + n ≤ 16384 → 2 * slotBytes (4 * d.u 0x12 2) ≤ (a.region (hIdx (mpOut d))).bytes →
    a.writerBusy (hIdx (mpOut d)) (.mp c) = false → mpIn d ≠ mpOut d → let b := a.setWriter (hIdx (mpOut d)) (.mp c)
    GrantedNow b 2 450 d.waitForPower → let g := withGrant b (.mp c) 450
    let t := (g.setWriter (hIdx (mpOut d)) (.mp c)).setMp c fun m => { Mp.reset with
      gen := m.gen, st := .running, image := m.image, grant := m.grant, pc := (m.image.map fun g => g.entry).getD 0
      mem := MpMem.writes [] 0 ((m.image.map fun g => g.data).getD []), inReg := mpIn d, outReg := mpOut d, wIn := d.u 0x10 2, wOut := d.u 0x12 2
      kind := if dBit d 0x14 0 then some (d.u 0x15 1) else none, watchdog := d.u 0x18 4, skipped := m.skipped, dropped := m.dropped, gapNext := m.gapNext }
    exec (.mpStart d) s = .next (t.complete d.ring.val .ok 0 0 d.handle)) ∧
  (∀ (d : Desc) (s : State), Ready .mpStop d s → d.clean [(0x08, 1)] = true → d.u 0x08 1 < 4 → let a := accepted .mpStop d s
    let c := hIdx d.handle
    (dBit d 0x08 0 = false ∨ (a.mp c).drained = true → exec (.mpStop d) s = .next
      ((((if dBit d 0x08 1 then a.mpWithdraw c else a).mpStopNow d c).mpDrainCheck c).complete d.ring.val .ok 0 0 d.handle)) ∧
    (dBit d 0x08 0 = true → (a.mp c).drained = false → exec (.mpStop d) s = .next
      (a.setInflight d.ring.val (Option.map fun f => { f with stage := .unitDrain, handle := d.handle })))) ∧
  (∀ (d : Desc) (c : Fin 16) (s : State), (s.mp c.val).st = .running →
    ((s.mpStopNow d c.val).mp c.val).st = (if dBit d 0x08 1 then .empty else .loaded) ∧ ((s.mpStopNow d c.val).mp c.val).grant = 0 ∧
    (dBit d 0x08 1 = true → ((s.mpStopNow d c.val).mp c.val).gen = nextGen (s.mp c.val).gen)) ∧
  (∀ (ring : Fin 16) (f : Inflight) (s : State), s.waitsAt ring.val .unitDrain = some f → f.op = .mpStop →
    exec (.mpStopDrainTimeout ring) s = .next ((s.until (f.since + 100000000)).finish ring.val .timeout 0 0)) ∧
  (∀ (ring : Fin 16) (s : State), (∀ f, s.waitsAt ring.val .unitDrain = some f → f.op ≠ .mpStop) → exec (.mpStopDrainTimeout ring) s = .next s)

/-- An instruction of a RUNNING core that waits for no window takes effect as its two slots say and advances the core, waits in MBGET,
halts, or traps. A sum in a data register is saturated to 18 bits with Z and N from the exact sum; a product is added to an
accumulator saturated to 48 bits. A record on its way enters a free input window, or is skipped and counted; one of another kind is
passed over. An output record is written or dropped and counted. The watchdog traps, also in a wait. A core that does not run, or
with nothing to deliver or to write, stays as it is. Forms whose exec is concluded to answer a next state: mpInstruction,
mpMailboxWake, mpWatchdogExpiry, mpInputDelivery, mpOutputRecordWrite. (R478, R479, R483, R490, R491, R494, R495, R497, R500, R501,
R512) -/
def Obligations.MpCoreRows : Prop :=
  (∀ (c : Fin 16) (err : MpErr) (m : Mp) (used : Bool) (s : State), (s.mp c.val).st = .running → (s.mp c.val).waitIn = false → (s.mp c.val).waitOut = false →
    (s.mp c.val).instr err (Config.freeValue s.free) = .run m used false →
    exec (.mpInstruction c err) s = .next { s with mps := upd s.mps c.val fun _ => m, free := s.free + b2n used }) ∧
  (∀ (c : Fin 16) (err : MpErr) (m : Mp) (used : Bool) (s : State), (s.mp c.val).st = .running → (s.mp c.val).waitIn = false → (s.mp c.val).waitOut = false →
    (s.mp c.val).instr err (Config.freeValue s.free) = .run m used true → let t : State := { s with mps := upd s.mps c.val fun _ => m, free := s.free + b2n used }
    exec (.mpInstruction c err) s = .next ((t.mpLeave c.val .loaded).mpDrainCheck c.val)) ∧
  (∀ (c : Fin 16) (err : MpErr) (s : State), (s.mp c.val).st = .running → (s.mp c.val).waitIn = false → (s.mp c.val).waitOut = false →
    ((s.mp c.val).instr err (Config.freeValue s.free) = .waitIn → exec (.mpInstruction c err) s = .next
      ((s.setMp c.val fun m => { m with waitIn := true }).mpDrainCheck c.val)) ∧
    ((s.mp c.val).instr err (Config.freeValue s.free) = .waitOut → exec (.mpInstruction c err) s = .next (s.setMp c.val fun m => { m with waitOut := true }))) ∧
  (∀ (c : Fin 16) (err : MpErr) (s : State), ((s.mp c.val).st ≠ .running ∨ (s.mp c.val).waitIn = true ∨ (s.mp c.val).waitOut = true) →
    exec (.mpInstruction c err) s = .next s) ∧
  (∀ (c : Fin 16) (detail : Nat) (s : State), (s.mp c.val).st = .running → (s.mp c.val).waitIn = false → (s.mp c.val).waitOut = false →
    (s.mp c.val).instr .none (Config.freeValue s.free) = .trap 3 detail → exec (.mpInstruction c .none) s = .next (s.mpTrap c.val 3 detail)) ∧
  (∀ (i : MpIns) (m : Mp) (free : BitVec 64), i.aop = 0x0C → i.mop = 0 → i.d < 16 → let v := m.dr i.x + m.dr i.y
    let t := (i.apply m free).1
    t.dr i.d = max (-131072) (min 131071 v) ∧ t.z = (v == 0) ∧ t.n = decide (v < 0) ∧ t.sat = (m.sat || t.dr i.d != v) ∧
    (∀ j : Nat, j ≠ i.d → t.dr j = m.dr j) ∧ t.acc = m.acc ∧ t.mem = m.mem ∧ t.a = m.a ∧ t.cycles = m.cycles + 1 ∧ (m.loops = [] → t.pc = m.pc + 1)) ∧
  (∀ (i : MpIns) (m : Mp) (free : BitVec 64), i.aop = 0x01 → i.mop = 0 → i.a < 4 → let v := m.ac i.a + m.dr i.x * m.dr i.y
    let t := (i.apply m free).1
    t.ac i.a = max (-(2 ^ 47)) (min (2 ^ 47 - 1) v) ∧ t.sat = (m.sat || t.ac i.a != v) ∧ t.d = m.d ∧ t.z = m.z ∧ t.n = m.n ∧
    ∀ j : Nat, j ≠ i.a → t.ac j = m.ac j) ∧
  (∀ (pc : Nat) (l : MpLoop) (r : List MpLoop), l.last = pc → (1 < l.left → loopEnd pc (l :: r) = (l.first, { l with left := l.left - 1 } :: r)) ∧
    (l.left ≤ 1 → loopEnd pc (l :: r) = loopEnd pc r)) ∧
  (∀ (c : Fin 16) (w : Nat) (s : State), let m := s.mp c.val
    m.st = .running → (m.waitIn = true ∧ m.filled ≠ [] ∨ m.waitOut = true ∧ m.freeOut = some w) →
    exec (.mpMailboxWake c) s = .next (s.mpRun c.val .none)) ∧
  (∀ (c : Fin 16) (s : State), (s.mp c.val).st ≠ .running → exec (.mpMailboxWake c) s = .next s ∧ exec (.mpWatchdogExpiry c) s = .next s) ∧
  (∀ (c : Fin 16) (s : State), ((s.mp c.val).arriving = [] → exec (.mpInputDelivery c) s = .next s) ∧
    ((s.mp c.val).outq = [] → exec (.mpOutputRecordWrite c) s = .next s)) ∧
  (∀ (c : Fin 16) (k : Nat) (x : MpIn) (rest : List MpIn) (s : State), (s.mp c.val).arriving = x :: rest → (s.mp c.val).kind = some k → num x.hdr 12 1 ≠ k →
    exec (.mpInputDelivery c) s = .next (s.setMp c.val fun m => { m with arriving := rest })) ∧
  (∀ (c : Fin 16) (x : MpIn) (rest : List MpIn) (w : Nat) (s : State), let m := s.mp c.val
    m.arriving = x :: rest → (∀ k, m.kind = some k → num x.hdr 12 1 = k) →
    (m.freeIn = none → exec (.mpInputDelivery c) s = .next (s.setMp c.val fun m =>
      { m with arriving := rest, skipped := satN 65535 (m.skipped + 1), skipRec := satN (2 ^ 32 - 1) (m.skipRec + 1) })) ∧
    (m.freeIn = some w → exec (.mpInputDelivery c) s = .next (s.setMp c.val fun m =>
      { m with arriving := rest, filled := m.filled ++ [(w, x)], nextIn := 1 - w, skipRec := 0
               mem := MpMem.writes m.mem (m.inBase w) (m.windowWords x) }))) ∧
  (∀ (c : Fin 16) (o : MpOut) (rest : List MpOut) (s : State), let m := s.mp c.val
    m.outq = o :: rest → let p := padTo 8 (o.words.flatMap fun w => le 4 w.toNat)
    (∀ t : State, s.appendRecord (hIdx m.outReg) (o.header m.gapNext) p = some t →
      exec (.mpOutputRecordWrite c) s = .next (t.setMp c.val fun m => { m with outq := rest, gapNext := false })) ∧
    (s.appendRecord (hIdx m.outReg) (o.header m.gapNext) p = none → exec (.mpOutputRecordWrite c) s = .next (s.setMp c.val fun m =>
      { m with outq := rest, dropped := satN 65535 (m.dropped + 1), gapNext := true }))) ∧
  (∀ (c : Fin 16) (s : State), let m := s.mp c.val
    (m.st = .running → m.watchdog ≠ 0 → (m.watchdog ≤ m.cycles ∨ m.waitIn = true ∨ m.waitOut = true) → exec (.mpWatchdogExpiry c) s = .next (s.mpTrap c.val 5 0)) ∧
    (m.watchdog = 0 → exec (.mpWatchdogExpiry c) s = .next s)) ∧
  (∀ (c : Fin 16) (cause detail : Nat) (s : State), ((s.mpTrap c.val cause detail).mp c.val).st ≠ .running)

/-- AON_RULES without rules empties the rule table at once, with rules it claims its log region and reads them; rules that pass replace
the table, all CLEAR unless kept, and the log region changes with them. A conversion that ends passes to its input; with none in
progress nothing happens. A comparator that is on trips once until it is armed again, asking for an urgent conversion. The log's
pending entries go out as one record when 32 wait, or 1 s after the oldest; without entries or a region nothing happens. An hour
counts in the lifetime counters. The sequencer's clock calibration changes nothing that software sees. Forms whose exec is concluded
to answer a next state: aonRules, monConversionDone, monComparatorTrip, monComparatorRearm, rcOscillatorCalibration,
thimbleLogFlush, lifetimeCounterUpdate. (R646, R641, R643, R645, R656, R657, R658, R659, R665) -/
def Obligations.ThimbleRuleCommands : Prop :=
  (∀ (d : Desc) (s : State), Ready .aonRules d s → let a := accepted .aonRules d s
    (aonLog d ≠ 0 → a.valid 3 (aonLog d) = true ∧ a.writerBusy (hIdx (aonLog d)) .thimble = false) → aonBodyOk d = true → d.u 0x10 1 = 0 →
    let u : Thim := { a.thim with rules := [], logRegion := if aonLog d = 0 then none else some (hIdx (aonLog d))
                                  claims := a.thim.claims.filter fun k => k.1 != d.ring.val }
    let t : State := { a with thim := u }
    exec (.aonRules d) s = .next ((t.syncLog.refreshAlarms).complete d.ring.val .ok 0 0 d.handle)) ∧
  (∀ (d : Desc) (s : State), Ready .aonRules d s → let a := accepted .aonRules d s
    (aonLog d ≠ 0 → a.valid 3 (aonLog d) = true ∧ a.writerBusy (hIdx (aonLog d)) .thimble = false) → aonBodyOk d = true → d.u 0x10 1 ≠ 0 →
    (a.hostPort (a.flightPort d.ring.val).val).linkUp = true →
    let c := { a.thim with claims := a.thim.claims ++ [(d.ring.val, hIdx (aonLog d))] }
    let b := if aonLog d = 0 then a else State.syncLog { a with thim := c }
    let w := b.setInflight d.ring.val (Option.map fun f => { f with stage := .hostRead, handle := d.handle, asks := (d.u 0x08 8, 16 * d.u 0x10 1) })
    let io := (w.io.leaveL1 (a.flightPort d.ring.val).val).emit (.hostRead (a.flightPort d.ring.val) (d.u 0x08 8) (16 * d.u 0x10 1))
    exec (.aonRules d) s = .next { w with io := io }) ∧
  (∀ (d : Desc) (buf : List (BitVec 8)) (s : State), let rules := (aonRules d buf).map fun raw => (⟨raw, .clear, 0⟩ : Rule)
    (aonLog d ≠ 0 → s.valid 3 (aonLog d) = true ∧ s.writerBusy (hIdx (aonLog d)) .thimble = false) → rules.all Rule.ok = true →
    (∀ r ∈ rules, r.act 2 = true → nth s.pins.func (20 + r.b 12) 0 = 5#4) →
    let new := rules.mapIdx fun i r => ((s.thim.rules[i]?).filter fun o => dBit d 0x11 0 && o.raw == r.raw).getD r
    let u : Thim := { s.thim with rules := new, logRegion := if aonLog d = 0 then none else some (hIdx (aonLog d))
                                  claims := s.thim.claims.filter fun k => k.1 != d.ring.val }
    let t : State := { s with thim := u }
    aonRulesData d buf s = .done .ok rules.length (new.filter fun r => r.st == .active).length d.handle t.syncLog.refreshAlarms ∧
    (dBit d 0x11 0 = false → new = rules)) ∧
  (∀ (code : BitVec 16) (i : Nat) (s : State), s.thim.urgRun = some i → exec (.monConversionDone code) s = .next (s.monUrgent i code.toNat)) ∧
  (∀ (code : BitVec 16) (s : State), s.thim.urgRun = none → s.thim.seqOn = true → (s.thim.scanning = true → s.thim.mask ≠ []) →
    exec (.monConversionDone code) s = .next ((s.until (s.thim.convAt + 1000)).monSequenced code.toNat)) ∧
  (∀ (code : BitVec 16) (s : State), s.thim.urgRun = none → (s.thim.seqOn = false ∨ s.thim.scanning = true ∧ s.thim.mask = []) →
    exec (.monConversionDone code) s = .next s) ∧
  (∀ (code : Nat) (s : State), 0 < s.thim.settle → Kept [.thim] s (s.monSequenced code) ∧
    (s.monSequenced code).thim.filters = s.thim.filters) ∧
  (∀ (k : Fin 8) (s : State), (nth s.thim.cmp k.val 0).getLsbD 31 = true → nth s.thim.tripped k.val false = false →
    let u : Thim := { s.thim with tripped := upd s.thim.tripped k.val fun _ => true }
    exec (.monComparatorTrip k) s = .next { s with thim := u.urge s.now (bits (nth s.thim.cmp k.val 0).toNat 23 16) }) ∧
  (∀ (k : Fin 8) (s : State), (nth s.thim.tripped k.val false = true ∨ (nth s.thim.cmp k.val 0).getLsbD 31 = false) → exec (.monComparatorTrip k) s = .next s) ∧
  (∀ (k : Fin 8) (s : State), exec (.monComparatorRearm k) s = .next { s with thim := { s.thim with
    tripped := upd s.thim.tripped k.val fun _ => false } }) ∧
  (∀ s : State, exec .rcOscillatorCalibration s = .next s) ∧
  (∀ (i : Nat) (e : ThimEntry) (es : List ThimEntry) (t : State) (s : State), s.serving = true → s.thim.logRegion = some i → s.thim.pending = e :: es →
    let u := if 32 ≤ (e :: es).length then s else s.untilRtc (rtcOf74 e.time + unitS)
    let hdr : Hdr := { Hdr.plain 0 0x0C 1 (execThimbleLogFlush.timeOf e.time) with journal := u.sec.jNext - 1 }
    u.appendRecord i hdr (padTo 8 (pack [(4, (e :: es).length), (4, 0)] ++ (e :: es).flatMap ThimEntry.bytes)) = some t →
    exec .thimbleLogFlush s = .next { t with thim := { t.thim with logPending := 0, lostBefore := 0 } }) ∧
  (∀ s : State, (s.serving = false ∨ s.thim.logRegion = none ∨ s.thim.pending = []) → exec .thimbleLogFlush s = .next s) ∧
  (∀ s : State, ∃ t : State, exec .lifetimeCounterUpdate s = .next t ∧ Kept [.thim] s t ∧ t.thim.aonHours = s.thim.aonHours + 1 ∧
    t.thim.actHours = s.thim.actHours + (if s.pwr.st = .active then 1 else 0) ∧ t.thim.rules = s.thim.rules ∧ t.thim.log = s.thim.log)

/-- While the monitor is off a line does nothing. On an OWNED device that is locked every command but help, id and auth is refused with
AUTH_FAILED. The commands that only print change nothing but the output; rd and wr act as accesses of the host; sleep starts the way
into its power state; selftest needs IDLE; an accepted token opens debug access and a refused one blocks challenges for 10 s; a
character enters the FIFO or is dropped and counted. The wording of the lines is the model's (log entry 23). Forms whose exec is
concluded to answer a next state: monHelp, monId, monEv, monClk, monAuthLock, monRd, monWr, monSleep, monWake, monSelftest, monPau,
monSeal, monRing, monChan, monLog, monLanes, monThim, monAuthChallenge, monAuthToken, monRxCharacter. (R664, R740, R742, R743, R744,
R745, R746, R747, R715) -/
def Obligations.MonitorLines : Prop :=
  (∀ (t : String) (n : Fin 16) (s : State), s.monOn = false → exec (.monHelp t) s = .next s ∧ exec .monId s = .next s ∧ exec (.monEv n) s = .next s ∧
    exec .monClk s = .next s ∧ exec .monAuthLock s = .next s) ∧
  (∀ (off : BitVec 24) (count : Nat) (v : Word) (n : Fin 16) (mask : Byte) (w : SelfTest) (s : State), s.monOn = true → s.monOpen = false →
    let no := (s.emit (.uart (statusLine .authFailed "locked"))).emit (.uart "> ")
    exec (.monRd off count) s = .next no ∧ exec (.monWr off v) s = .next no ∧ exec (.monEv n) s = .next no ∧ exec (.monSleep 1 mask 0) s = .next no ∧
    exec .monWake s = .next no ∧ exec (.monSelftest w []) s = .next no ∧ exec .monClk s = .next no ∧ exec .monPau s = .next no ∧
    exec .monSeal s = .next no) ∧
  (∀ s : State, s.monOn = true → (∃ l : List String, exec .monId s = .next ((s.say (l ++ ["ok"])).emit (.uart "> "))) ∧
    exec (.monHelp "") s = .next ((s.say (monSyntax.map (·.1) ++ ["ok"])).emit (.uart "> "))) ∧
  (∀ (topic : String) (s : State), s.monOn = true → topic ≠ "" → let found := monSyntax.find? fun x => x.1.toList.map upper == topic.toList.map upper
    (∀ x, found = some x → exec (.monHelp topic) s = .next ((s.say [x.2, "ok"]).emit (.uart "> "))) ∧
    (found = none → exec (.monHelp topic) s = .next ((s.say [statusLine .badParam ""]).emit (.uart "> ")))) ∧
  (∀ (sel : Option RingSel) (n : Fin 16) (thim sticky : Bool) (i : Option (Fin 144)) (s : State), s.monOn = true → s.monOpen = true →
    (∃ l : List String, exec (.monRing sel) s = .next ((s.say (l ++ ["ok"])).emit (.uart "> "))) ∧
    (∃ l : List String, exec (.monChan none) s = .next ((s.say (l ++ ["ok"])).emit (.uart "> "))) ∧
    exec (.monEv n) s = .next ((s.say ((nth s.io.evt n.val .reset).recent.map EvtRecord.line ++ ["ok"])).emit (.uart "> ")) ∧
    (∃ l : List String, exec (.monLog thim sticky) s = .next ((s.say (l ++ ["ok"])).emit (.uart "> "))) ∧
    (∃ l : List String, exec (.monLanes none) s = .next ((s.say (l ++ ["ok"])).emit (.uart "> "))) ∧
    (∃ l : List String, l.length = 4 ∧ exec .monClk s = .next ((s.say (l ++ ["ok"])).emit (.uart "> "))) ∧
    (∃ l : List String, exec .monPau s = .next ((s.say (l ++ ["ok"])).emit (.uart "> "))) ∧
    (∃ l : List String, exec (.monThim i) s = .next ((s.say (l ++ ["ok"])).emit (.uart "> "))) ∧
    (∃ l : List String, exec .monSeal s = .next ((s.say (l ++ ["ok"])).emit (.uart "> "))) ∧
    (∃ l : List String, exec .monWake s = .next ((s.say (l ++ ["ok"])).emit (.uart "> ")))) ∧
  (∀ (h : Handle) (s : State), s.monOn = true → s.monOpen = true → exec (.monChan (some h)) s = .next (if s.valid 2 h then
      (s.say [s.chanLine (hIdx h), "ok"]).emit (.uart "> ") else (s.say [statusLine .badHandle ""]).emit (.uart "> "))) ∧
  (∀ (off : BitVec 24) (v : Word) (s : State), s.monOn = true → s.monOpen = true →
    (off.toNat % 4 = 0 → let r := s.busRead 0 (off.toNat / 4) [0, 1, 2, 3]
      exec (.monRd off 1) s = .next ((r.2.say [words [nameAt off.toNat, "=", hex 8 r.1], "ok"]).emit (.uart "> "))) ∧
    exec (.monWr off v) s = .next (((s.busWrite 0 off.toNat 4 (v.setWidth 64)).say ["ok"]).emit (.uart "> "))) ∧
  (∀ (off : BitVec 24) (count : Nat) (s : State), s.monOn = true → s.monOpen = true →
    ((inR count 1 64 = false ∨ off.toNat % 4 ≠ 0) → exec (.monRd off count) s = .next ((s.say [statusLine .badParam ""]).emit (.uart "> "))) ∧
    (inR count 1 64 = true → off.toNat % 4 = 0 → ∃ (l : List String) (t : State), l.length = count ∧
      t = (List.range count).foldl (fun (s : State) i => (s.busRead 0 (off.toNat / 4 + i) [0, 1, 2, 3]).2) s ∧
      exec (.monRd off count) s = .next ((t.say (l ++ ["ok"])).emit (.uart "> ")))) ∧
  (∀ (lane : Fin 64) (s : State), s.monOn = true → s.monOpen = true → (lane.val < laneCount s → ∃ l : List String, l.length = 14 ∧
    exec (.monLanes (some lane)) s = .next ((s.say (l ++ ["ok"])).emit (.uart "> "))) ∧
    (laneCount s ≤ lane.val → exec (.monLanes (some lane)) s = .next ((s.say [statusLine .badParam ""]).emit (.uart "> ")))) ∧
  (∀ (target second : Nat) (mask : Byte) (s : State), s.monOn = true → s.monOpen = true → s.pair.role ≠ .secondary → s.pair.role ≠ .fenced →
    s.sleepOk target mask.toNat second = true → s.sleepGoes target = true →
    let t := s.journal 0 0x79 0 0 (Config.sha384 (pack [(1, target), (1, mask.toNat), (8, second)]))
    exec (.monSleep target mask second) s = .next (((t.beginSleep target mask.toNat second).say ["ok"]).emit (.uart "> "))) ∧
  (∀ (w : SelfTest) (f : List (SelfTest × String)) (s : State), s.monOn = true → s.monOpen = true →
    (s.pwr.st ≠ .idle → exec (.monSelftest w f) s = .next ((s.say [statusLine .wrongState ""]).emit (.uart "> "))) ∧
    (s.pwr.st = .idle → w = .rom → f = [] → exec (.monSelftest w f) s = .next
      (((s.journal 0 0xFF 0 0 (Config.sha384 [0#8])).say [words ["rom", "pass"], "ok"]).emit (.uart "> "))) ∧
    (s.pwr.st = .idle → let parts := SelfTest.parts w
      let u := if parts.contains .sram then s.sramZero else s
      let code := parts.map fun t => if t = .rom then 0#8 else if t = .crypto then 1#8 else 2#8
      ∃ l : List String, l.length = parts.length ∧
        exec (.monSelftest w f) s = .next (((u.journal 0 0xFF 0 0 (Config.sha384 code)).say (l ++ ["ok"])).emit (.uart "> ")))) ∧
  (∀ (token : List Byte) (s : State), s.monOn = true →
    (s.sec.monBlock = none → let r := s.issueChallenge
      exec .monAuthChallenge s = .next ((r.2.say (challengeLines r.1 ++ ["expires 60 s", "ok"])).emit (.uart "> "))) ∧
    (let t : State := { s with sec := { s.sec with monBlock := some (s.now + 10000000000) } }
     let u := (s.spend (BitVec.ofNat 256 (num token 8 32))).unlock (BitVec.ofNat 8 (num token 0x28 1)) (num token 0x2C 4)
     ∃ l : List String, exec (.monAuthToken token) s = .next (if s.tokenOk token then (u.say (l ++ ["ok"])).emit (.uart "> ")
       else (t.say [statusLine .authFailed ""]).emit (.uart "> "))) ∧
    exec .monAuthLock s = .next ((s.relock.say ["ok"]).emit (.uart "> "))) ∧
  (∀ (c : Byte) (s : State), s.pwr.wakeMask.getLsbD 1 = false → s.thim.rx.length < 64 → s.monOn = false →
    exec (.monRxCharacter c) s = .next { s with thim := { s.thim with rx := s.thim.rx ++ [c] } }) ∧
  (∀ (c : Byte) (s : State), s.pwr.wakeMask.getLsbD 1 = false → s.thim.rx = [] → s.monOn = true → s.mon.cfg.getLsbD 30 = false →
    c ∉ [8#8, 10#8, 13#8, 127#8] → s.mon.line.length < 128 →
    exec (.monRxCharacter c) s = .next { s with mon := { s.mon with line := s.mon.line ++ [c] } }) ∧
  (∀ (c : Byte) (s : State), let u := s.wakeSleep 1
    u.thim.rx.length < 64 → exec (.monRxCharacter c) s = .next (State.monDrain 65 { u with thim := { u.thim with rx := u.thim.rx ++ [c] } })) ∧
  (∀ (c : Byte) (s : State), s.pwr.wakeMask.getLsbD 1 = false → 64 ≤ s.thim.rx.length → s.monOn = false → ∃ t : State,
    exec (.monRxCharacter c) s = .next t ∧ Kept [.thim] s t ∧ t.thim.rx = s.thim.rx ∧ t.thim.rxDrop = satN 255 (s.thim.rxDrop + 1))

/-- SEAL_OPEN with its fields in range, a valid region, a lifecycle that allows it and a free session claims session, region and rate
and reads its recipient block; the session that its data opens is OPEN with its salt, its chain, its region and its periods.
SEAL_CHECKPOINT cuts a checkpoint of kind 2, or has it cut after the record being sealed, and waits for it; SEAL_CLOSE of a session
no sink uses cuts one of kind 3 and seals no more. The timer cuts one of kind 1. A checkpoint whose region has room is written,
after the journal's unwritten entries, numbered and reported; with none it waits. The last one of a closing session frees it. Every
sealed record advances the chain, and the N-th cuts a checkpoint. Forms whose exec is concluded to answer a next state: sealOpen,
sealCheckpoint, sealClose, sealCheckpointTimer, checkpointWrite. (R701, R703, R705, R706, R709, R710, R712, R713) -/
def Obligations.SealCommandsAndRows : Prop :=
  (∀ (d : Desc) (s : State), Ready .sealOpen d s → let a := accepted .sealOpen d s
    sealOpenFields d a = true → a.valid 3 (sealRegion d) = true → a.sealBarred = false → (a.hostPort (a.flightPort d.ring.val).val).linkUp = true →
    ∀ k : Nat, sealClaim d a = .ok k →
    let b := (a.setWriter (hIdx (sealRegion d)) (.session k)).setSession k fun x => { Session.reset with gen := x.gen, claim := some d.ring.val, rate := d.u 0x24 4 }
    let w := b.setInflight d.ring.val (Option.map fun f => { f with stage := .hostRead, handle := b.handleOf 8 k, asks := (d.u 0x08 8, d.u 0x10 4) })
    let io := (w.io.leaveL1 (a.flightPort d.ring.val).val).emit (.hostRead (a.flightPort d.ring.val) (d.u 0x08 8) (d.u 0x10 4))
    exec (.sealOpen d) s = .next { w with io := io }) ∧
  (∀ (d : Desc) (buf : List (BitVec 8)) (k : Fin 16) (s : State), buf.length ≤ d.u 0x10 4 → let t := sealSession d buf k.val s
    let x := t.session k.val
    x.isOpen = true ∧ x.gen = (s.session k.val).gen ∧ x.salt = (Config.random s.sec.draws).setWidth 32 ∧ x.next = 0 ∧ x.number = 0 ∧ x.cuts = [] ∧
    x.recip = Config.sha384 (slice 0 1665 buf) ∧ x.enc = dBit d 0x14 0 ∧ x.region = hIdx (sealRegion d) ∧ x.n = d.u 0x1C 4 ∧ x.t = d.u 0x20 2 ∧
    x.rate = d.u 0x24 4 ∧ t.sec.draws = s.sec.draws + 1 ∧ Kept [.sec] s t) ∧
  (∀ (d : Desc) (s : State), Ready .sealCheckpoint d s → d.clean [] = true → let a := accepted .sealCheckpoint d s
    (a.session (hIdx d.handle)).closing = false →
    (a.midSeal (hIdx d.handle) = false → exec (.sealCheckpoint d) s = .next ((a.cut (hIdx d.handle) 2 (some d.ring)).setInflight d.ring.val
      (Option.map fun f => { f with stage := .checkpoint, handle := d.handle }))) ∧
    (a.midSeal (hIdx d.handle) = true → exec (.sealCheckpoint d) s = .next
      ((a.setSession (hIdx d.handle) fun x => { x with due := x.due ++ [(2, some d.ring)] }).setInflight d.ring.val
      (Option.map fun f => { f with stage := .checkpoint, handle := d.handle })))) ∧
  (∀ (d : Desc) (s : State), Ready .sealClose d s → d.clean [] = true → let a := accepted .sealClose d s
    (a.session (hIdx d.handle)).closing = false → (a.session (hIdx d.handle)).sink = none →
    exec (.sealClose d) s = .next (((a.cut (hIdx d.handle) 3 (some d.ring)).setSession (hIdx d.handle) fun x => { x with closing := true }).setInflight
      d.ring.val (Option.map fun f => { f with stage := .checkpoint, handle := d.handle }))) ∧
  (∀ (k : Fin 16) (s : State), let x := s.session k.val
    (x.isOpen = true → x.closing = false → x.t ≠ 0 → (x.due.any fun c => c.1 == 1) = false →
      exec (.sealCheckpointTimer k) s = .next ((s.until (x.cutAt + x.t * 1000000000)).cutSoon k.val 1 none)) ∧
    ((x.isOpen = false ∨ x.closing = true ∨ x.t = 0 ∨ (x.due.any fun c => c.1 == 1) = true) → exec (.sealCheckpointTimer k) s = .next s)) ∧
  (∀ (k : Fin 16) (kind : Nat) (ring : Option (Fin 16)) (s : State), let x := s.session k.val
    let y := (s.cut k.val kind ring).session k.val
    y.cuts = x.cuts ++ [{ kind := kind, time := s.time74, first := x.next - x.since, count := x.since, chain := x.chain, ring := ring }] ∧
    y.since = 0 ∧ y.cutAt = s.now ∧ y.chain = x.chain) ∧
  (∀ (k : Fin 16) (c : Cut) (rest : List Cut) (t : State) (s : State), (s.session k.val).cuts = c :: rest → s.unwritten k.val = [] → c.ring = none →
    (s.session k.val).closing = false → s.appendRecord (s.session k.val).region (s.checkpoint k.val c).1 (s.checkpoint k.val c).2 = some t →
    exec (.checkpointWrite k) s = .next ((t.note .sealCheckpoint (t.handleOf 8 k.val)
      [(1, c.kind), (3, (t.session k.val).number % 2 ^ 24), (8, c.last)]).setSession k.val fun x => { x with cuts := rest, number := x.number + 1 })) ∧
  (∀ (k r : Fin 16) (c : Cut) (t : State) (s : State), (s.session k.val).cuts = [c] → s.unwritten k.val = [] → c.ring = some r → c.kind = 3 →
    (s.session k.val).closing = true → s.appendRecord (s.session k.val).region (s.checkpoint k.val c).1 (s.checkpoint k.val c).2 = some t →
    let u := (t.note .sealCheckpoint (t.handleOf 8 k.val) [(1, c.kind), (3, (t.session k.val).number % 2 ^ 24), (8, c.last)]).setSession k.val fun x =>
      { x with cuts := [], number := x.number + 1 }
    exec (.checkpointWrite k) s = .next ((u.freeSession k.val).finish r.val .ok 0 0)) ∧
  (∀ (k : Fin 16) (c : Cut) (rest : List Cut) (t : State) (s : State), (s.session k.val).cuts = c :: rest → s.unwritten k.val ≠ [] → c.ring = none →
    (s.session k.val).closing = false →
    s.appendRecord (s.session k.val).region (Hdr.plain (s.handleOf 8 k.val) 0x0D 2 (timeOf74 c.time)) (segmentBytes (s.unwritten k.val)) = some t →
    let v := t.setSession k.val fun x => { x with jNext := s.sec.jNext }
    ∀ u : State, v.appendRecord (v.session k.val).region (v.checkpoint k.val c).1 (v.checkpoint k.val c).2 = some u →
    exec (.checkpointWrite k) s = .next ((u.note .sealCheckpoint (u.handleOf 8 k.val)
      [(1, c.kind), (3, (u.session k.val).number % 2 ^ 24), (8, c.last)]).setSession k.val fun x => { x with cuts := rest, number := x.number + 1 })) ∧
  (∀ (k : Fin 16) (s : State), (s.session k.val).cuts = [] → exec (.checkpointWrite k) s = .next s) ∧
  (∀ (k : Fin 16) (c : Cut) (rest : List Cut) (s : State), (s.session k.val).cuts = c :: rest → s.unwritten k.val = [] →
    s.appendRecord (s.session k.val).region (s.checkpoint k.val c).1 (s.checkpoint k.val c).2 = none → exec (.checkpointWrite k) s = .next s) ∧
  (∀ (k : Fin 16) (tag : List (BitVec 8)) (s : State), (s.session k.val).due = [] → let x := s.session k.val
    let y := (s.sealDone k.val tag).session k.val
    y.chain = Config.sha384 (le 48 x.chain.toNat ++ tag) ∧ y.next = x.next + 1 ∧
    ((x.n = 0 ∨ x.since + 1 < x.n) → y.since = x.since + 1 ∧ y.cuts = x.cuts) ∧
    (x.n ≠ 0 → x.n ≤ x.since + 1 → y.since = 0 ∧ y.cuts = x.cuts ++ [{ kind := 1, time := s.time74, first := x.next - x.since, count := x.since + 1, chain := y.chain, ring := none }]))

/-- A device that answers on a port answers version, capabilities, algorithms, digests, certificate parts, challenges with a fresh one
of its own, and measurements of the table. CLAIM, RELEASE, ENROL_PAIR and DECOMMISSION with a fresh challenge and a signature that
verifies change the lifecycle, the slot and the enrolment, enter the journal and use up the challenge; else they are refused. A
debug token closes the sessions, after the records being sealed, and opens access until it expires. A device that does not answer on
the port does nothing. The codes of the responses are the model's (PRESUMED). Forms whose exec is concluded to answer a next state:
getVersion, getCapabilities, negotiateAlgorithms, getDigests, getCertificate, challenge, getMeasurements, claim, release, enrolPair,
decommission, debugToken, debugGrantExpiry. (R689, R691, R692, R693, R698, R715, R716, R717) -/
def Obligations.SecurityRows : Prop :=
  (∀ (p : Fin 2) (off len : Nat) (nonce : BitVec 256) (s : State), s.answers p = true →
    exec (.getVersion p) s = .next (s.emit (.spdm p [0x04, 2, 0x12, 0x13])) ∧ exec (.getCapabilities p) s = .next (s.emit (.spdm p [0x61, 0x16])) ∧
    exec (.negotiateAlgorithms p) s = .next (s.emit (.spdm p [0x63, 0x80, 0x02])) ∧
    exec (.getDigests p) s = .next (s.emit (.spdm p (0x01 :: le 48 (Config.sha384 Config.aliasCerts).toNat))) ∧
    exec (.getCertificate p off len) s = .next (s.emit (.spdm p (0x02 :: (Config.aliasCerts.drop off).take len))) ∧
    (let t : State := { s with sec := { s.sec with draws := s.sec.draws + 1, challenges := s.sec.challenges ++ [(Config.random s.sec.draws, s.now)] } }
     let body := le 32 nonce.toNat ++ le 48 (Config.sha384 Config.aliasCerts).toNat ++ le 32 (Config.random s.sec.draws).toNat
     exec (.challenge p nonce) s = .next (t.emit (.spdm p (0x03 :: body ++ Config.aliasSign body))))) ∧
  (∀ (p : Fin 2) (off len : Nat) (nonce : BitVec 256) (i : BitVec 8) (s : State), s.answers p = false →
    exec (.getVersion p) s = .next s ∧ exec (.getCertificate p off len) s = .next s ∧ exec (.challenge p nonce) s = .next s ∧
    exec (.getMeasurements p i) s = .next s ∧ exec (.getCapabilities p) s = .next s ∧ exec (.negotiateAlgorithms p) s = .next s ∧
    exec (.getDigests p) s = .next s) ∧
  (∀ (r : LifeReq) (s : State), s.answers r.port = false → exec (.claim r) s = .next s ∧ exec (.release r) s = .next s ∧ exec (.enrolPair r) s = .next s ∧
    exec (.decommission r) s = .next s ∧ exec (.debugToken r) s = .next s) ∧
  (∀ (r : LifeReq) (s : State), s.answers r.port = true → s.lifeFresh r.serial r.challenge = false → let no := s.emit (.spdm r.port spdmInvalid)
    exec (.release r) s = .next no ∧ exec (.enrolPair r) s = .next no ∧ exec (.decommission r) s = .next no) ∧
  (∀ (p : Fin 2) (s : State), s.answers p = true →
    exec (.getMeasurements p 0) s = .next (s.emit (.spdm p (0x60 :: 21 :: Config.aliasSign [21]))) ∧
    (let b := ([1, 2, 3, 4, 5] ++ (List.range 16).map (· + 16)).flatMap fun i => (s.measurement i).getD []
     exec (.getMeasurements p 0xFF) s = .next (s.emit (.spdm p (0x60 :: b ++ Config.aliasSign b))))) ∧
  (∀ (p : Fin 2) (i : BitVec 8) (b : List (BitVec 8)) (s : State), s.answers p = true → i ≠ 0 → i ≠ 0xFF →
    (s.measurement i.toNat = some b → exec (.getMeasurements p i) s = .next (s.emit (.spdm p (0x60 :: b ++ Config.aliasSign b)))) ∧
    (s.measurement i.toNat = none → exec (.getMeasurements p i) s = .next (s.emit (.spdm p spdmInvalid)))) ∧
  (∀ (r : LifeReq) (k : Nat) (s : State), s.answers r.port = true → s.lifeFresh r.serial r.challenge = true → s.sec.life = .unowned →
    s.sec.owners.toList.findIdx? (· == .blank) = some k → r.key.length = 2689 →
    let t := (s.spend r.challenge).setSec fun x => { x with owners := upd x.owners k fun _ => .key (Config.sha384 r.key), life := .owned }
    exec (.claim r) s = .next (if Config.verifies (Config.sha384 r.key) (lifeMsg r 0) r.sig then
      (t.journal 6 0xFF 0 0 (Config.sha384 (lifeMsg r 0))).reply r.port [0x7E] else s.emit (.spdm r.port spdmInvalid))) ∧
  (∀ (r : LifeReq) (s : State), s.answers r.port = true → (s.lifeFresh r.serial r.challenge = false ∨ s.sec.life ≠ .unowned) →
    exec (.claim r) s = .next (s.emit (.spdm r.port spdmInvalid))) ∧
  (∀ (r : LifeReq) (k : Nat) (s : State), s.answers r.port = true → s.lifeFresh r.serial r.challenge = true → s.sec.life = .owned →
    s.sec.slot = some k → (∀ j : Fin 16, (s.session j.val).isOpen = false) →
    let t : State := { s.spend r.challenge with
      sec := { (s.spend r.challenge).sec with owners := upd s.sec.owners k fun _ => .void, life := .unowned, debugTok := none }
      store := { s.store with enrol := none } }
    exec (.release r) s = .next (if s.byOwner (lifeMsg r 1) r.sig then
      (t.journal 6 0xFF 0 0 (Config.sha384 (lifeMsg r 1))).reply r.port [0x7E] else s.emit (.spdm r.port spdmInvalid))) ∧
  (∀ (r : LifeReq) (s : State), s.answers r.port = true → s.lifeFresh r.serial r.challenge = true → s.sec.life = .owned →
    let v := (s.spend r.challenge).closeAll 3
    let t : State := { v with
      sec := { v.sec with owners := upd v.sec.owners (v.sec.slot.getD 0) fun _ => .void, life := .unowned, debugTok := none }
      store := { v.store with enrol := none } }
    exec (.release r) s = .next (if s.byOwner (lifeMsg r 1) r.sig then
      (t.journal 6 0xFF 0 0 (Config.sha384 (lifeMsg r 1))).reply r.port [0x7E] else s.emit (.spdm r.port spdmInvalid))) ∧
  (∀ (r : LifeReq) (s : State), s.answers r.port = true → s.lifeFresh r.serial r.challenge = true → s.sec.life = .owned →
    let t : State := { s.spend r.challenge with store := { s.store with enrol := some (s.ident.serial, r.peer) } }
    exec (.enrolPair r) s = .next (if s.byOwner (lifeMsg r 2) r.sig then
      (t.journal 6 0xFF 0 0 (Config.sha384 (lifeMsg r 2))).reply r.port [0x7E] else s.emit (.spdm r.port spdmInvalid))) ∧
  (∀ (r : LifeReq) (s : State), s.answers r.port = true → s.lifeFresh r.serial r.challenge = true → (s.sec.life = .unowned ∨ s.sec.life = .owned) →
    let t := ((s.spend r.challenge).closeAll 3).setSec fun x => { x with life := .decommissioned, debugTok := none }
    exec (.decommission r) s = .next (if s.sec.life = .unowned ∨ s.byOwner (lifeMsg r 3) r.sig = true then
      (t.journal 6 0xFF 0 0 (Config.sha384 (lifeMsg r 3))).reply r.port [0x7E] else s.emit (.spdm r.port spdmInvalid))) ∧
  (∀ (r : LifeReq) (s : State), s.answers r.port = true → s.sec.life = .owned → inR r.expiry 1 86400 = true → r.mask.toNat < 4 →
    (s.lifeFresh r.serial r.challenge = true → exec (.debugToken r) s = .next (if s.byOwner (lifeMsg r 4) r.sig then
      ((s.spend r.challenge).unlock r.mask r.expiry).reply r.port [0x7E] else s.emit (.spdm r.port spdmInvalid))) ∧
    (s.lifeFresh r.serial r.challenge = false → exec (.debugToken r) s = .next (s.emit (.spdm r.port spdmInvalid)))) ∧
  (∀ (r : LifeReq) (s : State), s.answers r.port = true → (s.sec.life ≠ .owned ∨ inR r.expiry 1 86400 = false ∨ 4 ≤ r.mask.toNat) →
    exec (.debugToken r) s = .next (s.emit (.spdm r.port spdmInvalid))) ∧
  (∀ (mask : Byte) (t : Nat) (s : State), s.sec.debugTok = some (mask, t) → exec .debugGrantExpiry s = .next ((s.until t).relock)) ∧
  (∀ s : State, s.sec.debugTok = none → exec .debugGrantExpiry s = .next s) ∧
  (∀ (mask : Byte) (t : Nat) (s : State), s.sec.debugTok = some (mask, t) → s.relock.sec.debugTok = none ∧ s.relock.sec.jNext = s.journalRegs.sec.jNext + 1)

/-- PAIR_JOIN on a SOLO device whose PAIR_ARB fits its role, with its grant, waits for training and its peer, at most 1 s. Training that
succeeds sends the offer; without a lane the join times out. PAIR_ROLE dissolves a pair at once, starts a switchover of a primary,
and makes a FENCED device SOLO. PAIR_STATUS writes its block. A switchover that has not ended in 1 s leaves the roles unchanged. A
time-out of a ring at which nothing of that kind waits does nothing. A pair whose link trains again keeps its width, one whose link
cannot has lost its peer. Forms whose exec is concluded to answer a next state: pairJoin, pairRole, pairStatus, pairJoinTimeout,
switchoverTimeout, seamTrainingDone. (R668, R669, R670, R671, R679, R685, R686, R798) -/
def Obligations.PairCommands : Prop :=
  (∀ (d : Desc) (s : State), Ready .pairJoin d s → let a := accepted .pairJoin d s
    d.clean [(0x08, 3), (0x0C, 2), (0x10, 8)] = true → inR (d.u 0x08 1) 1 2 = true → d.u 0x09 1 ≤ 1 → d.u 0x0A 1 ≤ 1 → inR (d.u 0x0C 2) 1 1000 = true →
    (a.pair.role = .solo ∨ (a.pair.role = .fenced ∧ d.u 0x08 1 = 2)) → (d.u 0x08 1 = 2 → a.liveHandles = []) → a.pair.arb = (d.u 0x08 1 == 1) →
    (a.ringsWaiting fun f => f.op == .pairJoin && (f.stage == .join || f.stage == .power)) = [] → GrantedNow a 0 5400 d.waitForPower →
    exec (.pairJoin d) s = .next (((withGrant a .seam 5400).setPair fun p => { p with trained := false, agreed := false }).setInflight d.ring.val
      (Option.map fun f => { f with stage := .join, handle := d.handle }))) ∧
  (∀ (d : Desc) (s : State), Ready .pairRole d s → d.clean [(0x08, 1)] = true → let a := accepted .pairRole d s
    (d.u 0x08 1 = 0 → (a.pair.role = .primary ∨ a.pair.role = .secondary) →
      exec (.pairRole d) s = .next (((a.emit (.seam .dissolve)).dissolved).complete d.ring.val .ok 0 0 d.handle)) ∧
    (d.u 0x08 1 = 1 → a.pair.role = .primary → a.switching = false →
      exec (.pairRole d) s = .next (a.setInflight d.ring.val (Option.map fun f => { f with stage := .switchover, handle := d.handle }))) ∧
    (d.u 0x08 1 = 2 → a.pair.role = .fenced → exec (.pairRole d) s = .next ((a.setRole .solo).complete d.ring.val .ok 0 0 d.handle))) ∧
  (∀ (role : Role) (s : State), (s.setRole role).pair.role = role ∧ (s.setRole role).chans = s.chans ∧ (s.setRole role).sinks = s.sinks ∧
    (s.setRole role).regions = s.regions ∧ (s.setRole role).io.cmd = s.io.cmd ∧ (s.setRole role).io.evt = s.io.evt) ∧
  (∀ (d : Desc) (s : State), Ready .pairStatus d s → d.clean [(0x08, 12)] = true → 64 ≤ d.u 0x10 4 → addrOk (d.u 0x08 8) (d.u 0x10 4) 64 = true →
    let a := accepted .pairStatus d s
    (a.hostPort (a.flightPort d.ring.val).val).linkUp = true →
    exec (.pairStatus d) s = .next (State.complete
      { a with io := a.io.write (a.flightPort d.ring.val).val (d.u 0x08 8) a.pairBlock false } d.ring.val .ok a.pair.role.code
        a.pair.unshadowed.length d.handle)) ∧
  (∀ (ring : Fin 16) (f : Inflight) (s : State),
    (s.waitsAt ring.val .join = some f → exec (.pairJoinTimeout ring) s = .next ((s.until (f.since + 1000000000)).joinFails ring.val .timeout)) ∧
    (s.waitsAt ring.val .switchover = some f →
      exec (.switchoverTimeout ring) s = .next ((s.until (f.since + 1000000000)).finish ring.val .timeout 0 0))) ∧
  (∀ (ring : Fin 16) (s : State), (s.waitsAt ring.val .join = none → exec (.pairJoinTimeout ring) s = .next s) ∧
    (s.waitsAt ring.val .switchover = none → exec (.switchoverTimeout ring) s = .next s)) ∧
  (∀ (n : Fin 9) (s : State), s.joining = none → (s.inPair = false → exec (.seamTrainingDone n) s = .next s) ∧
    (s.inPair = true → n.val = 0 → exec (.seamTrainingDone n) s = .next (State.losePeer { s with pair := { s.pair with trained := false, width := 0 } } 1)) ∧
    (s.inPair = true → n.val ≠ 0 → exec (.seamTrainingDone n) s = .next { s with pair := { s.pair with trained := true, width := seamWidth n.val } })) ∧
  (∀ (n : Fin 9) (r : Nat) (f : Inflight) (s : State), s.joining = some (r, f) →
    (n.val = 0 → exec (.seamTrainingDone n) s = .next (s.joinFails r .timeout)) ∧
    (n.val ≠ 0 → s.pair.agreed = false → let t := s.setPair fun p => { p with trained := true, width := seamWidth n.val }
      exec (.seamTrainingDone n) s = .next (t.emit (.seam (t.offer f.d)))) ∧
    (n.val ≠ 0 → s.pair.agreed = true → let t := s.setPair fun p => { p with trained := true, width := seamWidth n.val }
      exec (.seamTrainingDone n) s = .next ((t.emit (.seam (t.offer f.d))).joined r f.d))) ∧
  (∀ n : Nat, n ≤ 8 → n ≠ 0 → seamWidth n ≤ n ∧ n < 2 * seamWidth n)

/-- A heartbeat clears the run of missed ones. The first and second missed heartbeat only count; the third loses the peer: a device that
holds PAIR_ARB goes on, the other waits and then fences itself. PAIR_ARB while it waits lets it go on. A frame that fails
authentication is only counted; an authentic one acts by its kind. A primary's command enters the secondary's list and runs in its
turn; the secondary's status OK commits the primary's command, another one releases its claims and completes it with that status and
without effect. Once a second the primary's heartbeat is preceded by its offset. The frame sent last goes again after a loss. Forms
whose exec is concluded to answer a next state: heartbeatReceived, heartbeatMissed, heartbeatSend, arbWaitExpiry, seamFrameReceived,
pairArbAssert, mirroredCommand, mirrorStatusReceived, seamRetransmit. (R672, R673, R674, R675, R676, R678, R680, R681, R682, R667,
R668) -/
def Obligations.PairRows : Prop :=
  (∀ s : State, s.inPair = true → exec (.heartbeatReceived false) s = .next { s with pair := { s.pair with lastBeat := s.now, missedRun := 0, peerOk := true } } ∧
    exec (.heartbeatReceived true) s = .next (State.wakeIdle { s with pair := { s.pair with lastBeat := s.now, missedRun := 0, peerOk := true } } 4)) ∧
  (∀ (w : Bool) (s : State), s.inPair = false → exec (.heartbeatReceived w) s = .next s ∧ exec .heartbeatMissed s = .next s ∧ exec .heartbeatSend s = .next s) ∧
  (∀ s : State, s.inPair = true → let t := s.until (s.pair.lastBeat + 10000 * (s.pair.missedRun + 1))
    let u := t.setPair fun p => { p with missed := satN 255 (p.missed + 1), missedTotal := p.missedTotal + 1, missedRun := p.missedRun + 1 }
    exec .heartbeatMissed s = .next (if s.pair.missedRun < 2 then u else u.losePeer 0)) ∧
  (∀ (cause : Nat) (s : State), s.pair.arb = false → s.losePeer cause = { s with pair := { s.pair with
    peerOk := false, waitArb := some (s.now + 10000 * s.pair.arbWait) } }) ∧
  (∀ s : State, s.inPair = true → s.pair.role = .secondary → exec .heartbeatSend s = .next (s.emit (.seam (.heartbeat (s.pwr.st == .active))))) ∧
  (∀ s : State, s.inPair = true → s.pair.role = .primary → let sec := s.time.tb / unitS
    (sec = s.pair.offsetSec → exec .heartbeatSend s = .next (s.emit (.seam (.heartbeat (s.pwr.st == .active))))) ∧
    (sec ≠ s.pair.offsetSec → let ps := sx 32 (Config.freeValue s.free).toNat
      let t : State := { s with free := s.free + 1, pair := { s.pair with offsetSec := sec, offsetPs := ps } }
      exec .heartbeatSend s = .next ((t.emit (.seam (.timeOffset ps))).emit (.seam (.heartbeat (s.pwr.st == .active)))))) ∧
  (∀ (cause : Nat) (s : State), s.pair.arb = true → s.losePeer cause = State.alone { s with pair := { s.pair with peerOk := false } } cause) ∧
  (∀ s : State, s.pair.waitArb = none → exec .arbWaitExpiry s = .next s) ∧
  (∀ (w : Bool) (op : Op) (d : Desc) (data : List (BitVec 8)) (h : Handle) (ring : Fin 16) (code : BitVec 8) (s : State),
    exec (.seamFrameReceived true (.heartbeat w)) s = exec (.heartbeatReceived w) s ∧
    exec (.seamFrameReceived true (.command op d data h)) s = exec (.mirroredCommand op d data h) s ∧
    exec (.seamFrameReceived true (.status ring code)) s = exec (.mirrorStatusReceived ring code) s ∧
    exec (.seamFrameReceived true (.copied h)) s = .next s ∧
    (s.inPair = true → exec (.seamFrameReceived true .dissolve) s = .next s.dissolved) ∧
    (s.inPair = false → exec (.seamFrameReceived true .dissolve) s = .next s) ∧
    (s.pair.role = .secondary → exec (.seamFrameReceived true .switchover) s = .next s.switchedIn) ∧
    (s.pair.role ≠ .secondary → exec (.seamFrameReceived true .switchover) s = .next s)) ∧
  (∀ (t : Nat) (s : State), s.pair.waitArb = some t → exec .arbWaitExpiry s = .next ((((s.until t).setRole .fenced).seamOff).pairLost 2)) ∧
  (∀ s : State, (s.pair.waitArb = none → exec .pairArbAssert s = .next { s with pair := { s.pair with arb := true } }) ∧
    (s.pair.waitArb ≠ none → exec .pairArbAssert s = .next (State.alone { s with pair := { s.pair with arb := true, waitArb := none } } (b2n !s.pair.trained)))) ∧
  (∀ (f : SeamFrame) (s : State), exec (.seamFrameReceived false f) s = .next { s with pair := { s.pair with authErr := satN 65535 (s.pair.authErr + 1) } }) ∧
  (∀ (n : Fin 160) (c : Word) (s : State), s.pair.role = .secondary → exec (.seamFrameReceived true (.doorbell n c)) s = .next
    { s with pair := { s.pair with mirror := { s.pair.mirror with doorbell := upd s.pair.mirror.doorbell n.val fun _ => c } } }) ∧
  (∀ (k : Fin 128) (q : Nat) (s : State), s.pair.role = .secondary → exec (.seamFrameReceived true (.delivered k q)) s = .next
    (State.shadowDeliver { s with pair := { s.pair with mirror := { s.pair.mirror with delivered := upd s.pair.mirror.delivered k.val fun _ => some q } } } k.val q)) ∧
  (∀ (op : Op) (d : Desc) (data : List (BitVec 8)) (h : Handle) (s : State),
    (s.pair.role = .secondary → unmirrored s op d = false → exec (.mirroredCommand op d data h) s = .next
      (State.shadowTurn { s with pair := { s.pair with mirror := { s.pair.mirror with late := s.pair.mirror.late ++ [(op, d, data, h)] } } })) ∧
    ((s.pair.role ≠ .secondary ∨ unmirrored s op d = true) → exec (.mirroredCommand op d data h) s = .next s)) ∧
  (∀ (ring : Fin 16) (f : Inflight) (s : State), s.pair.role = .primary → s.waitsAt ring.val .mirror = some f →
    exec (.mirrorStatusReceived ring 0) s = .next (s.commit ring.val) ∧
    (∀ code : BitVec 8, code ≠ 0 → let t : State := { s with pair := { s.pair with
      longest := max s.pair.longest (s.now - f.since), divTag := f.d.tag, divOp := f.op.code, divSt := code, diverged := true } }
      exec (.mirrorStatusReceived ring code) s = .next ((t.unclaim ring.val f.handle).complete ring.val (Status.ofCode code.toNat) 0 0 f.d.handle))) ∧
  (∀ (ring : Fin 16) (code : BitVec 8) (s : State), (s.pair.role ≠ .primary ∨ s.waitsAt ring.val .mirror = none) →
    exec (.mirrorStatusReceived ring code) s = .next s) ∧
  (∀ (f : SeamFrame) (l : List Emission) (s : State), s.pair.trained = true → s.io.out = l ++ [.seam f] →
    exec .seamRetransmit s = .next (State.emit { s with pair := { s.pair with retry := satN 65535 (s.pair.retry + 1) } } (.seam f))) ∧
  (∀ s : State, (s.pair.trained = false → exec .seamRetransmit s = .next s) ∧ (s.pair.trained = true → s.io.out = [] → exec .seamRetransmit s = .next
    { s with pair := { s.pair with retry := satN 65535 (s.pair.retry + 1) } }))
end

