-- ==== Sys2Proof/Laws/Memory.lean ====
section
/-! SUPPORT. The HBM byte list: reads after writes, and the canonical form that every operation keeps. -/

namespace Sys2Proof.Machine.Mem

/-- Every listed address of a canonical list lies above a bound. -/
def above : Nat → List Host.Cell → Prop
  | _, [] => True
  | k, (a, _) :: _ => k < a

theorem wf_cons {a : Nat} {b : Byte} {r : List Host.Cell} : wf ((a, b) :: r) = true ↔ b ≠ 0 ∧ above a r ∧ wf r = true := by
  cases r with
  | nil => simp [wf, above]
  | cons c r => obtain ⟨c, e⟩ := c; simp [wf, above, and_assoc]

theorem above_write {k x : Nat} {v : Byte} {m : List Host.Cell} (hk : above k m) (hx : k < x) (hm : wf m = true) : above k (write m x v) := by
  cases m with
  | nil => simp only [write]; split <;> simp [above, hx]
  | cons c r =>
    obtain ⟨a, b⟩ := c
    simp only [above] at hk
    have hr := (wf_cons.1 hm).2.1
    simp only [write]
    split
    · split
      · exact hk
      · exact hx
    · split
      · split
        · cases r with
          | nil => trivial
          | cons c r => obtain ⟨c, e⟩ := c; simp only [above] at hr ⊢; omega
        · exact hk
      · exact hk

/-- A write keeps the canonical form. -/
theorem wf_write {m : List Host.Cell} {x : Nat} {v : Byte} (hm : wf m = true) : wf (write m x v) = true := by
  induction m with
  | nil => by_cases hv : v = 0#8 <;> simp [write, wf, hv]
  | cons c r ih =>
    obtain ⟨a, b⟩ := c
    obtain ⟨hb, ha, hr⟩ := wf_cons.1 hm
    simp only [write]
    split
    · split
      · exact hm
      · rename_i hv; exact wf_cons.2 ⟨hv, by assumption, hm⟩
    · split
      · split
        · exact hr
        · rename_i hv; exact wf_cons.2 ⟨hv, ha, hr⟩
      · exact wf_cons.2 ⟨hb, above_write ha (by omega) hr, ih hr⟩

/-- Writing bytes keeps the canonical form. -/
theorem wf_writes {bs : List Byte} {m : List Host.Cell} {x : Nat} (hm : wf m = true) : wf (writes m x bs) = true := by
  induction bs generalizing m x with
  | nil => exact hm
  | cons b bs ih => exact ih (wf_write hm)

theorem above_filter {k : Nat} {p : Host.Cell → Bool} {m : List Host.Cell} (hk : above k m) (hm : wf m = true) : above k (m.filter p) := by
  induction m with
  | nil => trivial
  | cons c r ih =>
    obtain ⟨a, b⟩ := c
    obtain ⟨_, ha, hr⟩ := wf_cons.1 hm
    simp only [List.filter]
    split
    · exact hk
    · refine ih ?_ hr
      cases r with
      | nil => trivial
      | cons c r => obtain ⟨c, e⟩ := c; simp only [above] at hk ha ⊢; omega

theorem wf_filter {p : Host.Cell → Bool} {m : List Host.Cell} (hm : wf m = true) : wf (m.filter p) = true := by
  induction m with
  | nil => rfl
  | cons c r ih =>
    obtain ⟨a, b⟩ := c
    obtain ⟨hb, ha, hr⟩ := wf_cons.1 hm
    simp only [List.filter]
    split
    · exact wf_cons.2 ⟨hb, above_filter ha hr, ih hr⟩
    · exact ih hr

/-- Zeroing a range keeps the canonical form. -/
theorem wf_clear {m : List Host.Cell} {lo hi : Nat} (hm : wf m = true) : wf (clear m lo hi) = true := wf_filter hm

theorem wf_writeRegion {failed : BitVec 4} {r : Region} {bs : List Byte} {m : List Host.Cell} {o : Nat} (hm : wf m = true) :
    wf (writeRegion failed r m o bs) = true := by
  induction bs generalizing m o with
  | nil => exact hm
  | cons b bs ih => simp only [writeRegion]; split <;> exact ih (by first | exact hm | exact wf_write hm)

theorem read_above {m : List Host.Cell} {k x : Nat} (hk : above k m) (hx : x ≤ k) (hm : wf m = true) : read m x = 0 := by
  induction m generalizing k with
  | nil => rfl
  | cons c r ih =>
    obtain ⟨a, b⟩ := c
    obtain ⟨_, ha, hr⟩ := wf_cons.1 hm
    simp only [above] at hk
    have : a ≠ x := by omega
    simp only [read, this, if_false]
    exact ih ha (by omega) hr

/-- A read at the address written gives the value, a read elsewhere what it gave. -/
theorem read_write {m : List Host.Cell} {x y : Nat} {v : Byte} (hm : wf m = true) :
    read (write m x v) y = if x = y then v else read m y := by
  induction m with
  | nil => by_cases hv : v = 0#8 <;> by_cases h : x = y <;> simp [write, hv, h, read]
  | cons c r ih =>
    obtain ⟨a, b⟩ := c
    obtain ⟨hb, ha, hr⟩ := wf_cons.1 hm
    have ih := ih hr
    simp only [write]
    split
    · rename_i hxa
      split
      · rename_i hv
        by_cases h : x = y
        · subst h; simp only [if_true, hv]; exact read_above (k := x) (by simp [above, hxa]) (by omega) hm
        · simp [h]
      · by_cases h : x = y <;> simp [read, h]
    · split
      · rename_i _ hxa
        subst hxa
        split
        · rename_i hv
          by_cases h : x = y
          · subst h; simp only [if_true, hv]; exact read_above ha (by omega) hr
          · simp [read, h]
        · by_cases h : x = y <;> simp [read, h]
      · rename_i h1 h2
        simp only [read, ih]
        by_cases h : a = y
        · subst h; have : ¬x = a := h2; simp [this]
        · simp [h]

end Sys2Proof.Machine.Mem
end

