-- ==== Sys2Proof/Laws/State.lean ====
section
/-! SUPPORT. What each updater of the state and each shared operation leaves alone, one rewrite rule per part; and what the updaters
write. -/

namespace Sys2Proof.Machine

variable {s : State}

section
variable {α : Type} {n : Nat}

theorem nth_upd_same {v : Vector α n} {i : Nat} {f : α → α} {d : α} (h : i < n) : nth (upd v i f) i d = f (nth v i d) := by
  simp [nth, upd, h]

theorem nth_upd_ne {v : Vector α n} {i j : Nat} {f : α → α} {d : α} (h : i ≠ j) : nth (upd v i f) j d = nth v j d := by
  unfold nth upd
  split
  · split
    · rw [Vector.getElem_set_ne _ _ h]
    · rfl
  · rfl

theorem nth_map {β : Type} {v : Vector α n} {i : Nat} {f : α → β} {d : α} : nth (v.map f) i (f d) = f (nth v i d) := by
  unfold nth; split <;> simp

end

/-- The `acqs` that `setAcq` writes, and what it leaves. -/
@[simp] theorem setAcq_parts (u : Nat) (f : Acq → Acq) :
    (s.setAcq u f).acqs = upd s.acqs u f ∧
    (s.setAcq u f).pending = s.pending ∧ (s.setAcq u f).free = s.free ∧ (s.setAcq u f).now = s.now ∧ (s.setAcq u f).io = s.io ∧
    (s.setAcq u f).ident = s.ident ∧ (s.setAcq u f).boot = s.boot ∧ (s.setAcq u f).regErr = s.regErr ∧
    (s.setAcq u f).pins = s.pins ∧ (s.setAcq u f).clk = s.clk ∧ (s.setAcq u f).time = s.time ∧ (s.setAcq u f).lanes = s.lanes ∧
    (s.setAcq u f).eye = s.eye ∧ (s.setAcq u f).streams = s.streams ∧ (s.setAcq u f).chans = s.chans ∧
    (s.setAcq u f).created = s.created ∧ (s.setAcq u f).planes = s.planes ∧ (s.setAcq u f).drives = s.drives ∧
    (s.setAcq u f).groups = s.groups ∧ (s.setAcq u f).sweeps = s.sweeps ∧ (s.setAcq u f).mps = s.mps ∧
    (s.setAcq u f).hbm = s.hbm ∧ (s.setAcq u f).regions = s.regions ∧ (s.setAcq u f).integ = s.integ ∧
    (s.setAcq u f).store = s.store ∧ (s.setAcq u f).sinks = s.sinks ∧ (s.setAcq u f).dma = s.dma ∧
    (s.setAcq u f).storeQ = s.storeQ ∧ (s.setAcq u f).pau = s.pau ∧ (s.setAcq u f).pwr = s.pwr ∧ (s.setAcq u f).thim = s.thim ∧
    (s.setAcq u f).pair = s.pair ∧ (s.setAcq u f).sec = s.sec ∧ (s.setAcq u f).flash = s.flash ∧ (s.setAcq u f).mon = s.mon := by
  refine ⟨?_, ?_⟩ <;> simp [State.setAcq]

/-- The `chans` that `setChan` writes, and what it leaves. -/
@[simp] theorem setChan_parts (c : Nat) (f : Chan → Chan) :
    (s.setChan c f).chans = upd s.chans c f ∧
    (s.setChan c f).pending = s.pending ∧ (s.setChan c f).free = s.free ∧ (s.setChan c f).now = s.now ∧
    (s.setChan c f).io = s.io ∧ (s.setChan c f).ident = s.ident ∧ (s.setChan c f).boot = s.boot ∧
    (s.setChan c f).regErr = s.regErr ∧ (s.setChan c f).pins = s.pins ∧ (s.setChan c f).clk = s.clk ∧
    (s.setChan c f).time = s.time ∧ (s.setChan c f).lanes = s.lanes ∧ (s.setChan c f).eye = s.eye ∧
    (s.setChan c f).streams = s.streams ∧ (s.setChan c f).created = s.created ∧ (s.setChan c f).planes = s.planes ∧
    (s.setChan c f).drives = s.drives ∧ (s.setChan c f).groups = s.groups ∧ (s.setChan c f).sweeps = s.sweeps ∧
    (s.setChan c f).acqs = s.acqs ∧ (s.setChan c f).mps = s.mps ∧ (s.setChan c f).hbm = s.hbm ∧
    (s.setChan c f).regions = s.regions ∧ (s.setChan c f).integ = s.integ ∧ (s.setChan c f).store = s.store ∧
    (s.setChan c f).sinks = s.sinks ∧ (s.setChan c f).dma = s.dma ∧ (s.setChan c f).storeQ = s.storeQ ∧
    (s.setChan c f).pau = s.pau ∧ (s.setChan c f).pwr = s.pwr ∧ (s.setChan c f).thim = s.thim ∧ (s.setChan c f).pair = s.pair ∧
    (s.setChan c f).sec = s.sec ∧ (s.setChan c f).flash = s.flash ∧ (s.setChan c f).mon = s.mon := by
  refine ⟨?_, ?_⟩ <;> simp [State.setChan]

/-- The `streams` that `setStream` writes, and what it leaves. -/
@[simp] theorem setStream_parts (i : Nat) (f : Stream → Stream) :
    (s.setStream i f).streams = upd s.streams i f ∧
    (s.setStream i f).pending = s.pending ∧ (s.setStream i f).free = s.free ∧ (s.setStream i f).now = s.now ∧
    (s.setStream i f).io = s.io ∧ (s.setStream i f).ident = s.ident ∧ (s.setStream i f).boot = s.boot ∧
    (s.setStream i f).regErr = s.regErr ∧ (s.setStream i f).pins = s.pins ∧ (s.setStream i f).clk = s.clk ∧
    (s.setStream i f).time = s.time ∧ (s.setStream i f).lanes = s.lanes ∧ (s.setStream i f).eye = s.eye ∧
    (s.setStream i f).chans = s.chans ∧ (s.setStream i f).created = s.created ∧ (s.setStream i f).planes = s.planes ∧
    (s.setStream i f).drives = s.drives ∧ (s.setStream i f).groups = s.groups ∧ (s.setStream i f).sweeps = s.sweeps ∧
    (s.setStream i f).acqs = s.acqs ∧ (s.setStream i f).mps = s.mps ∧ (s.setStream i f).hbm = s.hbm ∧
    (s.setStream i f).regions = s.regions ∧ (s.setStream i f).integ = s.integ ∧ (s.setStream i f).store = s.store ∧
    (s.setStream i f).sinks = s.sinks ∧ (s.setStream i f).dma = s.dma ∧ (s.setStream i f).storeQ = s.storeQ ∧
    (s.setStream i f).pau = s.pau ∧ (s.setStream i f).pwr = s.pwr ∧ (s.setStream i f).thim = s.thim ∧
    (s.setStream i f).pair = s.pair ∧ (s.setStream i f).sec = s.sec ∧ (s.setStream i f).flash = s.flash ∧
    (s.setStream i f).mon = s.mon := by
  refine ⟨?_, ?_⟩ <;> simp [State.setStream]

/-- The `flash` that `setFlash` writes, and what it leaves. -/
@[simp] theorem setFlash_parts (f : Flash → Flash) :
    (s.setFlash f).flash = f s.flash ∧
    (s.setFlash f).pending = s.pending ∧ (s.setFlash f).free = s.free ∧ (s.setFlash f).now = s.now ∧ (s.setFlash f).io = s.io ∧
    (s.setFlash f).ident = s.ident ∧ (s.setFlash f).boot = s.boot ∧ (s.setFlash f).regErr = s.regErr ∧
    (s.setFlash f).pins = s.pins ∧ (s.setFlash f).clk = s.clk ∧ (s.setFlash f).time = s.time ∧ (s.setFlash f).lanes = s.lanes ∧
    (s.setFlash f).eye = s.eye ∧ (s.setFlash f).streams = s.streams ∧ (s.setFlash f).chans = s.chans ∧
    (s.setFlash f).created = s.created ∧ (s.setFlash f).planes = s.planes ∧ (s.setFlash f).drives = s.drives ∧
    (s.setFlash f).groups = s.groups ∧ (s.setFlash f).sweeps = s.sweeps ∧ (s.setFlash f).acqs = s.acqs ∧
    (s.setFlash f).mps = s.mps ∧ (s.setFlash f).hbm = s.hbm ∧ (s.setFlash f).regions = s.regions ∧
    (s.setFlash f).integ = s.integ ∧ (s.setFlash f).store = s.store ∧ (s.setFlash f).sinks = s.sinks ∧
    (s.setFlash f).dma = s.dma ∧ (s.setFlash f).storeQ = s.storeQ ∧ (s.setFlash f).pau = s.pau ∧ (s.setFlash f).pwr = s.pwr ∧
    (s.setFlash f).thim = s.thim ∧ (s.setFlash f).pair = s.pair ∧ (s.setFlash f).sec = s.sec ∧ (s.setFlash f).mon = s.mon := by
  refine ⟨?_, ?_⟩ <;> simp [State.setFlash]

/-- The `drives` that `setDrive` writes, and what it leaves. -/
@[simp] theorem setDrive_parts (d : Nat) (f : Drive → Drive) :
    (s.setDrive d f).drives = upd s.drives d f ∧
    (s.setDrive d f).pending = s.pending ∧ (s.setDrive d f).free = s.free ∧ (s.setDrive d f).now = s.now ∧
    (s.setDrive d f).io = s.io ∧ (s.setDrive d f).ident = s.ident ∧ (s.setDrive d f).boot = s.boot ∧
    (s.setDrive d f).regErr = s.regErr ∧ (s.setDrive d f).pins = s.pins ∧ (s.setDrive d f).clk = s.clk ∧
    (s.setDrive d f).time = s.time ∧ (s.setDrive d f).lanes = s.lanes ∧ (s.setDrive d f).eye = s.eye ∧
    (s.setDrive d f).streams = s.streams ∧ (s.setDrive d f).chans = s.chans ∧ (s.setDrive d f).created = s.created ∧
    (s.setDrive d f).planes = s.planes ∧ (s.setDrive d f).groups = s.groups ∧ (s.setDrive d f).sweeps = s.sweeps ∧
    (s.setDrive d f).acqs = s.acqs ∧ (s.setDrive d f).mps = s.mps ∧ (s.setDrive d f).hbm = s.hbm ∧
    (s.setDrive d f).regions = s.regions ∧ (s.setDrive d f).integ = s.integ ∧ (s.setDrive d f).store = s.store ∧
    (s.setDrive d f).sinks = s.sinks ∧ (s.setDrive d f).dma = s.dma ∧ (s.setDrive d f).storeQ = s.storeQ ∧
    (s.setDrive d f).pau = s.pau ∧ (s.setDrive d f).pwr = s.pwr ∧ (s.setDrive d f).thim = s.thim ∧
    (s.setDrive d f).pair = s.pair ∧ (s.setDrive d f).sec = s.sec ∧ (s.setDrive d f).flash = s.flash ∧
    (s.setDrive d f).mon = s.mon := by
  refine ⟨?_, ?_⟩ <;> simp [State.setDrive]

/-- The `clk` that `setClk` writes, and what it leaves. -/
@[simp] theorem setClk_parts (f : Clk → Clk) :
    (s.setClk f).clk = f s.clk ∧
    (s.setClk f).pending = s.pending ∧ (s.setClk f).free = s.free ∧ (s.setClk f).now = s.now ∧ (s.setClk f).io = s.io ∧
    (s.setClk f).ident = s.ident ∧ (s.setClk f).boot = s.boot ∧ (s.setClk f).regErr = s.regErr ∧ (s.setClk f).pins = s.pins ∧
    (s.setClk f).time = s.time ∧ (s.setClk f).lanes = s.lanes ∧ (s.setClk f).eye = s.eye ∧ (s.setClk f).streams = s.streams ∧
    (s.setClk f).chans = s.chans ∧ (s.setClk f).created = s.created ∧ (s.setClk f).planes = s.planes ∧
    (s.setClk f).drives = s.drives ∧ (s.setClk f).groups = s.groups ∧ (s.setClk f).sweeps = s.sweeps ∧
    (s.setClk f).acqs = s.acqs ∧ (s.setClk f).mps = s.mps ∧ (s.setClk f).hbm = s.hbm ∧ (s.setClk f).regions = s.regions ∧
    (s.setClk f).integ = s.integ ∧ (s.setClk f).store = s.store ∧ (s.setClk f).sinks = s.sinks ∧ (s.setClk f).dma = s.dma ∧
    (s.setClk f).storeQ = s.storeQ ∧ (s.setClk f).pau = s.pau ∧ (s.setClk f).pwr = s.pwr ∧ (s.setClk f).thim = s.thim ∧
    (s.setClk f).pair = s.pair ∧ (s.setClk f).sec = s.sec ∧ (s.setClk f).flash = s.flash ∧ (s.setClk f).mon = s.mon := by
  refine ⟨?_, ?_⟩ <;> simp [State.setClk]

/-- The `sinks` that `setSink` writes, and what it leaves. -/
@[simp] theorem setSink_parts (k : Nat) (f : Sink → Sink) :
    (s.setSink k f).sinks = upd s.sinks k f ∧
    (s.setSink k f).pending = s.pending ∧ (s.setSink k f).free = s.free ∧ (s.setSink k f).now = s.now ∧
    (s.setSink k f).io = s.io ∧ (s.setSink k f).ident = s.ident ∧ (s.setSink k f).boot = s.boot ∧
    (s.setSink k f).regErr = s.regErr ∧ (s.setSink k f).pins = s.pins ∧ (s.setSink k f).clk = s.clk ∧
    (s.setSink k f).time = s.time ∧ (s.setSink k f).lanes = s.lanes ∧ (s.setSink k f).eye = s.eye ∧
    (s.setSink k f).streams = s.streams ∧ (s.setSink k f).chans = s.chans ∧ (s.setSink k f).created = s.created ∧
    (s.setSink k f).planes = s.planes ∧ (s.setSink k f).drives = s.drives ∧ (s.setSink k f).groups = s.groups ∧
    (s.setSink k f).sweeps = s.sweeps ∧ (s.setSink k f).acqs = s.acqs ∧ (s.setSink k f).mps = s.mps ∧
    (s.setSink k f).hbm = s.hbm ∧ (s.setSink k f).regions = s.regions ∧ (s.setSink k f).integ = s.integ ∧
    (s.setSink k f).store = s.store ∧ (s.setSink k f).dma = s.dma ∧ (s.setSink k f).storeQ = s.storeQ ∧
    (s.setSink k f).pau = s.pau ∧ (s.setSink k f).pwr = s.pwr ∧ (s.setSink k f).thim = s.thim ∧ (s.setSink k f).pair = s.pair ∧
    (s.setSink k f).sec = s.sec ∧ (s.setSink k f).flash = s.flash ∧ (s.setSink k f).mon = s.mon := by
  refine ⟨?_, ?_⟩ <;> simp [State.setSink]

/-- The `planes` that `setPlane` writes, and what it leaves. -/
@[simp] theorem setPlane_parts (p : Nat) (f : Plane → Plane) :
    (s.setPlane p f).planes = upd s.planes p f ∧
    (s.setPlane p f).pending = s.pending ∧ (s.setPlane p f).free = s.free ∧ (s.setPlane p f).now = s.now ∧
    (s.setPlane p f).io = s.io ∧ (s.setPlane p f).ident = s.ident ∧ (s.setPlane p f).boot = s.boot ∧
    (s.setPlane p f).regErr = s.regErr ∧ (s.setPlane p f).pins = s.pins ∧ (s.setPlane p f).clk = s.clk ∧
    (s.setPlane p f).time = s.time ∧ (s.setPlane p f).lanes = s.lanes ∧ (s.setPlane p f).eye = s.eye ∧
    (s.setPlane p f).streams = s.streams ∧ (s.setPlane p f).chans = s.chans ∧ (s.setPlane p f).created = s.created ∧
    (s.setPlane p f).drives = s.drives ∧ (s.setPlane p f).groups = s.groups ∧ (s.setPlane p f).sweeps = s.sweeps ∧
    (s.setPlane p f).acqs = s.acqs ∧ (s.setPlane p f).mps = s.mps ∧ (s.setPlane p f).hbm = s.hbm ∧
    (s.setPlane p f).regions = s.regions ∧ (s.setPlane p f).integ = s.integ ∧ (s.setPlane p f).store = s.store ∧
    (s.setPlane p f).sinks = s.sinks ∧ (s.setPlane p f).dma = s.dma ∧ (s.setPlane p f).storeQ = s.storeQ ∧
    (s.setPlane p f).pau = s.pau ∧ (s.setPlane p f).pwr = s.pwr ∧ (s.setPlane p f).thim = s.thim ∧
    (s.setPlane p f).pair = s.pair ∧ (s.setPlane p f).sec = s.sec ∧ (s.setPlane p f).flash = s.flash ∧
    (s.setPlane p f).mon = s.mon := by
  refine ⟨?_, ?_⟩ <;> simp [State.setPlane]

/-- The `hbm` that `setHbm` writes, and what it leaves. -/
@[simp] theorem setHbm_parts (f : Hbm → Hbm) :
    (s.setHbm f).hbm = f s.hbm ∧
    (s.setHbm f).pending = s.pending ∧ (s.setHbm f).free = s.free ∧ (s.setHbm f).now = s.now ∧ (s.setHbm f).io = s.io ∧
    (s.setHbm f).ident = s.ident ∧ (s.setHbm f).boot = s.boot ∧ (s.setHbm f).regErr = s.regErr ∧ (s.setHbm f).pins = s.pins ∧
    (s.setHbm f).clk = s.clk ∧ (s.setHbm f).time = s.time ∧ (s.setHbm f).lanes = s.lanes ∧ (s.setHbm f).eye = s.eye ∧
    (s.setHbm f).streams = s.streams ∧ (s.setHbm f).chans = s.chans ∧ (s.setHbm f).created = s.created ∧
    (s.setHbm f).planes = s.planes ∧ (s.setHbm f).drives = s.drives ∧ (s.setHbm f).groups = s.groups ∧
    (s.setHbm f).sweeps = s.sweeps ∧ (s.setHbm f).acqs = s.acqs ∧ (s.setHbm f).mps = s.mps ∧ (s.setHbm f).regions = s.regions ∧
    (s.setHbm f).integ = s.integ ∧ (s.setHbm f).store = s.store ∧ (s.setHbm f).sinks = s.sinks ∧ (s.setHbm f).dma = s.dma ∧
    (s.setHbm f).storeQ = s.storeQ ∧ (s.setHbm f).pau = s.pau ∧ (s.setHbm f).pwr = s.pwr ∧ (s.setHbm f).thim = s.thim ∧
    (s.setHbm f).pair = s.pair ∧ (s.setHbm f).sec = s.sec ∧ (s.setHbm f).flash = s.flash ∧ (s.setHbm f).mon = s.mon := by
  refine ⟨?_, ?_⟩ <;> simp [State.setHbm]

/-- The `integ` that `setInteg` writes, and what it leaves. -/
@[simp] theorem setInteg_parts (f : Integ → Integ) :
    (s.setInteg f).integ = f s.integ ∧
    (s.setInteg f).pending = s.pending ∧ (s.setInteg f).free = s.free ∧ (s.setInteg f).now = s.now ∧ (s.setInteg f).io = s.io ∧
    (s.setInteg f).ident = s.ident ∧ (s.setInteg f).boot = s.boot ∧ (s.setInteg f).regErr = s.regErr ∧
    (s.setInteg f).pins = s.pins ∧ (s.setInteg f).clk = s.clk ∧ (s.setInteg f).time = s.time ∧ (s.setInteg f).lanes = s.lanes ∧
    (s.setInteg f).eye = s.eye ∧ (s.setInteg f).streams = s.streams ∧ (s.setInteg f).chans = s.chans ∧
    (s.setInteg f).created = s.created ∧ (s.setInteg f).planes = s.planes ∧ (s.setInteg f).drives = s.drives ∧
    (s.setInteg f).groups = s.groups ∧ (s.setInteg f).sweeps = s.sweeps ∧ (s.setInteg f).acqs = s.acqs ∧
    (s.setInteg f).mps = s.mps ∧ (s.setInteg f).hbm = s.hbm ∧ (s.setInteg f).regions = s.regions ∧
    (s.setInteg f).store = s.store ∧ (s.setInteg f).sinks = s.sinks ∧ (s.setInteg f).dma = s.dma ∧
    (s.setInteg f).storeQ = s.storeQ ∧ (s.setInteg f).pau = s.pau ∧ (s.setInteg f).pwr = s.pwr ∧ (s.setInteg f).thim = s.thim ∧
    (s.setInteg f).pair = s.pair ∧ (s.setInteg f).sec = s.sec ∧ (s.setInteg f).flash = s.flash ∧ (s.setInteg f).mon = s.mon := by
  refine ⟨?_, ?_⟩ <;> simp [State.setInteg]

/-- The `mps` that `setMp` writes, and what it leaves. -/
@[simp] theorem setMp_parts (c : Nat) (f : Mp → Mp) :
    (s.setMp c f).mps = upd s.mps c f ∧
    (s.setMp c f).pending = s.pending ∧ (s.setMp c f).free = s.free ∧ (s.setMp c f).now = s.now ∧ (s.setMp c f).io = s.io ∧
    (s.setMp c f).ident = s.ident ∧ (s.setMp c f).boot = s.boot ∧ (s.setMp c f).regErr = s.regErr ∧ (s.setMp c f).pins = s.pins ∧
    (s.setMp c f).clk = s.clk ∧ (s.setMp c f).time = s.time ∧ (s.setMp c f).lanes = s.lanes ∧ (s.setMp c f).eye = s.eye ∧
    (s.setMp c f).streams = s.streams ∧ (s.setMp c f).chans = s.chans ∧ (s.setMp c f).created = s.created ∧
    (s.setMp c f).planes = s.planes ∧ (s.setMp c f).drives = s.drives ∧ (s.setMp c f).groups = s.groups ∧
    (s.setMp c f).sweeps = s.sweeps ∧ (s.setMp c f).acqs = s.acqs ∧ (s.setMp c f).hbm = s.hbm ∧
    (s.setMp c f).regions = s.regions ∧ (s.setMp c f).integ = s.integ ∧ (s.setMp c f).store = s.store ∧
    (s.setMp c f).sinks = s.sinks ∧ (s.setMp c f).dma = s.dma ∧ (s.setMp c f).storeQ = s.storeQ ∧ (s.setMp c f).pau = s.pau ∧
    (s.setMp c f).pwr = s.pwr ∧ (s.setMp c f).thim = s.thim ∧ (s.setMp c f).pair = s.pair ∧ (s.setMp c f).sec = s.sec ∧
    (s.setMp c f).flash = s.flash ∧ (s.setMp c f).mon = s.mon := by
  refine ⟨?_, ?_⟩ <;> simp [State.setMp]

/-- The `pair` that `setPair` writes, and what it leaves. -/
@[simp] theorem setPair_parts (f : Pair → Pair) :
    (s.setPair f).pair = f s.pair ∧
    (s.setPair f).pending = s.pending ∧ (s.setPair f).free = s.free ∧ (s.setPair f).now = s.now ∧ (s.setPair f).io = s.io ∧
    (s.setPair f).ident = s.ident ∧ (s.setPair f).boot = s.boot ∧ (s.setPair f).regErr = s.regErr ∧ (s.setPair f).pins = s.pins ∧
    (s.setPair f).clk = s.clk ∧ (s.setPair f).time = s.time ∧ (s.setPair f).lanes = s.lanes ∧ (s.setPair f).eye = s.eye ∧
    (s.setPair f).streams = s.streams ∧ (s.setPair f).chans = s.chans ∧ (s.setPair f).created = s.created ∧
    (s.setPair f).planes = s.planes ∧ (s.setPair f).drives = s.drives ∧ (s.setPair f).groups = s.groups ∧
    (s.setPair f).sweeps = s.sweeps ∧ (s.setPair f).acqs = s.acqs ∧ (s.setPair f).mps = s.mps ∧ (s.setPair f).hbm = s.hbm ∧
    (s.setPair f).regions = s.regions ∧ (s.setPair f).integ = s.integ ∧ (s.setPair f).store = s.store ∧
    (s.setPair f).sinks = s.sinks ∧ (s.setPair f).dma = s.dma ∧ (s.setPair f).storeQ = s.storeQ ∧ (s.setPair f).pau = s.pau ∧
    (s.setPair f).pwr = s.pwr ∧ (s.setPair f).thim = s.thim ∧ (s.setPair f).sec = s.sec ∧ (s.setPair f).flash = s.flash ∧
    (s.setPair f).mon = s.mon := by
  refine ⟨?_, ?_⟩ <;> simp [State.setPair]

/-- The `pair` that `setMirror` writes, and what it leaves. -/
@[simp] theorem setMirror_parts (f : Mirror → Mirror) :
    (s.setMirror f).pair = { s.pair with mirror := f s.pair.mirror } ∧
    (s.setMirror f).pending = s.pending ∧ (s.setMirror f).free = s.free ∧ (s.setMirror f).now = s.now ∧
    (s.setMirror f).io = s.io ∧ (s.setMirror f).ident = s.ident ∧ (s.setMirror f).boot = s.boot ∧
    (s.setMirror f).regErr = s.regErr ∧ (s.setMirror f).pins = s.pins ∧ (s.setMirror f).clk = s.clk ∧
    (s.setMirror f).time = s.time ∧ (s.setMirror f).lanes = s.lanes ∧ (s.setMirror f).eye = s.eye ∧
    (s.setMirror f).streams = s.streams ∧ (s.setMirror f).chans = s.chans ∧ (s.setMirror f).created = s.created ∧
    (s.setMirror f).planes = s.planes ∧ (s.setMirror f).drives = s.drives ∧ (s.setMirror f).groups = s.groups ∧
    (s.setMirror f).sweeps = s.sweeps ∧ (s.setMirror f).acqs = s.acqs ∧ (s.setMirror f).mps = s.mps ∧
    (s.setMirror f).hbm = s.hbm ∧ (s.setMirror f).regions = s.regions ∧ (s.setMirror f).integ = s.integ ∧
    (s.setMirror f).store = s.store ∧ (s.setMirror f).sinks = s.sinks ∧ (s.setMirror f).dma = s.dma ∧
    (s.setMirror f).storeQ = s.storeQ ∧ (s.setMirror f).pau = s.pau ∧ (s.setMirror f).pwr = s.pwr ∧
    (s.setMirror f).thim = s.thim ∧ (s.setMirror f).sec = s.sec ∧ (s.setMirror f).flash = s.flash ∧ (s.setMirror f).mon = s.mon := by
  refine ⟨?_, ?_⟩ <;> simp [State.setMirror, State.setPair]

/-- The `sec` that `setSec` writes, and what it leaves. -/
@[simp] theorem setSec_parts (f : Sec → Sec) :
    (s.setSec f).sec = f s.sec ∧
    (s.setSec f).pending = s.pending ∧ (s.setSec f).free = s.free ∧ (s.setSec f).now = s.now ∧ (s.setSec f).io = s.io ∧
    (s.setSec f).ident = s.ident ∧ (s.setSec f).boot = s.boot ∧ (s.setSec f).regErr = s.regErr ∧ (s.setSec f).pins = s.pins ∧
    (s.setSec f).clk = s.clk ∧ (s.setSec f).time = s.time ∧ (s.setSec f).lanes = s.lanes ∧ (s.setSec f).eye = s.eye ∧
    (s.setSec f).streams = s.streams ∧ (s.setSec f).chans = s.chans ∧ (s.setSec f).created = s.created ∧
    (s.setSec f).planes = s.planes ∧ (s.setSec f).drives = s.drives ∧ (s.setSec f).groups = s.groups ∧
    (s.setSec f).sweeps = s.sweeps ∧ (s.setSec f).acqs = s.acqs ∧ (s.setSec f).mps = s.mps ∧ (s.setSec f).hbm = s.hbm ∧
    (s.setSec f).regions = s.regions ∧ (s.setSec f).integ = s.integ ∧ (s.setSec f).store = s.store ∧
    (s.setSec f).sinks = s.sinks ∧ (s.setSec f).dma = s.dma ∧ (s.setSec f).storeQ = s.storeQ ∧ (s.setSec f).pau = s.pau ∧
    (s.setSec f).pwr = s.pwr ∧ (s.setSec f).thim = s.thim ∧ (s.setSec f).pair = s.pair ∧ (s.setSec f).flash = s.flash ∧
    (s.setSec f).mon = s.mon := by
  refine ⟨?_, ?_⟩ <;> simp [State.setSec]

/-- The `storeQ` that `setQueue` writes, and what it leaves. -/
@[simp] theorem setQueue_parts (q : Nat) (f : StoreQ → StoreQ) :
    (s.setQueue q f).storeQ = upd s.storeQ q f ∧
    (s.setQueue q f).pending = s.pending ∧ (s.setQueue q f).free = s.free ∧ (s.setQueue q f).now = s.now ∧
    (s.setQueue q f).io = s.io ∧ (s.setQueue q f).ident = s.ident ∧ (s.setQueue q f).boot = s.boot ∧
    (s.setQueue q f).regErr = s.regErr ∧ (s.setQueue q f).pins = s.pins ∧ (s.setQueue q f).clk = s.clk ∧
    (s.setQueue q f).time = s.time ∧ (s.setQueue q f).lanes = s.lanes ∧ (s.setQueue q f).eye = s.eye ∧
    (s.setQueue q f).streams = s.streams ∧ (s.setQueue q f).chans = s.chans ∧ (s.setQueue q f).created = s.created ∧
    (s.setQueue q f).planes = s.planes ∧ (s.setQueue q f).drives = s.drives ∧ (s.setQueue q f).groups = s.groups ∧
    (s.setQueue q f).sweeps = s.sweeps ∧ (s.setQueue q f).acqs = s.acqs ∧ (s.setQueue q f).mps = s.mps ∧
    (s.setQueue q f).hbm = s.hbm ∧ (s.setQueue q f).regions = s.regions ∧ (s.setQueue q f).integ = s.integ ∧
    (s.setQueue q f).store = s.store ∧ (s.setQueue q f).sinks = s.sinks ∧ (s.setQueue q f).dma = s.dma ∧
    (s.setQueue q f).pau = s.pau ∧ (s.setQueue q f).pwr = s.pwr ∧ (s.setQueue q f).thim = s.thim ∧
    (s.setQueue q f).pair = s.pair ∧ (s.setQueue q f).sec = s.sec ∧ (s.setQueue q f).flash = s.flash ∧
    (s.setQueue q f).mon = s.mon := by
  refine ⟨?_, ?_⟩ <;> simp [State.setQueue]

/-- The `lanes` that `setLane` writes, and what it leaves. -/
@[simp] theorem setLane_parts (l : Nat) (f : Lane → Lane) :
    (s.setLane l f).lanes = upd s.lanes l f ∧
    (s.setLane l f).pending = s.pending ∧ (s.setLane l f).free = s.free ∧ (s.setLane l f).now = s.now ∧
    (s.setLane l f).io = s.io ∧ (s.setLane l f).ident = s.ident ∧ (s.setLane l f).boot = s.boot ∧
    (s.setLane l f).regErr = s.regErr ∧ (s.setLane l f).pins = s.pins ∧ (s.setLane l f).clk = s.clk ∧
    (s.setLane l f).time = s.time ∧ (s.setLane l f).eye = s.eye ∧ (s.setLane l f).streams = s.streams ∧
    (s.setLane l f).chans = s.chans ∧ (s.setLane l f).created = s.created ∧ (s.setLane l f).planes = s.planes ∧
    (s.setLane l f).drives = s.drives ∧ (s.setLane l f).groups = s.groups ∧ (s.setLane l f).sweeps = s.sweeps ∧
    (s.setLane l f).acqs = s.acqs ∧ (s.setLane l f).mps = s.mps ∧ (s.setLane l f).hbm = s.hbm ∧
    (s.setLane l f).regions = s.regions ∧ (s.setLane l f).integ = s.integ ∧ (s.setLane l f).store = s.store ∧
    (s.setLane l f).sinks = s.sinks ∧ (s.setLane l f).dma = s.dma ∧ (s.setLane l f).storeQ = s.storeQ ∧
    (s.setLane l f).pau = s.pau ∧ (s.setLane l f).pwr = s.pwr ∧ (s.setLane l f).thim = s.thim ∧ (s.setLane l f).pair = s.pair ∧
    (s.setLane l f).sec = s.sec ∧ (s.setLane l f).flash = s.flash ∧ (s.setLane l f).mon = s.mon := by
  refine ⟨?_, ?_⟩ <;> simp [State.setLane]

/-- The `sweeps` that `setSweep` writes, and what it leaves. -/
@[simp] theorem setSweep_parts (u : Nat) (f : Sweep → Sweep) :
    (s.setSweep u f).sweeps = upd s.sweeps u f ∧
    (s.setSweep u f).pending = s.pending ∧ (s.setSweep u f).free = s.free ∧ (s.setSweep u f).now = s.now ∧
    (s.setSweep u f).io = s.io ∧ (s.setSweep u f).ident = s.ident ∧ (s.setSweep u f).boot = s.boot ∧
    (s.setSweep u f).regErr = s.regErr ∧ (s.setSweep u f).pins = s.pins ∧ (s.setSweep u f).clk = s.clk ∧
    (s.setSweep u f).time = s.time ∧ (s.setSweep u f).lanes = s.lanes ∧ (s.setSweep u f).eye = s.eye ∧
    (s.setSweep u f).streams = s.streams ∧ (s.setSweep u f).chans = s.chans ∧ (s.setSweep u f).created = s.created ∧
    (s.setSweep u f).planes = s.planes ∧ (s.setSweep u f).drives = s.drives ∧ (s.setSweep u f).groups = s.groups ∧
    (s.setSweep u f).acqs = s.acqs ∧ (s.setSweep u f).mps = s.mps ∧ (s.setSweep u f).hbm = s.hbm ∧
    (s.setSweep u f).regions = s.regions ∧ (s.setSweep u f).integ = s.integ ∧ (s.setSweep u f).store = s.store ∧
    (s.setSweep u f).sinks = s.sinks ∧ (s.setSweep u f).dma = s.dma ∧ (s.setSweep u f).storeQ = s.storeQ ∧
    (s.setSweep u f).pau = s.pau ∧ (s.setSweep u f).pwr = s.pwr ∧ (s.setSweep u f).thim = s.thim ∧
    (s.setSweep u f).pair = s.pair ∧ (s.setSweep u f).sec = s.sec ∧ (s.setSweep u f).flash = s.flash ∧
    (s.setSweep u f).mon = s.mon := by
  refine ⟨?_, ?_⟩ <;> simp [State.setSweep]

/-- The `thim` that `setThim` writes, and what it leaves. -/
@[simp] theorem setThim_parts (f : Thim → Thim) :
    (s.setThim f).thim = f s.thim ∧
    (s.setThim f).pending = s.pending ∧ (s.setThim f).free = s.free ∧ (s.setThim f).now = s.now ∧ (s.setThim f).io = s.io ∧
    (s.setThim f).ident = s.ident ∧ (s.setThim f).boot = s.boot ∧ (s.setThim f).regErr = s.regErr ∧ (s.setThim f).pins = s.pins ∧
    (s.setThim f).clk = s.clk ∧ (s.setThim f).time = s.time ∧ (s.setThim f).lanes = s.lanes ∧ (s.setThim f).eye = s.eye ∧
    (s.setThim f).streams = s.streams ∧ (s.setThim f).chans = s.chans ∧ (s.setThim f).created = s.created ∧
    (s.setThim f).planes = s.planes ∧ (s.setThim f).drives = s.drives ∧ (s.setThim f).groups = s.groups ∧
    (s.setThim f).sweeps = s.sweeps ∧ (s.setThim f).acqs = s.acqs ∧ (s.setThim f).mps = s.mps ∧ (s.setThim f).hbm = s.hbm ∧
    (s.setThim f).regions = s.regions ∧ (s.setThim f).integ = s.integ ∧ (s.setThim f).store = s.store ∧
    (s.setThim f).sinks = s.sinks ∧ (s.setThim f).dma = s.dma ∧ (s.setThim f).storeQ = s.storeQ ∧ (s.setThim f).pau = s.pau ∧
    (s.setThim f).pwr = s.pwr ∧ (s.setThim f).pair = s.pair ∧ (s.setThim f).sec = s.sec ∧ (s.setThim f).flash = s.flash ∧
    (s.setThim f).mon = s.mon := by
  refine ⟨?_, ?_⟩ <;> simp [State.setThim]

/-- The `sec` that `setSession` writes, and what it leaves. -/
@[simp] theorem setSession_parts (k : Nat) (f : Session → Session) :
    (s.setSession k f).sec = { s.sec with sessions := upd s.sec.sessions k f } ∧
    (s.setSession k f).pending = s.pending ∧ (s.setSession k f).free = s.free ∧ (s.setSession k f).now = s.now ∧
    (s.setSession k f).io = s.io ∧ (s.setSession k f).ident = s.ident ∧ (s.setSession k f).boot = s.boot ∧
    (s.setSession k f).regErr = s.regErr ∧ (s.setSession k f).pins = s.pins ∧ (s.setSession k f).clk = s.clk ∧
    (s.setSession k f).time = s.time ∧ (s.setSession k f).lanes = s.lanes ∧ (s.setSession k f).eye = s.eye ∧
    (s.setSession k f).streams = s.streams ∧ (s.setSession k f).chans = s.chans ∧ (s.setSession k f).created = s.created ∧
    (s.setSession k f).planes = s.planes ∧ (s.setSession k f).drives = s.drives ∧ (s.setSession k f).groups = s.groups ∧
    (s.setSession k f).sweeps = s.sweeps ∧ (s.setSession k f).acqs = s.acqs ∧ (s.setSession k f).mps = s.mps ∧
    (s.setSession k f).hbm = s.hbm ∧ (s.setSession k f).regions = s.regions ∧ (s.setSession k f).integ = s.integ ∧
    (s.setSession k f).store = s.store ∧ (s.setSession k f).sinks = s.sinks ∧ (s.setSession k f).dma = s.dma ∧
    (s.setSession k f).storeQ = s.storeQ ∧ (s.setSession k f).pau = s.pau ∧ (s.setSession k f).pwr = s.pwr ∧
    (s.setSession k f).thim = s.thim ∧ (s.setSession k f).pair = s.pair ∧ (s.setSession k f).flash = s.flash ∧
    (s.setSession k f).mon = s.mon := by
  refine ⟨?_, ?_⟩ <;> simp [State.setSession]

/-- The `io` that `emit` writes, and what it leaves. -/
@[simp] theorem emit_parts (e : Emission) :
    (s.emit e).io = s.io.emit e ∧
    (s.emit e).pending = s.pending ∧ (s.emit e).free = s.free ∧ (s.emit e).now = s.now ∧ (s.emit e).ident = s.ident ∧
    (s.emit e).boot = s.boot ∧ (s.emit e).regErr = s.regErr ∧ (s.emit e).pins = s.pins ∧ (s.emit e).clk = s.clk ∧
    (s.emit e).time = s.time ∧ (s.emit e).lanes = s.lanes ∧ (s.emit e).eye = s.eye ∧ (s.emit e).streams = s.streams ∧
    (s.emit e).chans = s.chans ∧ (s.emit e).created = s.created ∧ (s.emit e).planes = s.planes ∧ (s.emit e).drives = s.drives ∧
    (s.emit e).groups = s.groups ∧ (s.emit e).sweeps = s.sweeps ∧ (s.emit e).acqs = s.acqs ∧ (s.emit e).mps = s.mps ∧
    (s.emit e).hbm = s.hbm ∧ (s.emit e).regions = s.regions ∧ (s.emit e).integ = s.integ ∧ (s.emit e).store = s.store ∧
    (s.emit e).sinks = s.sinks ∧ (s.emit e).dma = s.dma ∧ (s.emit e).storeQ = s.storeQ ∧ (s.emit e).pau = s.pau ∧
    (s.emit e).pwr = s.pwr ∧ (s.emit e).thim = s.thim ∧ (s.emit e).pair = s.pair ∧ (s.emit e).sec = s.sec ∧
    (s.emit e).flash = s.flash ∧ (s.emit e).mon = s.mon := by
  refine ⟨?_, ?_⟩ <;> simp [State.emit, Io.emit]

theorem raise_shape (code cls sev : Nat) (h : Handle) (t : BitVec 64) (l : List (Nat × Nat)) : ∃ xio, s.raise code cls sev h t l = { s with io := xio } := by
  unfold State.raise; split <;> exact ⟨_, rfl⟩

/-- An event changes the control path only. -/
@[simp] theorem raise_parts (code cls sev : Nat) (h : Handle) (t : BitVec 64) (l : List (Nat × Nat)) :
    (s.raise code cls sev h t l).pending = s.pending ∧ (s.raise code cls sev h t l).free = s.free ∧
    (s.raise code cls sev h t l).now = s.now ∧ (s.raise code cls sev h t l).ident = s.ident ∧
    (s.raise code cls sev h t l).boot = s.boot ∧ (s.raise code cls sev h t l).regErr = s.regErr ∧
    (s.raise code cls sev h t l).pins = s.pins ∧ (s.raise code cls sev h t l).clk = s.clk ∧
    (s.raise code cls sev h t l).time = s.time ∧ (s.raise code cls sev h t l).lanes = s.lanes ∧
    (s.raise code cls sev h t l).eye = s.eye ∧ (s.raise code cls sev h t l).streams = s.streams ∧
    (s.raise code cls sev h t l).chans = s.chans ∧ (s.raise code cls sev h t l).created = s.created ∧
    (s.raise code cls sev h t l).planes = s.planes ∧ (s.raise code cls sev h t l).drives = s.drives ∧
    (s.raise code cls sev h t l).groups = s.groups ∧ (s.raise code cls sev h t l).sweeps = s.sweeps ∧
    (s.raise code cls sev h t l).acqs = s.acqs ∧ (s.raise code cls sev h t l).mps = s.mps ∧
    (s.raise code cls sev h t l).hbm = s.hbm ∧ (s.raise code cls sev h t l).regions = s.regions ∧
    (s.raise code cls sev h t l).integ = s.integ ∧ (s.raise code cls sev h t l).store = s.store ∧
    (s.raise code cls sev h t l).sinks = s.sinks ∧ (s.raise code cls sev h t l).dma = s.dma ∧
    (s.raise code cls sev h t l).storeQ = s.storeQ ∧ (s.raise code cls sev h t l).pau = s.pau ∧
    (s.raise code cls sev h t l).pwr = s.pwr ∧ (s.raise code cls sev h t l).thim = s.thim ∧
    (s.raise code cls sev h t l).pair = s.pair ∧ (s.raise code cls sev h t l).sec = s.sec ∧
    (s.raise code cls sev h t l).flash = s.flash ∧ (s.raise code cls sev h t l).mon = s.mon := by
  obtain ⟨xio, h⟩ := @raise_shape s code cls sev h t l
  rw [h]; simp

theorem event_shape (code cls sev : Nat) (h : Handle) (l : List (Nat × Nat)) : ∃ xio, s.event code cls sev h l = { s with io := xio } := by
  exact raise_shape ..

/-- An event changes the control path only. -/
@[simp] theorem event_parts (code cls sev : Nat) (h : Handle) (l : List (Nat × Nat)) :
    (s.event code cls sev h l).pending = s.pending ∧ (s.event code cls sev h l).free = s.free ∧
    (s.event code cls sev h l).now = s.now ∧ (s.event code cls sev h l).ident = s.ident ∧
    (s.event code cls sev h l).boot = s.boot ∧ (s.event code cls sev h l).regErr = s.regErr ∧
    (s.event code cls sev h l).pins = s.pins ∧ (s.event code cls sev h l).clk = s.clk ∧ (s.event code cls sev h l).time = s.time ∧
    (s.event code cls sev h l).lanes = s.lanes ∧ (s.event code cls sev h l).eye = s.eye ∧
    (s.event code cls sev h l).streams = s.streams ∧ (s.event code cls sev h l).chans = s.chans ∧
    (s.event code cls sev h l).created = s.created ∧ (s.event code cls sev h l).planes = s.planes ∧
    (s.event code cls sev h l).drives = s.drives ∧ (s.event code cls sev h l).groups = s.groups ∧
    (s.event code cls sev h l).sweeps = s.sweeps ∧ (s.event code cls sev h l).acqs = s.acqs ∧
    (s.event code cls sev h l).mps = s.mps ∧ (s.event code cls sev h l).hbm = s.hbm ∧
    (s.event code cls sev h l).regions = s.regions ∧ (s.event code cls sev h l).integ = s.integ ∧
    (s.event code cls sev h l).store = s.store ∧ (s.event code cls sev h l).sinks = s.sinks ∧
    (s.event code cls sev h l).dma = s.dma ∧ (s.event code cls sev h l).storeQ = s.storeQ ∧
    (s.event code cls sev h l).pau = s.pau ∧ (s.event code cls sev h l).pwr = s.pwr ∧ (s.event code cls sev h l).thim = s.thim ∧
    (s.event code cls sev h l).pair = s.pair ∧ (s.event code cls sev h l).sec = s.sec ∧
    (s.event code cls sev h l).flash = s.flash ∧ (s.event code cls sev h l).mon = s.mon := by
  obtain ⟨xio, h⟩ := @event_shape s code cls sev h l
  rw [h]; simp

theorem note_shape (e : Ev) (h : Handle) (l : List (Nat × Nat)) : ∃ xio, s.note e h l = { s with io := xio } := by
  exact event_shape ..

/-- An event changes the control path only. -/
@[simp] theorem note_parts (e : Ev) (h : Handle) (l : List (Nat × Nat)) :
    (s.note e h l).pending = s.pending ∧ (s.note e h l).free = s.free ∧ (s.note e h l).now = s.now ∧
    (s.note e h l).ident = s.ident ∧ (s.note e h l).boot = s.boot ∧ (s.note e h l).regErr = s.regErr ∧
    (s.note e h l).pins = s.pins ∧ (s.note e h l).clk = s.clk ∧ (s.note e h l).time = s.time ∧ (s.note e h l).lanes = s.lanes ∧
    (s.note e h l).eye = s.eye ∧ (s.note e h l).streams = s.streams ∧ (s.note e h l).chans = s.chans ∧
    (s.note e h l).created = s.created ∧ (s.note e h l).planes = s.planes ∧ (s.note e h l).drives = s.drives ∧
    (s.note e h l).groups = s.groups ∧ (s.note e h l).sweeps = s.sweeps ∧ (s.note e h l).acqs = s.acqs ∧
    (s.note e h l).mps = s.mps ∧ (s.note e h l).hbm = s.hbm ∧ (s.note e h l).regions = s.regions ∧
    (s.note e h l).integ = s.integ ∧ (s.note e h l).store = s.store ∧ (s.note e h l).sinks = s.sinks ∧
    (s.note e h l).dma = s.dma ∧ (s.note e h l).storeQ = s.storeQ ∧ (s.note e h l).pau = s.pau ∧ (s.note e h l).pwr = s.pwr ∧
    (s.note e h l).thim = s.thim ∧ (s.note e h l).pair = s.pair ∧ (s.note e h l).sec = s.sec ∧ (s.note e h l).flash = s.flash ∧
    (s.note e h l).mon = s.mon := by
  obtain ⟨xio, h⟩ := @note_shape s e h l
  rw [h]; simp

theorem noteAt_shape (e : Ev) (h : Handle) (tb : Nat) (l : List (Nat × Nat)) : ∃ xio, s.noteAt e h tb l = { s with io := xio } := by
  exact raise_shape ..

/-- An event changes the control path only. -/
@[simp] theorem noteAt_parts (e : Ev) (h : Handle) (tb : Nat) (l : List (Nat × Nat)) :
    (s.noteAt e h tb l).pending = s.pending ∧ (s.noteAt e h tb l).free = s.free ∧ (s.noteAt e h tb l).now = s.now ∧
    (s.noteAt e h tb l).ident = s.ident ∧ (s.noteAt e h tb l).boot = s.boot ∧ (s.noteAt e h tb l).regErr = s.regErr ∧
    (s.noteAt e h tb l).pins = s.pins ∧ (s.noteAt e h tb l).clk = s.clk ∧ (s.noteAt e h tb l).time = s.time ∧
    (s.noteAt e h tb l).lanes = s.lanes ∧ (s.noteAt e h tb l).eye = s.eye ∧ (s.noteAt e h tb l).streams = s.streams ∧
    (s.noteAt e h tb l).chans = s.chans ∧ (s.noteAt e h tb l).created = s.created ∧ (s.noteAt e h tb l).planes = s.planes ∧
    (s.noteAt e h tb l).drives = s.drives ∧ (s.noteAt e h tb l).groups = s.groups ∧ (s.noteAt e h tb l).sweeps = s.sweeps ∧
    (s.noteAt e h tb l).acqs = s.acqs ∧ (s.noteAt e h tb l).mps = s.mps ∧ (s.noteAt e h tb l).hbm = s.hbm ∧
    (s.noteAt e h tb l).regions = s.regions ∧ (s.noteAt e h tb l).integ = s.integ ∧ (s.noteAt e h tb l).store = s.store ∧
    (s.noteAt e h tb l).sinks = s.sinks ∧ (s.noteAt e h tb l).dma = s.dma ∧ (s.noteAt e h tb l).storeQ = s.storeQ ∧
    (s.noteAt e h tb l).pau = s.pau ∧ (s.noteAt e h tb l).pwr = s.pwr ∧ (s.noteAt e h tb l).thim = s.thim ∧
    (s.noteAt e h tb l).pair = s.pair ∧ (s.noteAt e h tb l).sec = s.sec ∧ (s.noteAt e h tb l).flash = s.flash ∧
    (s.noteAt e h tb l).mon = s.mon := by
  obtain ⟨xio, h⟩ := @noteAt_shape s e h tb l
  rw [h]; simp

theorem setInflight_shape (r : Nat) (f : Option Inflight → Option Inflight) : ∃ xio, s.setInflight r f = { s with io := xio } := by
  exact ⟨_, rfl⟩

/-- A command's progress is in the control path. -/
@[simp] theorem setInflight_parts (r : Nat) (f : Option Inflight → Option Inflight) :
    (s.setInflight r f).pending = s.pending ∧ (s.setInflight r f).free = s.free ∧ (s.setInflight r f).now = s.now ∧
    (s.setInflight r f).ident = s.ident ∧ (s.setInflight r f).boot = s.boot ∧ (s.setInflight r f).regErr = s.regErr ∧
    (s.setInflight r f).pins = s.pins ∧ (s.setInflight r f).clk = s.clk ∧ (s.setInflight r f).time = s.time ∧
    (s.setInflight r f).lanes = s.lanes ∧ (s.setInflight r f).eye = s.eye ∧ (s.setInflight r f).streams = s.streams ∧
    (s.setInflight r f).chans = s.chans ∧ (s.setInflight r f).created = s.created ∧ (s.setInflight r f).planes = s.planes ∧
    (s.setInflight r f).drives = s.drives ∧ (s.setInflight r f).groups = s.groups ∧ (s.setInflight r f).sweeps = s.sweeps ∧
    (s.setInflight r f).acqs = s.acqs ∧ (s.setInflight r f).mps = s.mps ∧ (s.setInflight r f).hbm = s.hbm ∧
    (s.setInflight r f).regions = s.regions ∧ (s.setInflight r f).integ = s.integ ∧ (s.setInflight r f).store = s.store ∧
    (s.setInflight r f).sinks = s.sinks ∧ (s.setInflight r f).dma = s.dma ∧ (s.setInflight r f).storeQ = s.storeQ ∧
    (s.setInflight r f).pau = s.pau ∧ (s.setInflight r f).pwr = s.pwr ∧ (s.setInflight r f).thim = s.thim ∧
    (s.setInflight r f).pair = s.pair ∧ (s.setInflight r f).sec = s.sec ∧ (s.setInflight r f).flash = s.flash ∧
    (s.setInflight r f).mon = s.mon := by
  obtain ⟨xio, h⟩ := @setInflight_shape s r f
  rw [h]; simp

theorem accept_shape (r : Nat) (op : Op) (d : Desc) : ∃ xio, s.accept r op d = { s with io := xio } := by
  exact ⟨_, rfl⟩

/-- Acceptance changes the control path only. -/
@[simp] theorem accept_parts (r : Nat) (op : Op) (d : Desc) :
    (s.accept r op d).pending = s.pending ∧ (s.accept r op d).free = s.free ∧ (s.accept r op d).now = s.now ∧
    (s.accept r op d).ident = s.ident ∧ (s.accept r op d).boot = s.boot ∧ (s.accept r op d).regErr = s.regErr ∧
    (s.accept r op d).pins = s.pins ∧ (s.accept r op d).clk = s.clk ∧ (s.accept r op d).time = s.time ∧
    (s.accept r op d).lanes = s.lanes ∧ (s.accept r op d).eye = s.eye ∧ (s.accept r op d).streams = s.streams ∧
    (s.accept r op d).chans = s.chans ∧ (s.accept r op d).created = s.created ∧ (s.accept r op d).planes = s.planes ∧
    (s.accept r op d).drives = s.drives ∧ (s.accept r op d).groups = s.groups ∧ (s.accept r op d).sweeps = s.sweeps ∧
    (s.accept r op d).acqs = s.acqs ∧ (s.accept r op d).mps = s.mps ∧ (s.accept r op d).hbm = s.hbm ∧
    (s.accept r op d).regions = s.regions ∧ (s.accept r op d).integ = s.integ ∧ (s.accept r op d).store = s.store ∧
    (s.accept r op d).sinks = s.sinks ∧ (s.accept r op d).dma = s.dma ∧ (s.accept r op d).storeQ = s.storeQ ∧
    (s.accept r op d).pau = s.pau ∧ (s.accept r op d).pwr = s.pwr ∧ (s.accept r op d).thim = s.thim ∧
    (s.accept r op d).pair = s.pair ∧ (s.accept r op d).sec = s.sec ∧ (s.accept r op d).flash = s.flash ∧
    (s.accept r op d).mon = s.mon := by
  obtain ⟨xio, h⟩ := @accept_shape s r op d
  rw [h]; simp

theorem pass_shape (n : Nat) : ∃ xnow xtime xthim, s.pass n = { s with now := xnow, time := xtime, thim := xthim } := by
  exact ⟨_, _, _, rfl⟩

/-- Time passes on the time base and the RTC. -/
@[simp] theorem pass_parts (n : Nat) :
    (s.pass n).pending = s.pending ∧ (s.pass n).free = s.free ∧ (s.pass n).io = s.io ∧ (s.pass n).ident = s.ident ∧
    (s.pass n).boot = s.boot ∧ (s.pass n).regErr = s.regErr ∧ (s.pass n).pins = s.pins ∧ (s.pass n).clk = s.clk ∧
    (s.pass n).lanes = s.lanes ∧ (s.pass n).eye = s.eye ∧ (s.pass n).streams = s.streams ∧ (s.pass n).chans = s.chans ∧
    (s.pass n).created = s.created ∧ (s.pass n).planes = s.planes ∧ (s.pass n).drives = s.drives ∧ (s.pass n).groups = s.groups ∧
    (s.pass n).sweeps = s.sweeps ∧ (s.pass n).acqs = s.acqs ∧ (s.pass n).mps = s.mps ∧ (s.pass n).hbm = s.hbm ∧
    (s.pass n).regions = s.regions ∧ (s.pass n).integ = s.integ ∧ (s.pass n).store = s.store ∧ (s.pass n).sinks = s.sinks ∧
    (s.pass n).dma = s.dma ∧ (s.pass n).storeQ = s.storeQ ∧ (s.pass n).pau = s.pau ∧ (s.pass n).pwr = s.pwr ∧
    (s.pass n).pair = s.pair ∧ (s.pass n).sec = s.sec ∧ (s.pass n).flash = s.flash ∧ (s.pass n).mon = s.mon := by
  obtain ⟨xnow, xtime, xthim, h⟩ := @pass_shape s n
  rw [h]; simp

theorem until_shape (n : Nat) : ∃ xnow xtime xthim, s.until n = { s with now := xnow, time := xtime, thim := xthim } := by
  exact ⟨_, _, _, rfl⟩

/-- Time passes on the time base and the RTC. -/
@[simp] theorem until_parts (n : Nat) :
    (s.until n).pending = s.pending ∧ (s.until n).free = s.free ∧ (s.until n).io = s.io ∧ (s.until n).ident = s.ident ∧
    (s.until n).boot = s.boot ∧ (s.until n).regErr = s.regErr ∧ (s.until n).pins = s.pins ∧ (s.until n).clk = s.clk ∧
    (s.until n).lanes = s.lanes ∧ (s.until n).eye = s.eye ∧ (s.until n).streams = s.streams ∧ (s.until n).chans = s.chans ∧
    (s.until n).created = s.created ∧ (s.until n).planes = s.planes ∧ (s.until n).drives = s.drives ∧
    (s.until n).groups = s.groups ∧ (s.until n).sweeps = s.sweeps ∧ (s.until n).acqs = s.acqs ∧ (s.until n).mps = s.mps ∧
    (s.until n).hbm = s.hbm ∧ (s.until n).regions = s.regions ∧ (s.until n).integ = s.integ ∧ (s.until n).store = s.store ∧
    (s.until n).sinks = s.sinks ∧ (s.until n).dma = s.dma ∧ (s.until n).storeQ = s.storeQ ∧ (s.until n).pau = s.pau ∧
    (s.until n).pwr = s.pwr ∧ (s.until n).pair = s.pair ∧ (s.until n).sec = s.sec ∧ (s.until n).flash = s.flash ∧
    (s.until n).mon = s.mon := by
  obtain ⟨xnow, xtime, xthim, h⟩ := @until_shape s n
  rw [h]; simp

theorem badValue_shape (off : Nat) : ∃ xregErr, s.badValue off = { s with regErr := xregErr } := by
  exact ⟨_, rfl⟩

/-- A refused register write is recorded, nothing else. -/
@[simp] theorem badValue_parts (off : Nat) :
    (s.badValue off).pending = s.pending ∧ (s.badValue off).free = s.free ∧ (s.badValue off).now = s.now ∧
    (s.badValue off).io = s.io ∧ (s.badValue off).ident = s.ident ∧ (s.badValue off).boot = s.boot ∧
    (s.badValue off).pins = s.pins ∧ (s.badValue off).clk = s.clk ∧ (s.badValue off).time = s.time ∧
    (s.badValue off).lanes = s.lanes ∧ (s.badValue off).eye = s.eye ∧ (s.badValue off).streams = s.streams ∧
    (s.badValue off).chans = s.chans ∧ (s.badValue off).created = s.created ∧ (s.badValue off).planes = s.planes ∧
    (s.badValue off).drives = s.drives ∧ (s.badValue off).groups = s.groups ∧ (s.badValue off).sweeps = s.sweeps ∧
    (s.badValue off).acqs = s.acqs ∧ (s.badValue off).mps = s.mps ∧ (s.badValue off).hbm = s.hbm ∧
    (s.badValue off).regions = s.regions ∧ (s.badValue off).integ = s.integ ∧ (s.badValue off).store = s.store ∧
    (s.badValue off).sinks = s.sinks ∧ (s.badValue off).dma = s.dma ∧ (s.badValue off).storeQ = s.storeQ ∧
    (s.badValue off).pau = s.pau ∧ (s.badValue off).pwr = s.pwr ∧ (s.badValue off).thim = s.thim ∧
    (s.badValue off).pair = s.pair ∧ (s.badValue off).sec = s.sec ∧ (s.badValue off).flash = s.flash ∧
    (s.badValue off).mon = s.mon := by
  obtain ⟨xregErr, h⟩ := @badValue_shape s off
  rw [h]; simp

theorem journalAdd_shape (src : Nat) (opc : Byte) (tag : BitVec 16) (h : Handle) (dg : BitVec 384) : ∃ xsec, s.journalAdd src opc tag h dg = { s with sec := xsec } := by
  exact ⟨_, rfl⟩

/-- An entry changes the journal only. -/
@[simp] theorem journalAdd_parts (src : Nat) (opc : Byte) (tag : BitVec 16) (h : Handle) (dg : BitVec 384) :
    (s.journalAdd src opc tag h dg).pending = s.pending ∧ (s.journalAdd src opc tag h dg).free = s.free ∧
    (s.journalAdd src opc tag h dg).now = s.now ∧ (s.journalAdd src opc tag h dg).io = s.io ∧
    (s.journalAdd src opc tag h dg).ident = s.ident ∧ (s.journalAdd src opc tag h dg).boot = s.boot ∧
    (s.journalAdd src opc tag h dg).regErr = s.regErr ∧ (s.journalAdd src opc tag h dg).pins = s.pins ∧
    (s.journalAdd src opc tag h dg).clk = s.clk ∧ (s.journalAdd src opc tag h dg).time = s.time ∧
    (s.journalAdd src opc tag h dg).lanes = s.lanes ∧ (s.journalAdd src opc tag h dg).eye = s.eye ∧
    (s.journalAdd src opc tag h dg).streams = s.streams ∧ (s.journalAdd src opc tag h dg).chans = s.chans ∧
    (s.journalAdd src opc tag h dg).created = s.created ∧ (s.journalAdd src opc tag h dg).planes = s.planes ∧
    (s.journalAdd src opc tag h dg).drives = s.drives ∧ (s.journalAdd src opc tag h dg).groups = s.groups ∧
    (s.journalAdd src opc tag h dg).sweeps = s.sweeps ∧ (s.journalAdd src opc tag h dg).acqs = s.acqs ∧
    (s.journalAdd src opc tag h dg).mps = s.mps ∧ (s.journalAdd src opc tag h dg).hbm = s.hbm ∧
    (s.journalAdd src opc tag h dg).regions = s.regions ∧ (s.journalAdd src opc tag h dg).integ = s.integ ∧
    (s.journalAdd src opc tag h dg).store = s.store ∧ (s.journalAdd src opc tag h dg).sinks = s.sinks ∧
    (s.journalAdd src opc tag h dg).dma = s.dma ∧ (s.journalAdd src opc tag h dg).storeQ = s.storeQ ∧
    (s.journalAdd src opc tag h dg).pau = s.pau ∧ (s.journalAdd src opc tag h dg).pwr = s.pwr ∧
    (s.journalAdd src opc tag h dg).thim = s.thim ∧ (s.journalAdd src opc tag h dg).pair = s.pair ∧
    (s.journalAdd src opc tag h dg).flash = s.flash ∧ (s.journalAdd src opc tag h dg).mon = s.mon := by
  obtain ⟨xsec, h⟩ := @journalAdd_shape s src opc tag h dg
  rw [h]; simp

theorem journalRegs_shape  : ∃ xsec, s.journalRegs = { s with sec := xsec } := by
  unfold State.journalRegs
  generalize (s.sec.jRegs.isEmpty || decide (s.now < s.sec.jRegAt + 1000000)) = b
  cases b
  · obtain ⟨x, h⟩ := @journalAdd_shape s 1 0xFF 0 0 (Config.sha384 (s.sec.jRegs.flatMap fun w => le 4 w.2.toNat))
    simp only [Bool.false_eq_true, if_false, h]
    exact ⟨_, rfl⟩
  · exact ⟨s.sec, rfl⟩

/-- An entry changes the journal only. -/
@[simp] theorem journalRegs_parts  :
    (s.journalRegs).pending = s.pending ∧ (s.journalRegs).free = s.free ∧ (s.journalRegs).now = s.now ∧
    (s.journalRegs).io = s.io ∧ (s.journalRegs).ident = s.ident ∧ (s.journalRegs).boot = s.boot ∧
    (s.journalRegs).regErr = s.regErr ∧ (s.journalRegs).pins = s.pins ∧ (s.journalRegs).clk = s.clk ∧
    (s.journalRegs).time = s.time ∧ (s.journalRegs).lanes = s.lanes ∧ (s.journalRegs).eye = s.eye ∧
    (s.journalRegs).streams = s.streams ∧ (s.journalRegs).chans = s.chans ∧ (s.journalRegs).created = s.created ∧
    (s.journalRegs).planes = s.planes ∧ (s.journalRegs).drives = s.drives ∧ (s.journalRegs).groups = s.groups ∧
    (s.journalRegs).sweeps = s.sweeps ∧ (s.journalRegs).acqs = s.acqs ∧ (s.journalRegs).mps = s.mps ∧
    (s.journalRegs).hbm = s.hbm ∧ (s.journalRegs).regions = s.regions ∧ (s.journalRegs).integ = s.integ ∧
    (s.journalRegs).store = s.store ∧ (s.journalRegs).sinks = s.sinks ∧ (s.journalRegs).dma = s.dma ∧
    (s.journalRegs).storeQ = s.storeQ ∧ (s.journalRegs).pau = s.pau ∧ (s.journalRegs).pwr = s.pwr ∧
    (s.journalRegs).thim = s.thim ∧ (s.journalRegs).pair = s.pair ∧ (s.journalRegs).flash = s.flash ∧ (s.journalRegs).mon = s.mon := by
  obtain ⟨xsec, h⟩ := @journalRegs_shape s 
  rw [h]; simp

theorem journalReg_shape (off : Nat) (v : Word) : ∃ xsec, s.journalReg off v = { s with sec := xsec } := by
  obtain ⟨x, h⟩ := @journalRegs_shape s
  unfold State.journalReg; rw [h]; exact ⟨_, rfl⟩

/-- An entry changes the journal only. -/
@[simp] theorem journalReg_parts (off : Nat) (v : Word) :
    (s.journalReg off v).pending = s.pending ∧ (s.journalReg off v).free = s.free ∧ (s.journalReg off v).now = s.now ∧
    (s.journalReg off v).io = s.io ∧ (s.journalReg off v).ident = s.ident ∧ (s.journalReg off v).boot = s.boot ∧
    (s.journalReg off v).regErr = s.regErr ∧ (s.journalReg off v).pins = s.pins ∧ (s.journalReg off v).clk = s.clk ∧
    (s.journalReg off v).time = s.time ∧ (s.journalReg off v).lanes = s.lanes ∧ (s.journalReg off v).eye = s.eye ∧
    (s.journalReg off v).streams = s.streams ∧ (s.journalReg off v).chans = s.chans ∧ (s.journalReg off v).created = s.created ∧
    (s.journalReg off v).planes = s.planes ∧ (s.journalReg off v).drives = s.drives ∧ (s.journalReg off v).groups = s.groups ∧
    (s.journalReg off v).sweeps = s.sweeps ∧ (s.journalReg off v).acqs = s.acqs ∧ (s.journalReg off v).mps = s.mps ∧
    (s.journalReg off v).hbm = s.hbm ∧ (s.journalReg off v).regions = s.regions ∧ (s.journalReg off v).integ = s.integ ∧
    (s.journalReg off v).store = s.store ∧ (s.journalReg off v).sinks = s.sinks ∧ (s.journalReg off v).dma = s.dma ∧
    (s.journalReg off v).storeQ = s.storeQ ∧ (s.journalReg off v).pau = s.pau ∧ (s.journalReg off v).pwr = s.pwr ∧
    (s.journalReg off v).thim = s.thim ∧ (s.journalReg off v).pair = s.pair ∧ (s.journalReg off v).flash = s.flash ∧
    (s.journalReg off v).mon = s.mon := by
  obtain ⟨xsec, h⟩ := @journalReg_shape s off v
  rw [h]; simp

theorem journal_shape (src : Nat) (opc : Byte) (tag : BitVec 16) (h : Handle) (dg : BitVec 384) : ∃ xsec, s.journal src opc tag h dg = { s with sec := xsec } := by
  obtain ⟨x, e⟩ := @journalRegs_shape s
  unfold State.journal; rw [e]; exact ⟨_, rfl⟩

/-- An entry changes the journal only. -/
@[simp] theorem journal_parts (src : Nat) (opc : Byte) (tag : BitVec 16) (h : Handle) (dg : BitVec 384) :
    (s.journal src opc tag h dg).pending = s.pending ∧ (s.journal src opc tag h dg).free = s.free ∧
    (s.journal src opc tag h dg).now = s.now ∧ (s.journal src opc tag h dg).io = s.io ∧
    (s.journal src opc tag h dg).ident = s.ident ∧ (s.journal src opc tag h dg).boot = s.boot ∧
    (s.journal src opc tag h dg).regErr = s.regErr ∧ (s.journal src opc tag h dg).pins = s.pins ∧
    (s.journal src opc tag h dg).clk = s.clk ∧ (s.journal src opc tag h dg).time = s.time ∧
    (s.journal src opc tag h dg).lanes = s.lanes ∧ (s.journal src opc tag h dg).eye = s.eye ∧
    (s.journal src opc tag h dg).streams = s.streams ∧ (s.journal src opc tag h dg).chans = s.chans ∧
    (s.journal src opc tag h dg).created = s.created ∧ (s.journal src opc tag h dg).planes = s.planes ∧
    (s.journal src opc tag h dg).drives = s.drives ∧ (s.journal src opc tag h dg).groups = s.groups ∧
    (s.journal src opc tag h dg).sweeps = s.sweeps ∧ (s.journal src opc tag h dg).acqs = s.acqs ∧
    (s.journal src opc tag h dg).mps = s.mps ∧ (s.journal src opc tag h dg).hbm = s.hbm ∧
    (s.journal src opc tag h dg).regions = s.regions ∧ (s.journal src opc tag h dg).integ = s.integ ∧
    (s.journal src opc tag h dg).store = s.store ∧ (s.journal src opc tag h dg).sinks = s.sinks ∧
    (s.journal src opc tag h dg).dma = s.dma ∧ (s.journal src opc tag h dg).storeQ = s.storeQ ∧
    (s.journal src opc tag h dg).pau = s.pau ∧ (s.journal src opc tag h dg).pwr = s.pwr ∧
    (s.journal src opc tag h dg).thim = s.thim ∧ (s.journal src opc tag h dg).pair = s.pair ∧
    (s.journal src opc tag h dg).flash = s.flash ∧ (s.journal src opc tag h dg).mon = s.mon := by
  obtain ⟨xsec, h⟩ := @journal_shape s src opc tag h dg
  rw [h]; simp

theorem complete_shape (r : Nat) (st : Status) (a b : Nat) (h : Handle) : ∃ xio xpair xsec, s.complete r st a b h = { s with io := xio, pair := xpair, sec := xsec } := by
  unfold State.complete; split
  · exact ⟨_, _, _, rfl⟩
  · dsimp only; split
    · split
      · obtain ⟨x, e⟩ := journal_shape ..
        exact ⟨_, _, _, e.trans rfl⟩
      · obtain ⟨x, e⟩ := journal_shape ..
        exact ⟨_, _, _, e.trans rfl⟩
    · split <;> exact ⟨_, _, _, rfl⟩

/-- A final completion changes the control path, the mirrored completions and the journal. -/
@[simp] theorem complete_parts (r : Nat) (st : Status) (a b : Nat) (h : Handle) :
    (s.complete r st a b h).pending = s.pending ∧ (s.complete r st a b h).free = s.free ∧ (s.complete r st a b h).now = s.now ∧
    (s.complete r st a b h).ident = s.ident ∧ (s.complete r st a b h).boot = s.boot ∧ (s.complete r st a b h).regErr = s.regErr ∧
    (s.complete r st a b h).pins = s.pins ∧ (s.complete r st a b h).clk = s.clk ∧ (s.complete r st a b h).time = s.time ∧
    (s.complete r st a b h).lanes = s.lanes ∧ (s.complete r st a b h).eye = s.eye ∧ (s.complete r st a b h).streams = s.streams ∧
    (s.complete r st a b h).chans = s.chans ∧ (s.complete r st a b h).created = s.created ∧
    (s.complete r st a b h).planes = s.planes ∧ (s.complete r st a b h).drives = s.drives ∧
    (s.complete r st a b h).groups = s.groups ∧ (s.complete r st a b h).sweeps = s.sweeps ∧
    (s.complete r st a b h).acqs = s.acqs ∧ (s.complete r st a b h).mps = s.mps ∧ (s.complete r st a b h).hbm = s.hbm ∧
    (s.complete r st a b h).regions = s.regions ∧ (s.complete r st a b h).integ = s.integ ∧
    (s.complete r st a b h).store = s.store ∧ (s.complete r st a b h).sinks = s.sinks ∧ (s.complete r st a b h).dma = s.dma ∧
    (s.complete r st a b h).storeQ = s.storeQ ∧ (s.complete r st a b h).pau = s.pau ∧ (s.complete r st a b h).pwr = s.pwr ∧
    (s.complete r st a b h).thim = s.thim ∧ (s.complete r st a b h).flash = s.flash ∧ (s.complete r st a b h).mon = s.mon := by
  obtain ⟨xio, xpair, xsec, h⟩ := @complete_shape s r st a b h
  rw [h]; simp

theorem finish_shape (r : Nat) (st : Status) (a b : Nat) : ∃ xio xpair xsec, s.finish r st a b = { s with io := xio, pair := xpair, sec := xsec } := by
  unfold State.finish; split
  · exact complete_shape ..
  · exact ⟨_, _, _, rfl⟩

/-- A final completion changes the control path, the mirrored completions and the journal. -/
@[simp] theorem finish_parts (r : Nat) (st : Status) (a b : Nat) :
    (s.finish r st a b).pending = s.pending ∧ (s.finish r st a b).free = s.free ∧ (s.finish r st a b).now = s.now ∧
    (s.finish r st a b).ident = s.ident ∧ (s.finish r st a b).boot = s.boot ∧ (s.finish r st a b).regErr = s.regErr ∧
    (s.finish r st a b).pins = s.pins ∧ (s.finish r st a b).clk = s.clk ∧ (s.finish r st a b).time = s.time ∧
    (s.finish r st a b).lanes = s.lanes ∧ (s.finish r st a b).eye = s.eye ∧ (s.finish r st a b).streams = s.streams ∧
    (s.finish r st a b).chans = s.chans ∧ (s.finish r st a b).created = s.created ∧ (s.finish r st a b).planes = s.planes ∧
    (s.finish r st a b).drives = s.drives ∧ (s.finish r st a b).groups = s.groups ∧ (s.finish r st a b).sweeps = s.sweeps ∧
    (s.finish r st a b).acqs = s.acqs ∧ (s.finish r st a b).mps = s.mps ∧ (s.finish r st a b).hbm = s.hbm ∧
    (s.finish r st a b).regions = s.regions ∧ (s.finish r st a b).integ = s.integ ∧ (s.finish r st a b).store = s.store ∧
    (s.finish r st a b).sinks = s.sinks ∧ (s.finish r st a b).dma = s.dma ∧ (s.finish r st a b).storeQ = s.storeQ ∧
    (s.finish r st a b).pau = s.pau ∧ (s.finish r st a b).pwr = s.pwr ∧ (s.finish r st a b).thim = s.thim ∧
    (s.finish r st a b).flash = s.flash ∧ (s.finish r st a b).mon = s.mon := by
  obtain ⟨xio, xpair, xsec, h⟩ := @finish_shape s r st a b
  rw [h]; simp

theorem interim_shape (r : Nat) : ∃ xio, s.interim r = { s with io := xio } := by
  unfold State.interim; split
  · exact ⟨_, rfl⟩
  · split
    · exact ⟨_, rfl⟩
    · dsimp only; split <;> exact ⟨_, rfl⟩

/-- The interim completion changes the control path only. -/
@[simp] theorem interim_parts (r : Nat) :
    (s.interim r).pending = s.pending ∧ (s.interim r).free = s.free ∧ (s.interim r).now = s.now ∧ (s.interim r).ident = s.ident ∧
    (s.interim r).boot = s.boot ∧ (s.interim r).regErr = s.regErr ∧ (s.interim r).pins = s.pins ∧ (s.interim r).clk = s.clk ∧
    (s.interim r).time = s.time ∧ (s.interim r).lanes = s.lanes ∧ (s.interim r).eye = s.eye ∧ (s.interim r).streams = s.streams ∧
    (s.interim r).chans = s.chans ∧ (s.interim r).created = s.created ∧ (s.interim r).planes = s.planes ∧
    (s.interim r).drives = s.drives ∧ (s.interim r).groups = s.groups ∧ (s.interim r).sweeps = s.sweeps ∧
    (s.interim r).acqs = s.acqs ∧ (s.interim r).mps = s.mps ∧ (s.interim r).hbm = s.hbm ∧ (s.interim r).regions = s.regions ∧
    (s.interim r).integ = s.integ ∧ (s.interim r).store = s.store ∧ (s.interim r).sinks = s.sinks ∧ (s.interim r).dma = s.dma ∧
    (s.interim r).storeQ = s.storeQ ∧ (s.interim r).pau = s.pau ∧ (s.interim r).pwr = s.pwr ∧ (s.interim r).thim = s.thim ∧
    (s.interim r).pair = s.pair ∧ (s.interim r).sec = s.sec ∧ (s.interim r).flash = s.flash ∧ (s.interim r).mon = s.mon := by
  obtain ⟨xio, h⟩ := @interim_shape s r
  rw [h]; simp

theorem setLanes_shape (ls : List Nat) (f : Lane → Lane) : ∃ xlanes, s.setLanes ls f = { s with lanes := xlanes } := by
  unfold State.setLanes
  induction ls generalizing s with
  | nil => exact ⟨_, rfl⟩
  | cons l ls ih => obtain ⟨x, h⟩ := @ih (s.setLane l f); exact ⟨x, by rw [List.foldl_cons, h]; rfl⟩

/-- Changing lanes leaves the rest. -/
@[simp] theorem setLanes_parts (ls : List Nat) (f : Lane → Lane) :
    (s.setLanes ls f).pending = s.pending ∧ (s.setLanes ls f).free = s.free ∧ (s.setLanes ls f).now = s.now ∧
    (s.setLanes ls f).io = s.io ∧ (s.setLanes ls f).ident = s.ident ∧ (s.setLanes ls f).boot = s.boot ∧
    (s.setLanes ls f).regErr = s.regErr ∧ (s.setLanes ls f).pins = s.pins ∧ (s.setLanes ls f).clk = s.clk ∧
    (s.setLanes ls f).time = s.time ∧ (s.setLanes ls f).eye = s.eye ∧ (s.setLanes ls f).streams = s.streams ∧
    (s.setLanes ls f).chans = s.chans ∧ (s.setLanes ls f).created = s.created ∧ (s.setLanes ls f).planes = s.planes ∧
    (s.setLanes ls f).drives = s.drives ∧ (s.setLanes ls f).groups = s.groups ∧ (s.setLanes ls f).sweeps = s.sweeps ∧
    (s.setLanes ls f).acqs = s.acqs ∧ (s.setLanes ls f).mps = s.mps ∧ (s.setLanes ls f).hbm = s.hbm ∧
    (s.setLanes ls f).regions = s.regions ∧ (s.setLanes ls f).integ = s.integ ∧ (s.setLanes ls f).store = s.store ∧
    (s.setLanes ls f).sinks = s.sinks ∧ (s.setLanes ls f).dma = s.dma ∧ (s.setLanes ls f).storeQ = s.storeQ ∧
    (s.setLanes ls f).pau = s.pau ∧ (s.setLanes ls f).pwr = s.pwr ∧ (s.setLanes ls f).thim = s.thim ∧
    (s.setLanes ls f).pair = s.pair ∧ (s.setLanes ls f).sec = s.sec ∧ (s.setLanes ls f).flash = s.flash ∧
    (s.setLanes ls f).mon = s.mon := by
  obtain ⟨xlanes, h⟩ := @setLanes_shape s ls f
  rw [h]; simp

end Sys2Proof.Machine
end

