-- ==== Sys2Proof/Laws/Run.lean ====
section
/-! SUPPORT. What the shared path of the ring commands does: acceptance, the checks, the settling of a verdict. -/

namespace Sys2Proof.Machine

variable {op : Op} {d : Desc} {s : State}

/-- A command that is offered is accepted. -/
theorem runCommand_offered (h : Offered op d s) : runCommand op d s = acceptRun op d (s.fetched d.ring.val) := by
  obtain ⟨he, hs, hf, ht, ha⟩ := h
  simp [runCommand, he, hs, hf, ht, ha]

/-- A command that is ready runs its body on the accepted state and settles at once. -/
theorem runCommand_ready (h : Ready op d s) :
    runCommand op d s = settle d.ring.val (accepted op d s) (bodyOf op d (accepted op d s)) := by
  have hm : (accepted op d s).mirrors op d = false := by
    by_cases c : (accepted op d s).pair.role = .primary <;> simp [State.mirrors, c, h.alone]
  rw [runCommand_offered h.toOffered]
  change (if (accepted op d s).mirrors op d then _ else match precheck op d (accepted op d s) with
    | some st => _
    | none => settle d.ring.val (accepted op d s) (bodyOf op d (accepted op d s))) = _
  rw [hm, h.passes]
  rfl

/-- A body that completes with OK. -/
@[simp] theorem settle_ok {r a b : Nat} {h : Handle} {s0 t : State} : settle r s0 (.done .ok a b h t) = t.complete r .ok a b h := by
  simp [settle]

/-- A body that fails has no effect but its completion; a handle that it claimed is freed. -/
theorem settle_fail {r a b : Nat} {h : Handle} {s0 t : State} {st : Status} (hs : st ≠ .ok) :
    settle r s0 (.done st a b h t) = (s0.unclaim r (t.flightHandle r)).complete r st a b h := by
  simp [settle, hs]

/-- A ring without claims loses none. -/
theorem dropClaims_none {r : Nat} {s : State} (h : s.claiming r = false) : s.dropClaims r = s := by
  simp [State.dropClaims, h]

/-- A handle that the descriptor itself names is not freed. -/
theorem unclaim_own {r : Nat} {s : State} {f : Inflight} (hc : s.claiming r = false) (hf : (s.cmdRing r).inflight = some f) :
    s.unclaim r f.d.handle = s := by
  simp [State.unclaim, dropClaims_none hc, hf]

/-- A request granted at once. -/
theorem settle_granted {r cls cost : Nat} {n : Need} {h : Handle} {s0 t : State} {k : State → Verdict}
    (hg : t.toActive.powerAnswer cls cost ((t.toActive.cmdRing r).inflight.any fun f => f.d.waitForPower) = .granted) :
    settle r s0 (.need n cls cost h t k) = settle r s0 (k (t.toActive.charge n cost t.toActive.now)) := by
  simp only [settle, hg]

end Sys2Proof.Machine
end

