-- ==== Sys2Proof/WellFormed.lean ====
section
/-! DEFINITION. Which operands an instance of a command can carry. -/

namespace Sys2Proof

/-- A register access is 1, 2, 4 or 8 bytes wide (R778). -/
def widthOk (w : Nat) : Bool := w == 1 || w == 2 || w == 4 || w == 8

/-- The operands of a command are ones its event can carry. -/
def Instr.wf : Instr → Bool
  | .commandDoorbell _ _ w _ _ => widthOk w
  | .eventDoorbell _ _ w _ => widthOk w
  | .dataDoorbell _ _ w _ _ => widthOk w
  | .badOpcode code _ => Op.ofCode code == .bad code
  | .eyeScanDone c => c.length == 4096
  | .rcFieldRead _ _ w => widthOk w
  | .registerWrite _ _ w _ => widthOk w
  | .bar4Read _ _ len _ => len != 0
  | .bar4Write _ _ data => data.length != 0
  | .nop .. | .devInfo .. | .powerBudget .. | .powerQuery .. | .syncSchedule .. | .timeSet .. | .streamOpen ..
  | .streamClose .. | .streamStatus .. | .regionAlloc .. | .regionFree .. | .memRetire .. | .chanCreate ..
  | .chanDestroy .. | .chanTune .. | .chanFilter .. | .chanSpectral .. | .chanProducts .. | .chanStart ..
  | .chanStop .. | .chanResume .. | .trigSet .. | .trigCombine .. | .trigMaskLoad .. | .acqSet .. | .acqArm ..
  | .acqDisarm .. | .acqForce .. | .sweepSet .. | .sweepRun .. | .densSet .. | .densSnapshot .. | .calSet ..
  | .calTableLoad .. | .calFreeze .. | .sinkBind .. | .sinkUnbind .. | .storeQueueAttach .. | .dmaRestart ..
  | .mpLoad .. | .mpStart .. | .mpStop .. | .logRead .. | .logClear .. | .sealOpen .. | .sealCheckpoint ..
  | .sealClose .. | .pairJoin .. | .pairRole .. | .pairStatus .. | .aonRules .. | .sleep .. | .powerGrant ..
  | .powerQueueTimeout .. | .grantSpacingExpiry .. | .cmdRingEnable .. | .cmdRingDisable .. | .evtRingEnable ..
  | .evtRingDisable .. | .dataRingEnable .. | .dataRingDisable .. | .pllSEnable .. | .pllSDisable ..
  | .clkoutEnable .. | .clkoutDisable .. | .pinFuncWrite .. | .tapDiscard .. | .eyeScanStart .. | .sysResetDie ..
  | .flashRead .. | .flashProgram .. | .flashErase .. | .flashSelect .. | .flashOperationDone .. | .avsFaultClear ..
  | .rtcSecRead .. | .monConfigWrite .. | .refinAbsent .. | .refinPresent .. | .phaseOffsetMeasured .. | .slewEnd ..
  | .coastWindowExpiry .. | .coastDriftExceeded .. | .pllSPhaseError .. | .crystalStopped .. | .pllSLock ..
  | .ppsEdge .. | .ppsEdgeMissing .. | .syncEpoch .. | .timeSetLoad .. | .timeSetTimeout .. | .fabricPllSwitch ..
  | .fabricPllRelock .. | .safeStateExit .. | .laneStageComplete .. | .laneStageTimeout .. | .releasePoint ..
  | .laneLockLoss .. | .multiblockReceived .. | .channelOutput .. | .retuneApply .. | .detectorWindowEnd ..
  | .channelDrainDone .. | .spectrumComplete .. | .largeTransformComplete .. | .swapBoundary ..
  | .intervalBoundary .. | .pairPartnerTimeout .. | .skBlockEnd .. | .densityFrameBoundary .. | .calOnStart ..
  | .calOnEnd .. | .calPeriodEnd .. | .calDerivationDone .. | .calSwap .. | .trigIoEdge .. | .triggerDecision ..
  | .trigIoTimedDrive .. | .trigIoPulseEnd .. | .sweepBlockDecided .. | .sweepFlushPeriod .. | .holdoffEnd ..
  | .captureComplete .. | .chunkClose .. | .arrStepUp .. | .arrStepDown .. | .mpInstruction .. | .mpInputDelivery ..
  | .mpMailboxWake .. | .mpOutputRecordWrite .. | .mpWatchdogExpiry .. | .regionZeroingDone .. | .stackWakeDone ..
  | .refreshDue .. | .qosPanicEntry .. | .qosPanicExit .. | .retrainDue .. | .partialWrite .. | .darnerScrub ..
  | .darnerPatrolBurst .. | .sramPatrol .. | .persistentStoreSave .. | .mgmtCoreReload .. | .sinkPacingStart ..
  | .bufferCloseTime .. | .confirmReadDone .. | .nvmeCompletion .. | .nvmeCommandTimeout .. | .cornerTurnBlockEmit ..
  | .cornerTurnWaitExpiry .. | .pcieLinkDown .. | .pcieLinkUp .. | .portReset .. | .l1EntryRequest ..
  | .interruptTimerExpiry .. | .thermalSensorRead .. | .criticalArrStep .. | .shedTimer .. | .avsStep ..
  | .pcieL2Entry .. | .l2Timeout .. | .wakeIn .. | .scheduledWake .. | .perstNDeassert .. | .monConversionDone ..
  | .monComparatorTrip .. | .thimbleLogFlush .. | .rcOscillatorCalibration .. | .watchdogStage1 ..
  | .watchdogStage2 .. | .vddAonLow .. | .monRxCharacter .. | .monHelp .. | .monId .. | .monRd .. | .monWr ..
  | .monRing .. | .monChan .. | .monEv .. | .monLog .. | .monLanes .. | .monClk .. | .monPau .. | .monThim ..
  | .monSeal .. | .monSleep .. | .monWake .. | .monSelftest .. | .monAuthChallenge .. | .monAuthToken ..
  | .monAuthLock .. | .debugGrantExpiry .. | .heartbeatReceived .. | .heartbeatMissed .. | .arbWaitExpiry ..
  | .pairArbAssert .. | .seamFrameReceived .. | .seamRetransmit .. | .mirroredCommand .. | .mirrorStatusReceived ..
  | .sealCheckpointTimer .. | .checkpointWrite .. | .getVersion .. | .getCapabilities .. | .negotiateAlgorithms ..
  | .getDigests .. | .getCertificate .. | .challenge .. | .getMeasurements .. | .claim .. | .release ..
  | .enrolPair .. | .decommission .. | .debugToken .. | .porNAssert .. | .porNRelease .. | .xt32CrystalStart ..
  | .bootReady .. | .bootStartTimeout .. | .dmaBeat .. | .hostReadCompletion .. | .laneColdRestart ..
  | .standbyPllLockLoss .. | .monComparatorRearm .. | .hbmStackTemperature .. | .mpStopDrainTimeout ..
  | .sinkUnbindDrainTimeout .. | .pairJoinTimeout .. | .seamTrainingDone .. | .switchoverTimeout ..
  | .heartbeatSend .. | .lifetimeCounterUpdate .. | .powerStateEntryDone .. | .pwrEnFall .. => true

end Sys2Proof
end

