-- ==== Sys2Proof/Tests/Slice0.lean ====
section
/-! SUPPORT. Tests: ill-formed terms, the manual's worked examples, single steps, and for every statement with hypotheses states and
operands that meet them, clause by clause. -/
open Sys2Proof Sys2Proof.Machine
namespace Sys2Proof.Tests

set_option Elab.async false
set_option linter.unusedVariables false

/-- The conditions of Offered and Ready, as a computation. -/
def offeredB (op : Op) (d : Desc) (s : State) : Bool :=
  (s.cmdRing d.ring.val).en && s.serving && ((s.fetched d.ring.val).cmdRing d.ring.val).backlog.isEmpty &&
    (s.fetched d.ring.val).turnOf d.ring.val && (s.fetched d.ring.val).canAccept d.ring.val op d

def readyB (op : Op) (d : Desc) (s : State) : Bool :=
  offeredB op d s && precheck op d (accepted op d s) == none &&
    (decide ((accepted op d s).pair.role ≠ .primary) || unmirrored (accepted op d s) op d)

theorem offered_of {op : Op} {d : Desc} {s : State} (h : offeredB op d s = true) : Offered op d s := by
  simp only [offeredB, Bool.and_eq_true, List.isEmpty_iff] at h
  exact ⟨h.1.1.1.1, h.1.1.1.2, h.1.1.2, h.1.2, h.2⟩

theorem ready_of {op : Op} {d : Desc} {s : State} (h : readyB op d s = true) : Ready op d s := by
  simp only [readyB, Bool.and_eq_true, beq_iff_eq, Bool.or_eq_true, decide_eq_true_eq] at h
  exact { offered_of h.1.1 with passes := h.1.2, alone := fun hp => h.2.resolve_left fun g => g hp }

/-- A descriptor on ring 0 with a handle and parameters, each an offset, a length and a value. -/
def dsc (h : Handle) (l : List (Nat × Nat)) : Desc :=
  { ring := 0, flags := 0, tag := 7, handle := h, params := BitVec.ofNat 384 (l.foldl (fun n p => n + p.2 * 2 ^ (8 * (p.1 - 8))) 0), rsvd := 0, last := 0 }

/-- A device that serves its host: ACTIVE, both links up, command, event and data ring 0 enabled, PLL_S and the fabric PLLs locked. -/
def up : State :=
  let r := State.reset
  { r with
    io := { r.io with
      cmd := upd r.io.cmd 0 fun c => { c with en := true }
      evt := upd r.io.evt 0 fun c => { c with en := true }
      data := upd r.io.data 0 fun c => { c with en := true }
      ports := Vector.replicate 2 { HostPort.reset with linkUp := true } }
    boot := { r.boot with die := .serving, ready := true }
    clk := { r.clk with lock := true, fActive := false, f0Lock := true, f1Lock := true }
    hbm := { r.hbm with trained := 15, selfRef := 0 }
    pwr := { r.pwr with st := .active } }

def hd (kind idx : Nat) : Handle := mkHandle kind 1 idx

def ev0 : EvtRecord := ⟨1, 0, false, 0, 0, 0, 0⟩

/-- A command in flight on ring 0. -/
def fly (op : Op) (stage : Stage) (d : Desc) : Inflight := 
  { op := op, d := d, stage := stage, handle := d.handle, interim := false, owed := 2, since := 0, buffer := [], asks := (0, 0), order := 0
    evt := 0, port := 0, wb := 0, back := true }

def flying (op : Op) (stage : Stage) (d : Desc) (s : State) : State := s.setInflight 0 fun _ => some (fly op stage d)

def inSt (st : PwrSt) (entering : Option PwrSt) (s : State) : State := { s with pwr := { s.pwr with st := st, entering := entering } }

def role (r : Role) (s : State) : State := { s with pair := { s.pair with role := r, trained := true } }

def temps (t : Int) : Vector Int 8 := Vector.replicate 8 t

theorem avs_low (s : State) (h : (s.pau.avsCfg.getLsbD 31 && !s.pau.avsFault && decide (s.pau.setpoint < 720)) = true) :
    s.avsMoves = true ∧ s.pau.setpoint < s.avsGoal := by
  simp only [Bool.and_eq_true, decide_eq_true_eq] at h
  have g : s.pau.setpoint < s.avsGoal := by unfold State.avsGoal; omega
  refine ⟨?_, g⟩
  simp [State.avsMoves, h.1.1, Bool.eq_false_iff.mpr (by simpa using h.1.2), Nat.ne_of_lt g]

theorem avs_high (s : State) (h : (s.pau.avsCfg.getLsbD 31 && !s.pau.avsFault && decide (800 < s.pau.setpoint)) = true) :
    s.avsMoves = true ∧ s.avsGoal ≤ s.pau.setpoint := by
  simp only [Bool.and_eq_true, decide_eq_true_eq] at h
  have g : s.avsGoal < s.pau.setpoint := by unfold State.avsGoal; omega
  refine ⟨?_, Nat.le_of_lt g⟩
  simp [State.avsMoves, h.1.1, Bool.eq_false_iff.mpr (by simpa using h.1.2), Nat.ne_of_gt g]

/-- A stream of 1 GS/s on lane 0, UP, and its parameters. -/
def par0 : StreamPar :=
  { fs := 1000000000, map := [0], l := 1, m := 1, n := 16, n' := 16, cs := 0, csMap := 0, s := 1, f := 2, e := 1, fec := false
    group := 0, discover := false, rbd := 0, alignPs := 0 }

def stream0 : Stream :=
  { Stream.reset with st := .up, par := par0, lanes := [0], everUp := true, deskewed := true, next := some 1000
                      lastReleased := some 999 }

def withStream (f : Stream → Stream) (s : State) : State := s.setStream 0 fun _ => f stream0

def params0 : List (Nat × Nat) :=
  [(8, 1000000000), (0x10, 0x0100000000000000000000000000000000 - 256), (0x20, 1), (0x21, 1), (0x22, 16), (0x23, 16), (0x27, 1), (0x28, 1)]

/-- Channel 0 of that stream, STOPPED, D = 1, with an in-pipe transform of 64 points; region 0 of one granule. -/
def chan0 : Chan := { Chan.reset with st := .stopped, engines := 1, fgen := 1, fe := .default 1, sp := ⟨1, 6, 64, 0, 0, [], 1⟩ }

def reg (i : Nat) (f : Region → Region) (s : State) : State :=
  { s with regions := upd s.regions i fun _ => f { Region.reset with alloc := true, granules := [i] } }

def withChan (f : Chan → Chan) : State := reg 0 id ((withStream id up).setChan 0 fun _ => f chan0)

def plain (c : Chan) : Chan := { c with sp := .off }

def running (c : Chan) : Chan := { c with st := .running, startAt := 0 }

/-- One frame of outputs, with their flags. -/
def frame (w : BitVec 32) : List OutSmp := (List.range 64).map fun j => ⟨j, ⟨0, 0, w⟩, 0, 0, 0⟩

def acc0 : ProdAcc := ⟨0, 1, 0, 0, 0, 0, 0, 0, none, [], 0, 0, 0, 0⟩

def plane0 : Plane := { Plane.reset with chan := some 0, grant := 550, bd := 64, f := 1, region := hd 3 0, counted := 1 }

def group0 : Group := { Group.reset with alloc := true, mode := 1, inputs := [0], hits := [⟨0, 8, 5, 0⟩] }

/-- Unit 0 on that stream, IDLE, with region 0 bound. -/
def acq0 : Acq := { Acq.reset with st := .idle, par := { AcqPar.blank with source := 1, q := 1, i0 := 1 } }

def withAcq (f : Acq → Acq) : State := (reg 0 (fun r => { r with writer := .acq 0 }) (withChan running)).setAcq 0 fun _ => f acq0

def item (n : Nat) : Item := ⟨n, 1, 0, [0], 0, ⟨n, 0, 0, 0, 0, 0, 0, 0⟩⟩

def acqParams : List (Nat × Nat) := [(8, 1), (0x0C, 0x01000100), (0x14, 1), (0x24, 1)]

def arr0 (a : Acq) : Acq := { a with st := .streaming, par := { a.par with mode := 3, flags := 0x40, arrMax := 7, dwell := 1 } }

def sweep0 : Sweep := { Sweep.reset with claimed := true, type := 2, all := true, nr := 1, nt := 1, phi := [0], km := 4, kn := 4 }

def withSweep (f : Sweep → Sweep) : State := (reg 1 id (withChan running)).setSweep 0 fun _ => f sweep0

def cal0 : Cal := { Cal.off with on := true, bc := 64, cycles := 1 }

def drive0 : Drive := { Drive.reset with owner := some 0, n := 1, r := 1 }

def withCal (f : Drive → Drive) : State := (withChan fun c => { c with cal := cal0 }).setDrive 0 fun _ => f drive0

/-- Region 0 with a BAR4 window at 0. -/
def win0 : State := reg 0 (fun r => { r with window := some 0 }) up

def rec0 : Rec := ⟨0, 0, 256, 1, 1, false, true, 0, none⟩

/-- Host sink 0 on data ring 0 and region 0, which holds one record. -/
def sink0 : Sink := { Sink.reset with alloc := true, bound := true }

def withSink (f : Sink → Sink) : State :=
  (reg 0 (fun r => { r with sink := some 0, recs := [rec0] }) up).setSink 0 fun _ => f sink0

def buf0 : OpenBuf := ⟨⟨0, 4096, 0, false⟩, 256, 1, 0, false, false, false, 0, [0], 0, none⟩

def store0 (f : StoreQ → StoreQ) : State :=
  up.setQueue 0 fun q => f { q with attached := true, recs := [⟨0, 0, 0, 1, 1, 0, false, false, false, 0, 64, false⟩] }

/-- An MP image of one instruction word of zeros, no data. -/
def mpImg : List Byte :=
  le 4 0x504D4C54 ++ le 2 1 ++ le 2 64 ++ le 2 1 ++ le 2 0 ++ le 4 0 ++ le 4 0 ++ le 4 (crc32c (List.replicate 8 0)).toNat ++ List.replicate 48 0

def mp0 (w : BitVec 64) : Mp := { Mp.reset with st := .running, image := some ⟨[w], [], 0, 0, 0⟩, wIn := 64, wOut := 64, outReg := hd 3 0 }

def withMp (f : Mp → Mp) : State := (reg 0 id up).setMp 0 fun _ => f (mp0 0)

def ctState : State :=
  let s := withSink fun k => { k with par := { k.par with corner := true, inputs := [0], f := 1, t := 1 } }
  { s with regions := upd s.regions 0 fun r => { r with recs := [{ rec0 with kind := 3 }] } }

def doneB (v : Verdict) (c : Nat) (h : Handle) : Bool :=
  match v with
  | .done .ok c' _ h' _ => c' == c && h' == h
  | _ => false

theorem done_of {v : Verdict} {c : Nat} {h : Handle} (e : doneB v c h = true) : ∃ b t, v = .done .ok c b h t := by
  unfold doneB at e
  split at e
  · simp only [Bool.and_eq_true, beq_iff_eq] at e
    exact ⟨_, _, by rw [e.1, e.2]⟩
  · cases e

def swState : State := withSweep fun u => { u with run := true, lastM := some 0, hist := [⟨0, [0], false, 0⟩] }

def swBlock : Option (Sweep × List Cand) := (swState.sweep 0).nextBlock ((swState.chan 0).sp.h * (swState.chan 0).fe.d)

theorem sw_some : swBlock.isSome = true := by decide +kernel

def mpState : State := up.setInflight 0 fun _ => some { fly .mpLoad .hostRead (dsc 0 [(0x10, 72)]) with handle := hd 7 0 }

theorem get_some {α : Type} {o : Option α} (h : o.isSome = true) : o = some (o.get h) := (Option.some_get h).symm

theorem get_pair {α β : Type} {o : Option (α × β)} (h : o.isSome = true) : o = some ((o.get h).1, (o.get h).2) := get_some h

theorem le_length (n v : Nat) : (le n v).length = n := by
  induction n generalizing v with
  | zero => rfl
  | succ n ih => simp [le, ih]

theorem pack_length (l : List (Nat × Nat)) : (pack l).length = (l.map (·.1)).sum := by
  induction l with
  | nil => rfl
  | cons x l ih => simp [pack, le_length, ih]

theorem slice_length (o n : Nat) (l : List Byte) : (slice o n l).length = n := by
  simp [slice]

theorem padTo_le (l : List Byte) : (padTo 8 l).length ≤ l.length + 8 := by
  simp [padTo]; omega

/-- Where the next record of a region goes. -/
def endOf (r : Region) : Nat :=
  match r.recs.getLast? with
  | some x => ceilDiv (x.off + x.len + 16) 64 * 64
  | none => 0

/-- A record fits into a region with room after its last record; none fits into a region without bytes. -/
theorem append_room (s : State) (i : Nat) (h : Hdr) (p : List Byte) (k : (s.region i).sink = none)
    (l : endOf (s.region i) + (p.length + 300) ≤ (s.region i).bytes) : (s.appendRecord i h p).isSome = true := by
  have g := padTo_le p
  have c : slotBytes (padTo 8 p).length ≤ p.length + 300 := by unfold slotBytes ceilDiv; omega
  have e : (s.region i).appendAt (padTo 8 p).length =
      (s.region i).circle (endOf (s.region i)) (slotBytes (padTo 8 p).length) 0 (s.region i).bytes := rfl
  have w : endOf (s.region i) + slotBytes (padTo 8 p).length ≤ (s.region i).bytes := by omega
  simp [State.appendRecord, e, Region.circle, Region.roomAt, k, w]

theorem append_full (s : State) (i : Nat) (h : Hdr) (p : List Byte) (e : (s.region i).bytes = 0) : s.appendRecord i h p = none := by
  have c : 0 < slotBytes (padTo 8 p).length := by unfold slotBytes ceilDiv; omega
  simp [State.appendRecord, Region.appendAt, Region.circle, e]
  omega

theorem checkpoint_le (s : State) (k : Nat) (c : Cut) : (s.checkpoint k c).2.length ≤ 8192 := by
  unfold State.checkpoint
  refine Nat.le_trans (padTo_le _) ?_
  rw [List.length_append, List.length_append, pack_length, slice_length]
  split
  · rw [slice_length]; simp only [List.map, List.sum_cons, List.sum_nil]; omega
  · simp only [List.map, List.sum_cons, List.sum_nil, List.length_nil]; omega

/-- A checkpoint fits into a region with room. -/
theorem cut_room (s : State) (k : Nat) (c : Cut) (e : (s.region (s.session k).region).sink = none)
    (l : endOf (s.region (s.session k).region) + (8192 + 300) ≤ (s.region (s.session k).region).bytes) :
    (s.appendRecord (s.session k).region (s.checkpoint k c).1 (s.checkpoint k c).2).isSome = true :=
  append_room _ _ _ _ e (Nat.le_trans (Nat.add_le_add_left (Nat.add_le_add_right (checkpoint_le s k c) 300) _) l)

/-- Session 0 open on region 0, a checkpoint cut. -/
def cut0 : Cut := ⟨2, 0, 0, 0, 0, none⟩

def withSeal (f : Session → Session) : State :=
  (reg 0 (fun r => { r with writer := .session 0 }) up).setSession 0 fun _ => f { Session.reset with isOpen := true, n := 1 }

def cutState : State := withSeal fun x => { x with cuts := [cut0] }

/-- Session 0 with a journal entry that no segment holds yet. -/
def segState : State := { cutState with sec := { cutState.sec with journal := [⟨1, 0, 0, 0, 0, 0, 0⟩], jNext := 2 } }

/-- A record of sink 0 is being sealed in session 0. -/
def midState : State :=
  let s := withSeal fun x => { x with sink := some 0 }
  (reg 0 (fun r => { r with writer := .session 0, recs := [rec0] }) s).setSink 0 fun _ =>
    { sink0 with cur := some ⟨0, 0, 0, 0, 0⟩, par := { sink0.par with session := hd 8 0 } }

def fullState : State := reg 0 (fun r => { r with granules := [] }) cutState

def owned (s : State) : State := { s with sec := { s.sec with life := .owned, owners := upd s.sec.owners 0 fun _ => .key 0 } }

def fresh (s : State) : State := { s with sec := { s.sec with challenges := [(5, 0)] } }

def req : LifeReq := ⟨0, 0, 5, List.replicate 2689 0, 9, 3, 86400, []⟩

def entry0 : ThimEntry := ⟨0, 1, 0, 0, 0, 0⟩

def logState : State :=
  reg 0 (fun r => { r with writer := .thimble }) { up with thim := { up.thim with log := List.replicate 32 entry0, logPending := 32, logRegion := some 0 } }

def coasting : State := { up with clk := { up.clk with lock := false, coast := true, measuring := true, coastStart := some 0 } }

def coastPolicy (p : Nat) : State := { coasting with clk := { coasting.clk with coastCfg := BitVec.ofNat 32 (0x06405320 + p * 2 ^ 30) } }

def rising (stage : Nat) : State := (withStream (fun x => { x with st := .bringup }) up).setLane 0 fun l => { l with stage := stage }

def panicState (late : Option Nat) : State :=
  { up with hbm := { up.hbm with panic := upd up.hbm.panic 0 fun _ => 8, retrainLate := upd up.hbm.retrainLate 127 fun _ => late } }

/-- The sink of DMA channel 0 moves, with its record and a host buffer. -/
def dmaState : State :=
  let s := withSink fun k => { k with moving := true }
  { s with dma := upd s.dma 0 fun x => { x with sink := some 0 }
           io := { s.io with data := upd s.io.data 0 fun r => { r with posted := [⟨0, 4096, 0, false⟩] } } }

/-- The 131,072 outputs of one frame of a large transform, and a channel that holds them. -/
@[irreducible] def bigOuts : List OutSmp := (List.range 131072).map fun j => ⟨j, ⟨0, 0, 0⟩, 0, 0, 0⟩

def bigState : State := withChan fun c => running { c with sp := ⟨1, 17, 131072, 0, hd 3 0, [], 1⟩, outs := bigOuts }

theorem big_frame : (bigState.chan (0 : Fin 128).val).frameOf (bigState.chan (0 : Fin 128).val).nextSpec = some bigOuts := by
  have e : (bigState.chan (0 : Fin 128).val).outs = bigOuts := rfl
  have n : (bigState.chan (0 : Fin 128).val).nextSpec = 0 := by decide +kernel
  have w : (bigState.chan (0 : Fin 128).val).sp.span = 131072 := by decide +kernel
  have all : (bigOuts.filter fun o => decide (0 ≤ o.j) && decide (o.j < 131072)) = bigOuts := by
    rw [List.filter_eq_self]
    intro o ho
    unfold bigOuts at ho
    simp only [List.mem_map, List.mem_range] at ho
    obtain ⟨j, hj, rfl⟩ := ho
    simp only [Nat.zero_le, decide_true, hj, Bool.and_self]
  have len : bigOuts.length = 131072 := by unfold bigOuts; rw [List.length_map, List.length_range]
  simp only [Chan.frameOf, e, n, w, Nat.zero_mul, Nat.zero_add, all, len, if_true]

/-- A spectrum that waits for its partner. -/
def sp0 : Spectrum := ⟨0, [], 0, 0, 0, 0, 0, 0, 0, ⟨[], [], 0, false⟩⟩

def entry1 : LogEntry := ⟨5, 0, false, false, false, false, 1, 0, 0, 1, 0, 0⟩

def outFull (m : Mp) : Mp := { m with outq := [⟨0, [], [], false⟩, ⟨1, [], [], false⟩] }

/-! ### Ill-formed operands are refused -/

theorem test_wf_command_doorbell : (Instr.commandDoorbell 0 0 3 0 []).wf = false := by decide
theorem test_wf_event_doorbell : (Instr.eventDoorbell 0 0 3 0).wf = false := by decide
theorem test_wf_data_doorbell : (Instr.dataDoorbell 0 0 3 0 []).wf = false := by decide
theorem test_wf_rc_field_read : (Instr.rcFieldRead 0 0 3).wf = false := by decide
theorem test_wf_register_write : (Instr.registerWrite 0 0 3 0).wf = false := by decide
theorem test_wf_bad_opcode : (Instr.badOpcode 0x26 (dsc 0 [])).wf = false := by decide +kernel
theorem test_wf_eye_scan : (Instr.eyeScanDone []).wf = false := by decide
theorem test_wf_bar4_read : (Instr.bar4Read 0 0 0 []).wf = false := by decide
theorem test_wf_bar4_write : (Instr.bar4Write 0 0 []).wf = false := by decide
theorem test_wf_nop : (Instr.nop (dsc 0 [])).wf = true := by decide

/-! ### The manual's worked examples -/

/-- Scope, Example: reading a little-endian handle: channel, generation 768, index 5. -/
theorem test_handle : mkHandle 2 768 5 = 0x02030005 ∧ hIdx 0x02030005 = 5 := by decide

/-- Rings, doorbells and handles, worked example: CHAN_START (0x26) on ring 2 with flags 0x03 and phase byte 0x00. -/
theorem test_decode_chan_start :
    decodeDesc 2 0x0203000512340326 = (.chanStart, { dsc 0x02030005 [] with ring := 2, flags := 3, tag := 0x1234 }) := by decide +kernel

/-- The same example: count 299 of a ring of 256 entries is in slot 43 and its word at 0x1C is 0x0000_012B. -/
theorem test_event_sequence : (evtBytes 8 299 ev0).drop 0x1C = le 4 0x0000012B ∧ 299 % 2 ^ 8 = 43 := by decide +kernel

/-- Set-up registers, worked example: CMD_RING_CFG[2] = 0x8006_0001 enables ring 2 on port 0 with 64 entries and event ring 1. -/
theorem test_ring_enable :
    let s : State := { up with io := { up.io with evt := upd up.io.evt 1 fun x => { x with en := true, size := 8 } } }
    (match exec (.cmdRingEnable 2 0x80060001) s with
     | .next t => let c := t.cmdRing 2; c.en && !c.err && c.port == 0 && c.size == 6 && c.evt == 1 && c.cons == 0
     | _ => false) = true := by decide +kernel

/-- The Kettle Ridge zoom channel: D = 64, LPD80, Lint filter of width 5, FDL-16 with τ = 337. -/
def zoomFe : FeSet := { FeSet.default 64 with shaping := 0x10, lintW := 5, lintR := 2, fdl := 0x21, tau := 337 }

/-- Channel front end, worked example: S − 1 = 3,482, 70 FILL outputs, a delay of 39.5 outputs in 1/64. -/
theorem test_filter_span : zoomFe.span1 = 3482 ∧ zoomFe.fillCount = 70 ∧ zoomFe.delay = 2528 := by decide +kernel

/-- Architecture and data flow, worked example: 6.4 GS/s with F/S = 1/2 needs 26.4 Gbit/s per lane (in 1/128 bit/s). -/
theorem test_lane_rate : { par0 with fs := 6400000000, s := 2, f := 1 }.rate = 26400000000 * 128 := by decide +kernel

/-- Power admission and sleep, worked example: at 48 °C the static charge is 45 W, at 58 °C 53 W. -/
theorem test_static_charge :
    State.static { up with pau := { up.pau with temps := temps 48 } } = 45000 ∧
    State.static { up with pau := { up.pau with temps := temps 58 } } = 53000 := by decide +kernel

def kettle (c : Chan) : State := withStream (fun x => { x with par := { x.par with fs := 6400000000 } }) (withChan fun _ => c)

/-- The same example: a wide channel costs 4.000 W, a zoom channel 1.255 W. -/
theorem test_channel_cost :
    (kettle { chan0 with fe := .default 2, sp := ⟨2, 16, 65536, 0x30, 0, [], 1⟩ }).chanCost 0 = 4000 ∧
    (kettle { chan0 with fe := zoomFe, sp := ⟨1, 20, 1048576, 0, hd 3 0, [], 1⟩ }).chanCost 0 = 1255 := by decide +kernel

/-- Measurement processors, Example: eight points in bit-reversed order: from 0x0100 with M0 = 4 to 0x0104, from 0x0104 to 0x0102,
from 0x0107 back to 0x0100. -/
theorem test_mp_bit_reversed :
    let m := fun (a : BitVec 14) => { Mp.reset with a := upd Mp.reset.a 0 fun _ => a, m := upd Mp.reset.m 0 fun _ => (4 : Int) }
    ((m 0x100).addr 0 3 0).2 = 0x104 ∧ ((m 0x104).addr 0 3 0).2 = 0x102 ∧ ((m 0x107).addr 0 3 0).2 = 0x100 := by decide +kernel

/-- Measurement processors, Example: a TL3016 delay line, CBASE = 0x0200, CLEN = 5. -/
theorem test_mp_circular :
    let m := fun (a : BitVec 14) (v : Int) =>
      { Mp.reset with a := upd Mp.reset.a 0 fun _ => a, m := upd Mp.reset.m 0 fun _ => v, cbase := 0x200, clen := 5 }
    ((m 0x204 1).addr 0 4 0).2 = 0x200 ∧ ((m 0x203 3).addr 0 4 0).2 = 0x201 ∧ ((m 0x201 (-2)).addr 0 4 0).2 = 0x204 := by decide +kernel

/-! ### Single steps -/

/-- A NOP completes at once: its ring's consumer count becomes 1 and nothing stays in flight (R55, R104). -/
theorem test_nop_completes :
    (match step { up with pending := [.nop (dsc 0 [])] } with
     | .next t => (t.cmdRing 0).cons == 1 && (t.cmdRing 0).inflight.isNone && t.pending.isEmpty
     | _ => false) = true := by decide +kernel

/-- A command on a ring of a device that has not started does nothing (log entry 14). -/
theorem test_nop_before_start : step { State.reset with pending := [.nop (dsc 0 [])] } = .next State.reset := by rfl

/-- A difference of the doorbell's count above the ring's size is ignored and counted (R58). -/
theorem test_doorbell_too_far :
    (match exec (.commandDoorbell 0 0 4 65 []) up with
     | .next t => (t.cmdRing 0).prod == 0 && nth t.io.dbBad 0 0 == 1
     | _ => false) = true := by decide +kernel

/-- POWER_BUDGET of 150 W with a queue limit of 10 minutes, as in the worked example (R630). -/
theorem test_power_budget :
    (match exec (.powerBudget (dsc 0 [(8, 150000), (0x0C, 600000)])) up with
     | .next t => t.pau.budget == 150000 && t.pau.queueMs == 600000
     | _ => false) = true := by decide +kernel

/-- A handle of the wrong kind gives BAD_HANDLE (R93). -/
theorem test_bad_handle : precheck .chanStart (dsc 0x01030005 []) up = some .badHandle := by decide +kernel

/-! ### Every statement's hypotheses are met -/

theorem test_witness_MemoryStaysCanonical :
    ∃ s t : State, Mem.wf s.hbm.mem = true ∧ Mem.wf s.flash.mem = true ∧ step s = .next t :=
  ⟨{ State.reset with pending := [.nop (dsc 0 [])] }, State.reset, by decide +kernel, by decide +kernel, rfl⟩

theorem test_witness_ByteReadAfterWrite :
    (∃ (m : List Host.Cell) (x y : Nat) (v : BitVec 8), Mem.wf m = true) ∧
    (∃ (m : List Host.Cell) (lo hi y : Nat), Mem.wf m = true) :=
  ⟨⟨[⟨5, 7⟩], 5, 6, 9, by decide +kernel⟩,
   ⟨[⟨5, 7⟩], 5, 6, 5, by decide +kernel⟩⟩

theorem test_witness_DescriptorDecodeOfEncode :
    (∃ (op : Op) (d : Desc), op ∈ opTable) ∧
    (∃ (c : BitVec 8) (d : Desc), (∀ op ∈ opTable, op.code ≠ c)) :=
  ⟨⟨.sleep, dsc 0 [(8, 1)], by decide +kernel⟩,
   ⟨0xFF, dsc 0 [], by decide +kernel⟩⟩

theorem test_witness_CommandsWaitTheirTurn :
    (∃ (op : Op) (d : Desc) (s : State), Op.ofCode op.code = op ∧ ((s.cmdRing d.ring.val).en = false ∨ s.serving = false)) ∧
    (∃ (op : Op) (d : Desc) (s : State), Op.ofCode op.code = op ∧ (s.cmdRing d.ring.val).en = true ∧ s.serving = true ∧ (((s.fetched d.ring.val).cmdRing d.ring.val).backlog ≠ [] ∨ (s.fetched d.ring.val).turnOf d.ring.val = false ∨
      (s.fetched d.ring.val).canAccept d.ring.val op d = false)) ∧
    (∃ (op : Op) (d : Desc) (s : State) (st : Status), Op.ofCode op.code = op ∧ Offered op d s ∧ (accepted op d s).mirrors op d = false ∧ precheck op d (accepted op d s) = some st) ∧
    (∃ (op : Op) (d : Desc) (s : State) (st : Status), Op.ofCode op.code = op ∧ Offered op d s ∧ (accepted op d s).mirrors op d = true ∧ precheck op d (accepted op d s).view = some st) ∧
    (∃ (op : Op) (d : Desc) (s : State), Op.ofCode op.code = op ∧ Ready op d s) ∧
    (∃ (op : Op) (d : Desc) (s : State), op ∈ opTable ∧ s.pair.role = .fenced ∧ unmirrored s op d = false) ∧
    (∃ (op : Op) (d : Desc) (s : State), op ∈ opTable ∧ s.pair.role = .secondary ∧ unmirrored s op d = false) ∧
    (∃ (op : Op) (d : Desc) (s : State), op ∈ opTable ∧ s.pair.role ≠ .fenced ∧ s.pair.role ≠ .secondary ∧ s.handleOk op d.handle = false) :=
  ⟨⟨.nop, dsc 0 [], State.reset, by decide +kernel⟩,
   ⟨.nop, dsc 0 [], flying .nop .point (dsc 0 []) up, by decide +kernel⟩,
   ⟨.streamClose, dsc 0 [], up, .badHandle, by decide +kernel, offered_of (by decide +kernel), by decide +kernel⟩,
   ⟨.timeSet, { dsc 0 [] with handle := 5 }, role .primary up, .badHandle, by decide +kernel, offered_of (by decide +kernel), by decide +kernel⟩,
   ⟨.nop, dsc 0 [], up, by decide +kernel, ready_of (by decide +kernel)⟩,
   ⟨.timeSet, dsc 0 [], role .fenced up, by decide +kernel⟩,
   ⟨.timeSet, dsc 0 [], role .secondary up, by decide +kernel⟩,
   ⟨.streamClose, dsc 0 [], up, by decide +kernel⟩⟩

theorem test_witness_FailedCommandHasNoEffect :
    (∃ (op : Op) (d : Desc) (s u : State) (st : Status) (x y : Nat) (h : Handle), Op.ofCode op.code = op ∧ Ready op d s ∧ st ≠ .ok ∧ (let a := accepted op d s
      bodyOf op d a = .done st x y h u ∧ u.flightHandle d.ring.val = d.handle ∧ a.claiming d.ring.val = false)) ∧
    (∃ (op : Op) (d : Desc) (s u : State) (n : Need) (cls cost : Nat) (h : Handle) (k : State → Verdict), Op.ofCode op.code = op ∧ Ready op d s ∧ (let a := accepted op d s
      bodyOf op d a = .need n cls cost h u k ∧ u.toActive.powerAnswer cls cost ((u.toActive.cmdRing d.ring.val).inflight.any fun f => f.d.waitForPower) = .denied)) ∧
    (∃ (r : Nat) (s : State), s.claiming r = false) ∧
    (∃ (d : Desc) (i : Nat) (gs : List Nat) (w : Option Nat) (s : State), Ready .regionAlloc d s ∧ (let a := accepted .regionAlloc d s
      allocOk a d = true ∧ a.claimIdx 256 (fun i => !(a.region i).alloc) = some i ∧ allocGranules a (d.u 0x08 4) (if dBit d 0x0C 1 then some (d.u 0x0D 1) else none) = some gs ∧ (if dBit d 0x0C 0 then (windowFor a (d.u 0x08 4)).map some else some none) = some w ∧ (let c : State := if gs.any fun g => a.hbm.selfRef.getLsbD (g / 12288) then a.toActive else a
      (let b : State := { c with regions := upd c.regions i fun x => { Region.reset with gen := x.gen, alloc := true, granules := gs, window := w } }
      (let h := b.handleOf 3 i
      (let b := b.setInflight d.ring.val (Option.map fun f => { f with handle := h })
      (wakeStacks d.ring.val h d.waitForPower (b.asleep i) b).isNone = true)))))) :=
  ⟨⟨.nop, dsc 0 [(8, 1)], up, _, .badParam, 0, 0, 0, by decide +kernel, ready_of (by decide +kernel), by decide, rfl, by decide +kernel⟩,
   ⟨.pairJoin, dsc 0 [(8, 1), (0x0C, 1)], { up with pau := { up.pau with budget := 1 }, pair := { up.pair with arb := true } }, _, _, _, _, _, _, by decide +kernel, ready_of (by decide +kernel), rfl, by decide +kernel⟩,
   ⟨0, up, by decide +kernel⟩,
   ⟨dsc 0 [(8, 1), (0x0C, 2)], 0, [0], none, { up with pau := { up.pau with budget := 1 }, hbm := { up.hbm with selfRef := 15 } }, ready_of (by decide +kernel), by decide +kernel⟩⟩

theorem test_witness_AcceptanceReserves :
    (∃ (op : Op) (d : Desc) (s : State), s.pwr.st = .active ∧ d.fence = true) ∧
    (∃ (op : Op) (d : Desc) (s : State), s.pwr.st = .active ∧ d.fence = false) ∧
    (∃ (op : Op) (d : Desc) (s : State), s.pwr.st = .active ∧ (let r := d.ring.val
      ∃ q : Nat, q ≠ r)) :=
  ⟨⟨.nop, { dsc 0 [] with flags := 4 }, up, by decide +kernel⟩,
   ⟨.nop, dsc 0 [], up, by decide +kernel⟩,
   ⟨.nop, dsc 0 [], up, by decide +kernel, 15, by decide +kernel⟩⟩

theorem test_witness_FinalCompletion :
    (∃ (s : State) (r : Fin 16) (f : Inflight) (st : Status) (a b : Nat) (h : Handle), (s.cmdRing r.val).inflight = some f ∧ ∃ q : Nat, q ≠ r.val) ∧
    (∃ (s : State) (r : Fin 16) (f : Inflight) (st : Status) (a b : Nat) (h : Handle), (s.cmdRing r.val).inflight = some f ∧ st ≠ .ok) ∧
    (∃ (s : State) (r : Fin 16) (f : Inflight) (st : Status) (a b : Nat) (h : Handle), (s.cmdRing r.val).inflight = some f ∧ st = .ok ∧ f.op.unjournalled = false) ∧
    (∃ (s : State) (r : Fin 16) (f : Inflight) (st : Status) (a b : Nat) (h : Handle), (s.cmdRing r.val).inflight = some f ∧ st = .ok ∧ f.op.unjournalled = true) :=
  ⟨⟨flying .nop .point (dsc 0 []) up, 0, fly .nop .point (dsc 0 []), .ok, 0, 0, 0, by decide +kernel, 15, by decide +kernel⟩,
   ⟨flying .nop .point (dsc 0 []) up, 0, fly .nop .point (dsc 0 []), .timeout, 0, 0, 0, by decide +kernel⟩,
   ⟨flying .timeSet .pps (dsc 0 []) up, 0, fly .timeSet .pps (dsc 0 []), .ok, 0, 0, 0, by decide +kernel⟩,
   ⟨flying .nop .point (dsc 0 []) up, 0, fly .nop .point (dsc 0 []), .ok, 0, 0, 0, by decide +kernel⟩⟩

theorem test_witness_EventPosting :
    (∃ (io : Io) (n : Fin 16) (e : EvtRecord), (nth io.evt n.val .reset).held = [] ∧ io.evtRoom n.val = true) ∧
    (∃ (io : Io) (n : Fin 16) (e : EvtRecord), ((nth io.evt n.val .reset).held ≠ [] ∨ io.evtRoom n.val = false) ∧ (nth io.evt n.val .reset).en = true ∧ (nth io.evt n.val .reset).held.length + (nth io.evt n.val .reset).reserved < 64) ∧
    (∃ (io : Io) (n : Fin 16) (e : EvtRecord), ((nth io.evt n.val .reset).held ≠ [] ∨ io.evtRoom n.val = false) ∧ ((nth io.evt n.val .reset).en = false ∨ 64 ≤ (nth io.evt n.val .reset).held.length + (nth io.evt n.val .reset).reserved)) :=
  ⟨⟨up.io, 0, ev0, by decide +kernel⟩,
   ⟨{ up.io with evt := upd up.io.evt 0 fun x => { x with held := [ev0] } }, 0, ev0, by decide +kernel⟩,
   ⟨Io.reset, 0, ev0, by decide +kernel⟩⟩

theorem test_witness_BadOpcodeAndNop :
    (∃ (d : Desc) (s : State), Ready .nop d s ∧ d.clean [] = true) ∧
    (∃ (d : Desc) (s : State), Ready .nop d s ∧ d.clean [] = false) ∧
    (∃ (d : Desc) (s : State), Offered .nop d s ∧ d.fence = true) ∧
    (∃ (code : BitVec 8) (d : Desc) (s : State), Op.ofCode code = .bad code ∧ Offered (.bad code) d s) ∧
    (∃ (code : BitVec 8) (d : Desc) (s : State), Op.ofCode code ≠ .bad code) :=
  ⟨⟨dsc 0 [], up, ready_of (by decide +kernel), by decide +kernel⟩,
   ⟨dsc 0 [(8, 1)], up, ready_of (by decide +kernel), by decide +kernel⟩,
   ⟨{ dsc 0 [] with flags := 4 }, up, offered_of (by decide +kernel), by decide +kernel⟩,
   ⟨0xFF, dsc 0 [], up, by decide +kernel, offered_of (by decide +kernel)⟩,
   ⟨0, dsc 0 [], up, by decide +kernel⟩⟩

theorem test_witness_DoorbellCountsInRange :
    (∃ (n : Fin 16) (value : Word) (slots : List (BitVec 512)) (s : State), s.serving = true ∧ s.hasPort (s.cmdRing n.val).port.val = true ∧ (s.cmdRing n.val).en = true ∧ (value - (s.cmdRing n.val).cons).toNat ≤ 2 ^ (s.cmdRing n.val).size) ∧
    (∃ (n : Fin 16) (value : Word) (slots : List (BitVec 512)) (s : State), s.serving = true ∧ s.hasPort (s.cmdRing n.val).port.val = true ∧ (s.cmdRing n.val).en = true ∧ 2 ^ (s.cmdRing n.val).size < (value - (s.cmdRing n.val).cons).toNat) ∧
    (∃ (n : Fin 128) (value : Word) (slots : List (BitVec 256)) (s : State), s.serving = true ∧ s.hasPort (s.dring n.val).port.val = true ∧ (s.dring n.val).en = true ∧ (value - (s.dring n.val).cons).toNat ≤ 2 ^ (s.dring n.val).size ∧ s.pwr.st = .active) ∧
    (∃ (n : Fin 128) (value : Word) (slots : List (BitVec 256)) (s : State), s.serving = true ∧ s.hasPort (s.dring n.val).port.val = true ∧ (s.dring n.val).en = true ∧ 2 ^ (s.dring n.val).size < (value - (s.dring n.val).cons).toNat) :=
  ⟨⟨0, 64, [], up, by decide +kernel⟩,
   ⟨0, 65, [], up, by decide +kernel⟩,
   ⟨0, 64, [], up, by decide +kernel⟩,
   ⟨0, 65, [], up, by decide +kernel⟩⟩

theorem test_witness_EventDoorbellAndTimer :
    (∃ (n : Fin 16) (value : Word) (s : State), s.serving = true ∧ s.hasPort (nth s.io.evt n.val .reset).port.val = true ∧ (nth s.io.evt n.val .reset).en = true ∧ ((nth s.io.evt n.val .reset).written - value).toNat ≤ 2 ^ (nth s.io.evt n.val .reset).size) ∧
    (∃ (n : Fin 16) (value : Word) (s : State), s.serving = true ∧ s.hasPort (nth s.io.evt n.val .reset).port.val = true ∧ (nth s.io.evt n.val .reset).en = true ∧ 2 ^ (nth s.io.evt n.val .reset).size < ((nth s.io.evt n.val .reset).written - value).toNat) ∧
    (∃ (n : Nat) (value : Word) (s : State), s.pwr.st = .active ∧ s.pair.role ≠ .primary) ∧
    (∃ (n : Fin 16) (s : State), (nth s.io.evt n.val .reset).en = true ∧ (nth s.io.evt n.val .reset).timer ≠ 0 ∧ 0 < (nth s.io.evt n.val .reset).unsig) :=
  ⟨⟨0, 0, up, by decide +kernel⟩,
   ⟨0, 1, up, by decide +kernel⟩,
   ⟨0, 1, up, by decide +kernel⟩,
   ⟨0, { up with io := { up.io with evt := upd up.io.evt 0 fun x => { x with timer := 1, unsig := 1 } } }, by decide +kernel⟩⟩

theorem test_witness_RingEnableAndDisable :
    (∃ (n : Fin 16) (v : Word) (s : State), s.serving = true ∧ v.getLsbD 31 = true ∧ (s.cmdRing n.val).en = false ∧ inR (bits v.toNat 20 16) 6 16 = true ∧ (s.cmdRing n.val).base.toNat % 4096 = 0 ∧ (s.cmdRing n.val).wb.toNat % 4 = 0 ∧ s.hasPort (bits v.toNat 27 27) = true ∧ (nth s.io.evt (Fin.ofNat 16 (bits v.toNat 3 0)).val .reset).en = true ∧ (nth s.io.evt (Fin.ofNat 16 (bits v.toNat 3 0)).val .reset).port = Fin.ofNat 2 (bits v.toNat 27 27)) ∧
    (∃ (n : Fin 16) (v : Word) (s : State), s.serving = true ∧ v.getLsbD 31 = false ∧ (s.cmdRing n.val).en = true) ∧
    (∃ (n : Nat) (f : Fence) (io : Io), io.fence = some f) ∧
    (∃ (n : Fin 16) (v : Word) (s : State), s.serving = true ∧ v.getLsbD 31 = true ∧ (nth s.io.evt n.val .reset).en = false ∧ inR (bits v.toNat 20 16) 6 16 = true ∧ (nth s.io.evt n.val .reset).base.toNat % 4096 = 0 ∧ s.hasPort (bits v.toNat 27 27) = true) ∧
    (∃ (n : Fin 16) (v : Word) (s : State), s.serving = true ∧ v.getLsbD 31 = false ∧ (nth s.io.evt n.val .reset).en = true ∧ (nth s.io.evt n.val .reset).owes = false ∧ (∀ c : Fin 16, (s.cmdRing c.val).en = true → (s.cmdRing c.val).evt ≠ n)) ∧
    (∃ (n : Fin 128) (v : Word) (s : State), s.serving = true ∧ v.getLsbD 31 = true ∧ (s.dring n.val).en = false ∧ inR (bits v.toNat 20 16) 6 16 = true ∧ (s.dring n.val).base.toNat % 4096 = 0 ∧ s.hasPort (bits v.toNat 27 27) = true) ∧
    (∃ (n : Fin 128) (v : Word) (s : State), s.serving = true ∧ v.getLsbD 31 = false ∧ (s.dring n.val).en = true ∧ s.ringServes n.val = false) :=
  ⟨⟨15, 0x80060000, up, by decide +kernel⟩,
   ⟨0, 0, up, by decide +kernel⟩,
   ⟨0, ⟨0, 0⟩, { up.io with fence := some ⟨0, 0⟩ }, by decide +kernel⟩,
   ⟨15, 0x80060000, up, by decide +kernel⟩,
   ⟨0, 0, { up with io := { up.io with cmd := upd up.io.cmd 0 fun c => { c with en := false } } }, by decide +kernel⟩,
   ⟨127, 0x80060000, up, by decide +kernel⟩,
   ⟨0, 0, up, by decide +kernel⟩⟩

theorem test_witness_PortRows :
    (∃ (p : Fin 2) (s : State), (s.hostPort p.val).linkUp = true) ∧
    (∃ (p : Fin 2) (s : State), s.hasPort p.val = true ∧ ∃ n : Fin 16, (s.cmdRing n.val).port ≠ p) ∧
    (∃ (p : Fin 2) (s : State), s.hasPort p.val = true ∧ ∃ n : Fin 16, (nth s.io.evt n.val .reset).port ≠ p) ∧
    (∃ (p : Fin 2) (s : State), s.hasPort p.val = true ∧ ∃ n : Fin 128, (s.dring n.val).port ≠ p) ∧
    (∃ (p : Fin 2) (s : State), (s.hostPort p.val).linkUp = true ∧ (s.hostPort p.val).l1 = false ∧ (∀ k : Fin 128, (s.sink k.val).bound = false) ∧ (∀ n : Fin 16, (s.cmdRing n.val).port = p → (s.cmdRing n.val).backlog = [] ∧ (s.cmdRing n.val).inflight = none) ∧ (∀ n : Fin 16, (nth s.io.evt n.val .reset).port = p → (nth s.io.evt n.val .reset).en = true → (nth s.io.evt n.val .reset).held = [])) :=
  ⟨⟨0, up, by decide +kernel⟩,
   ⟨1, up, by decide +kernel, 0, by decide +kernel⟩,
   ⟨1, up, by decide +kernel, 0, by decide +kernel⟩,
   ⟨1, up, by decide +kernel, 0, by decide +kernel⟩,
   ⟨1, up, by decide +kernel⟩⟩

theorem test_witness_PowerAdmission :
    (∃ (s : State) (cls cost : Nat) (w : Bool), s.pau.budget < cost + s.static) ∧
    (∃ (s : State) (cls cost : Nat) (w : Bool), cost + s.static ≤ s.pau.budget ∧ (∀ c ≤ cls, s.pau.waiting c = []) ∧ s.thim.cutting 0 = false ∧ (cost : Int) ≤ s.available ∧ (cost ≤ 5000 ∨ (s.pau.avsMoving = false ∧ s.pau.avsFault = false))) ∧
    (∃ (s : State) (cls cost : Nat), cost + s.static ≤ s.pau.budget ∧ ((∃ c ≤ cls, s.pau.waiting c ≠ []) ∨ s.available < (cost : Int)) ∧ (s.pau.waiting cls).length < 64) ∧
    (∃ (s : State) (cls cost : Nat) (w : Bool), ((∃ c ≤ cls, s.pau.waiting c ≠ []) ∨ s.available < (cost : Int)) ∧ 64 ≤ (s.pau.waiting cls).length) ∧
    (∃ (s : State) (c : Fin 16) (cost : Nat), (nth s.mps c.val .reset).grant = 0) :=
  ⟨⟨up, 0, 250001, false, by decide +kernel⟩,
   ⟨up, 0, 1, false, by decide +kernel⟩,
   ⟨{ up with pau := { up.pau with q0 := [⟨.seam, 5400, none, 0, 0, false, some 0⟩] } }, 0, 1, by decide +kernel⟩,
   ⟨{ up with pau := { up.pau with q0 := List.replicate 64 ⟨.seam, 5400, none, 0, 0, false, some 0⟩ } }, 0, 1, true, by decide +kernel⟩,
   ⟨up, 0, 1, by decide +kernel⟩⟩

theorem test_witness_PowerCommandsAndQueues :
    (∃ (d : Desc) (s : State), Ready .powerBudget d s ∧ d.clean [(0x08, 8)] = true ∧ inR (d.u 0x08 4) 30000 285000 = true ∧ inR (d.u 0x0C 4) 1 600000 = true) ∧
    (∃ (d : Desc) (s : State), Ready .powerQuery d s ∧ d.clean [(0x08, 12)] = true ∧ 64 ≤ d.u 0x10 4 ∧ addrOk (d.u 0x08 8) (d.u 0x10 4) 64 = true ∧ (let a := accepted .powerQuery d s
      (a.hostPort (a.flightPort d.ring.val).val).linkUp = true)) ∧
    (∃ (d : Desc) (s : State), Ready .sleep d s ∧ d.clean [(0x08, 2), (0x10, 8)] = true ∧ (let a := accepted .sleep d s
      a.sleepOk (d.u 0x08 1) (d.u 0x09 1) (d.u 0x10 8) = true ∧ a.sleepGoes (d.u 0x08 1) = true)) ∧
    (∃ (cls : Fin 3) (pos : Nat) (q : PowerReq) (s : State), (s.pau.waiting cls.val)[pos]? = some q ∧ q.ring.isSome = true ∧ s.pair.role ≠ .secondary) ∧
    (∃ (c : Nat) (q : PowerReq) (s : State), s.pau.nextSpaced = some (c, q)) :=
  ⟨⟨dsc 0 [(8, 30000), (0x0C, 600000)], up, ready_of (by decide +kernel), by decide +kernel⟩,
   ⟨dsc 0 [(0x10, 64)], up, ready_of (by decide +kernel), by decide +kernel⟩,
   ⟨dsc 0 [(8, 1)], up, ready_of (by decide +kernel), by decide +kernel⟩,
   ⟨0, 0, ⟨.seam, 5400, some 0, 0, 0, false, some 0⟩, { up with pau := { up.pau with q0 := [⟨.seam, 5400, some 0, 0, 0, false, some 0⟩] } }, by decide +kernel⟩,
   ⟨0, ⟨.seam, 5400, some 0, 0, 0, true, none⟩, { up with pau := { up.pau with q0 := [⟨.seam, 5400, some 0, 0, 0, true, none⟩] } }, by decide +kernel⟩⟩

theorem test_witness_HeatAndVoltageRows :
    (∃ (temps : Vector Int 8) (s : State), s.boot.die ≠ .held ∧ (let p := { s.pau with temps := temps }
      115 ≤ p.hottest)) ∧
    (∃ (temps : Vector Int 8) (s : State), s.serving = true ∧ (let p := { s.pau with temps := temps }
      p.hottest < 115)) ∧
    (∃ (s : State) (t : Nat), s.pau.critSince = some t) ∧
    (∃ s : State, s.pau.critSince = none) ∧
    (∃ (s : State) (c t ch : Nat) (rest : List Nat), s.pau.critSince = some c ∧ s.pau.shedAt = some t ∧ (let u := s.until t
      (let u' : State := { u with pau := { u.pau with shedAt := some (t + 10000000) } }
      u'.granted_ = ch :: rest))) ∧
    (∃ s : State, s.serving = true ∧ s.avsMoves = true ∧ s.pau.setpoint < s.avsGoal) ∧
    (∃ s : State, s.serving = true ∧ s.avsMoves = true ∧ s.avsGoal ≤ s.pau.setpoint) ∧
    (∃ s : State, s.serving = true ∧ s.avsMoves = true ∧ 2 ≤ s.pau.avsFails) ∧
    (∃ (v : Word) (s : State), s.serving = true ∧ v.getLsbD 31 = true ∧ s.pau.avsFault = true) :=
  ⟨⟨temps 115, State.reset, by decide +kernel⟩,
   ⟨temps 114, up, by decide +kernel⟩,
   ⟨{ up with pau := { up.pau with critSince := some 0 } }, 0, by decide +kernel⟩,
   ⟨up, by decide +kernel⟩,
   ⟨{ (up.setChan 5 fun c => { c with st := .running, grant := 100 }) with pau := { up.pau with critSince := some 0, shedAt := some 0 } }, 0, 0, 5, [], by decide +kernel⟩,
   ⟨{ up with pau := { up.pau with avsMoving := true, setpoint := 0 } }, by decide +kernel, (avs_low _ (by decide +kernel)).1, (avs_low _ (by decide +kernel)).2⟩,
   ⟨{ up with pau := { up.pau with avsMoving := true, setpoint := 5000 } }, by decide +kernel, (avs_high _ (by decide +kernel)).1, (avs_high _ (by decide +kernel)).2⟩,
   ⟨{ up with pau := { up.pau with avsMoving := true, setpoint := 5000, avsFails := 2 } }, by decide +kernel, (avs_high _ (by decide +kernel)).1, by decide +kernel⟩,
   ⟨0x80000000, { up with pau := { up.pau with avsFault := true } }, by decide +kernel⟩⟩

theorem test_witness_SleepAndWakeRows :
    (∃ (p : Fin 2) (s : State), s.pwr.entering = some .retain ∧ (s.hostPort p.val).linkUp = true) ∧
    (∃ s : State, s.pwr.entering = some .retain ∧ s.l2Missing = true) ∧
    (∃ s : State, s.pwr.entering = some .idle ∧ s.maySleep 1 = true) ∧
    (∃ s : State, s.pwr.entering = some .retain ∧ s.maySleep 2 = true ∧ s.l2Missing = false) ∧
    (∃ s : State, s.pwr.entering = some .dormant ∧ s.maySleep 3 = true) ∧
    (∃ s : State, s.pwr.wakeMask.getLsbD 3 = true ∧ (s.pwr.entering.isSome = true ∨ s.pwr.st = .retain ∨ s.pwr.st = .dormant)) ∧
    (∃ (p : Fin 2) (speed : Fin 8) (width : Fin 64) (s : State), s.hasPort p.val = true ∧ s.boot.die ≠ .held ∧ s.pwr.st ≠ .retain ∧ s.pwr.st ≠ .dormant ∧ (s.hostPort p.val).perst = false) ∧
    (∃ (p : Fin 2) (s : State), s.pwr.st = .retain ∧ s.hasPort p.val = true) ∧
    (∃ (p : Fin 2) (s : State), s.pwr.st ≠ .retain ∧ s.hasPort p.val = true) ∧
    (∃ (p : Fin 2) (s : State), s.hasPort p.val = false) :=
  ⟨⟨0, inSt .idle (some .retain) up, by decide +kernel⟩,
   ⟨inSt .idle (some .retain) up, by decide +kernel⟩,
   ⟨inSt .active (some .idle) up, by decide +kernel⟩,
   ⟨inSt .idle (some .retain) { up with io := { up.io with ports := Vector.replicate 2 { HostPort.reset with l2 := true } } }, by decide +kernel⟩,
   ⟨inSt .idle (some .dormant) { up with io := { up.io with ports := Vector.replicate 2 { HostPort.reset with l2 := true } } }, by decide +kernel⟩,
   ⟨{ inSt .retain none up with pwr := { up.pwr with st := .retain, wakeMask := 8 } }, by decide +kernel⟩,
   ⟨0, 3, 8, up, by decide +kernel⟩,
   ⟨0, inSt .retain none up, by decide +kernel⟩,
   ⟨0, up, by decide +kernel⟩,
   ⟨1, { up with ident := { up.ident with small := true } }, by decide +kernel⟩⟩

theorem test_witness_FirmwareFaultRows :
    (∃ s : State, s.serving = true) ∧
    (∃ s : State, s.boot.die = .serving ∧ s.thim.wdtStage = 0) ∧
    (∃ s : State, s.boot.die = .serving ∧ s.thim.wdtStage = 1) ∧
    (∃ (ring : Fin 16) (f : Inflight) (data : List (BitVec 8)) (s : State), s.waitsAt ring.val .hostRead = some f ∧ (let t := s.setInflight ring.val (Option.map fun f => { f with buffer := data })
      t.mirrors f.op f.d = false)) ∧
    (∃ (ring : Fin 16) (f : Inflight) (data : List (BitVec 8)) (s : State), s.waitsAt ring.val .hostRead = some f ∧ s.handleOk f.op f.d.handle = true) ∧
    (∃ (ring : Fin 16) (f : Inflight) (r : ReadResult) (s : State), s.waitsAt ring.val .hostRead = some f ∧ (∀ l, r ≠ .ok l)) ∧
    (∃ (ring : Fin 16) (data : List (BitVec 8)) (s : State), (s.cmdRing ring.val).en = true) ∧
    (∃ (ring : Fin 128) (data : List (BitVec 8)) (s : State), (s.dring ring.val).en = true) ∧
    (∃ s : State, s.serving = true) ∧
    (∃ s : State, s.serving = true) :=
  ⟨⟨up, by decide +kernel⟩,
   ⟨up, by decide +kernel⟩,
   ⟨{ up with thim := { up.thim with wdtStage := 1 } }, by decide +kernel⟩,
   ⟨0, fly .mpLoad .hostRead (dsc 0 []), [], flying .mpLoad .hostRead (dsc 0 []) up, by decide +kernel⟩,
   ⟨0, fly .mpLoad .hostRead (dsc 0 []), [], flying .mpLoad .hostRead (dsc 0 []) up, by decide +kernel⟩,
   ⟨0, fly .mpLoad .hostRead (dsc 0 []), .ur, flying .mpLoad .hostRead (dsc 0 []) up, by decide +kernel, (by intro l h; cases h)⟩,
   ⟨0, [], up, by decide +kernel⟩,
   ⟨0, [], up, by decide +kernel⟩,
   ⟨up, by decide +kernel⟩,
   ⟨up, by decide +kernel⟩⟩

theorem test_witness_DieResetRows :
    (∃ s : State, s.pwr.st ≠ .dormant) ∧
    (∃ s : State, s.pwr.st = .dormant) ∧
    (∃ s : State, s.boot.porLow = true ∧ s.pwr.st ≠ .dormant) ∧
    (∃ s : State, s.boot.porLow = true ∧ s.pwr.st = .dormant) ∧
    (∃ s : State, s.boot.xtal32 = false ∧ s.pwr.st ≠ .dormant) ∧
    (∃ (v : Word) (s : State), s.serving = true ∧ v.getLsbD 31 = true) ∧
    (∃ s : State, s.boot.die = .booting ∧ s.boot.failed < 3) ∧
    (∃ s : State, s.boot.die = .booting ∧ 3 ≤ s.boot.failed) ∧
    (∃ s : State, s.pwr.st = .dormant ∧ s.pins.pwrEn = true) ∧
    (∃ s : State, s.safeMayEnd = true) :=
  ⟨⟨up, by decide +kernel⟩,
   ⟨inSt .dormant none up, by decide +kernel⟩,
   ⟨{ up with boot := { up.boot with porLow := true } }, by decide +kernel⟩,
   ⟨{ inSt .dormant none up with boot := { up.boot with porLow := true } }, by decide +kernel⟩,
   ⟨{ State.reset with boot := { Boot.reset with xtal32 := false } }, by decide +kernel⟩,
   ⟨0x80000000, up, by decide +kernel⟩,
   ⟨State.reset, by decide +kernel⟩,
   ⟨{ State.reset with boot := { Boot.reset with failed := 3 } }, by decide +kernel⟩,
   ⟨inSt .dormant none up, by decide +kernel⟩,
   ⟨{ State.reset with boot := { Boot.reset with safe := true }, clk := { Clk.reset with refPresent := true } }, by decide +kernel⟩⟩

theorem test_witness_BootReadyServesTheHost :
    ∃ (b : BootInfo) (s : State), s.boot.die = .booting ∧ s.boot.porLow = false ∧ s.boot.xtal32 = true ∧ s.boot.safe = false ∧ s.sec.step ≤ b.secVersion ∧ b.secVersion ≤ 512 :=
  ⟨⟨false, false, false, 0, 0, 0, 100⟩, State.reset, by decide +kernel⟩

theorem test_witness_BootFlashRows :
    (∃ (v : Word) (s : State), s.serving = true ∧ bits v.toNat 30 28 = 1 ∧ v.getLsbD 31 = true ∧ v.toNat % 4 = 0 ∧ s.flash.busy = false ∧ s.flash.addr.toNat % 256 = 0) ∧
    (∃ (v : Word) (s : State), s.serving = true ∧ bits v.toNat 30 28 = 2 ∧ v.getLsbD 31 = true ∧ v.toNat % 4 = 0 ∧ s.flash.busy = false ∧ s.flash.addr.toNat % 256 = 0 ∧ s.flashOpen s.flash.addr.toNat 256 = true) ∧
    (∃ (v : Word) (s : State), s.serving = true ∧ bits v.toNat 30 28 = 3 ∧ v.getLsbD 31 = true ∧ v.toNat % 4 = 0 ∧ s.flash.busy = false ∧ s.flash.addr.toNat % 65536 = 0 ∧ s.flashOpen s.flash.addr.toNat 65536 = true) ∧
    (∃ (v : Word) (s : State), s.serving = true ∧ bits v.toNat 30 28 = 2 ∧ v.getLsbD 31 = true ∧ v.toNat % 4 = 0 ∧ s.flash.busy = false ∧ s.flash.addr.toNat % 256 = 0 ∧ s.flashOpen s.flash.addr.toNat 256 = false) ∧
    (∃ (v : Word) (s : State), s.serving = true ∧ bits v.toNat 30 28 = 0 ∧ v.getLsbD 31 = false ∧ (v.toNat % 4 = 1 ∨ v.toNat % 4 = 2) ∧ s.flash.busy = false) ∧
    (∃ (a : Nat) (s : State), s.flash.run = some (1, a) ∧ 0x00010000 ≤ a ∧ a < 0x02010000) ∧
    (∃ (a : Nat) (s : State), s.flash.run = some (2, a)) ∧
    (∃ (a : Nat) (s : State), s.flash.run = some (3, a)) ∧
    (∃ (slot : Fin 2) (s : State), s.flash.run = some (4, slot.val) ∧ (s.flash.copy s.flash.current).count ≠ 0xFFFFFFFF#32) :=
  ⟨⟨0x90000000, up, by decide +kernel⟩,
   ⟨0xA0000000, { up with flash := { up.flash with addr := 0x01010000 } }, by decide +kernel⟩,
   ⟨0xB0000000, { up with flash := { up.flash with addr := 0x01010000 } }, by decide +kernel⟩,
   ⟨0xA0000000, up, by decide +kernel⟩,
   ⟨2, up, by decide +kernel⟩,
   ⟨0x00010000, { up with flash := { up.flash with busy := true, run := some (1, 0x00010000) } }, by decide +kernel⟩,
   ⟨0x01010000, { up with flash := { up.flash with busy := true, run := some (2, 0x01010000) } }, by decide +kernel⟩,
   ⟨0x01010000, { up with flash := { up.flash with busy := true, run := some (3, 0x01010000) } }, by decide +kernel⟩,
   ⟨1, { up with flash := { up.flash with busy := true, run := some (4, 1) } }, by decide +kernel⟩⟩

theorem test_witness_RegisterWriteAndRead :
    (∃ (p : Fin 2) (off : BitVec 24) (w : Nat) (v : BitVec 64) (s : State), s.serving = false) ∧
    (∃ (p : Fin 2) (off : BitVec 24) (v : BitVec 64) (r : Reg) (s : State), s.serving = true ∧ s.hasPort p.val = true ∧ off.toNat % 4 = 0 ∧ regAt off.toNat = some r ∧ r.absent s.ident.small = false ∧ r.journalled = false) ∧
    (∃ (p : Fin 2) (off : BitVec 24) (v : BitVec 64) (s : State), s.serving = true ∧ s.hasPort p.val = true ∧ off.toNat % 4 = 0 ∧ regAt off.toNat = none) ∧
    (∃ (p : Fin 2) (off : BitVec 24) (w : Nat) (v : BitVec 64) (s : State), s.serving = true ∧ s.hasPort p.val = true ∧ ¬ (w = 4 ∧ off.toNat % 4 = 0) ∧ ¬ (w = 8 ∧ off.toNat % 8 = 0)) ∧
    (∃ (p : Fin 2) (s : State), s.serving = true ∧ s.hasPort p.val = true) ∧
    (∃ (p : Fin 2) (s : State), s.serving = true ∧ s.hasPort p.val = true) :=
  ⟨⟨0, 0, 4, 0, State.reset, by decide +kernel⟩,
   ⟨0, 0, 0, _, up, by decide +kernel, by decide +kernel, by decide +kernel, rfl, by decide +kernel⟩,
   ⟨0, 0xFFFFFC, 0, up, by decide +kernel⟩,
   ⟨0, 1, 4, 0, up, by decide +kernel⟩,
   ⟨0, up, by decide +kernel⟩,
   ⟨0, up, by decide +kernel⟩⟩

theorem test_witness_SetUpRegisterRows :
    (∃ (v : Word) (s : State), s.serving = true) ∧
    (∃ (v : Word) (s : State), s.serving = true) ∧
    (∃ (v : Word) (s : State), s.clk.en = false ∧ inR (bits v.toNat 27 24) 1 8 = true ∧ inR (bits v.toNat 11 0) 112 2880 = true ∧ v.getLsbD 28 = true) ∧
    (∃ (v : Word) (s : State), s.clk.en = true ∧ s.clk.lock = true ∧ v.getLsbD 28 = false) ∧
    (∃ (n : Fin 16) (v : Word) (s : State), s.serving = true) ∧
    (∃ (n : Fin 16) (v : Word) (s : State), s.serving = true) ∧
    (∃ (n : Fin 16) (v : Word) (s : State), outFunc v ≤ 3 ∧ outFormat v ≤ 4 ∧ bits v.toNat 15 10 ≠ 63 ∧ (outFunc v = outFunc (nth s.clk.outCfg n.val 0) ∨ (s.outUsed n.val = false ∧ (nth s.clk.outCfg n.val 0).getLsbD 31 = false)) ∧ ((nth s.clk.outCfg n.val 0).getLsbD 31 = true → outFormat v = outFormat (nth s.clk.outCfg n.val 0) ∧ outDiv v = outDiv (nth s.clk.outCfg n.val 0))) ∧
    (∃ (n : Fin 32) (v : Word) (s : State), s.serving = true) ∧
    (∃ (n : Fin 32) (v : Word) (s : State), s.pinUsed n.val = false ∧ offered n.val (v.toNat % 16) = true ∧ v.toNat % 16 ≠ 5) ∧
    (∃ (n : Fin 64) (v : Word) (s : State), s.serving = true) ∧
    (∃ (n : Fin 64) (v : Word) (s : State), v.getLsbD 29 = true) ∧
    (∃ (v : Word) (s : State), s.serving = true) ∧
    (∃ (v : Word) (s : State), v.getLsbD 31 = true ∧ s.eye.busy = false ∧ (s.lane (v.extractLsb' 24 6).toNat).pstate = 0) ∧
    (∃ (v : Word) (s : State), s.serving = true) :=
  ⟨⟨0, up, by decide +kernel⟩,
   ⟨0, up, by decide +kernel⟩,
   ⟨0x91400500, { up with clk := Clk.reset }, by decide +kernel⟩,
   ⟨0, { up with clk := { up.clk with cfg := 0xD1400500 } }, by decide +kernel⟩,
   ⟨0, 0, up, by decide +kernel⟩,
   ⟨0, 0, up, by decide +kernel⟩,
   ⟨0, 0x00000000, up, by decide +kernel⟩,
   ⟨0, 0, up, by decide +kernel⟩,
   ⟨0, 1, up, by decide +kernel⟩,
   ⟨0, 0, up, by decide +kernel⟩,
   ⟨0, 0x20000000, up, by decide +kernel⟩,
   ⟨0, up, by decide +kernel⟩,
   ⟨0x80000000, up.setLane 0 fun l => { l with pstate := 0 }, by decide +kernel⟩,
   ⟨0, up, by decide +kernel⟩⟩

theorem test_witness_ReferenceEventsOfPllS :
    (∃ (cause : Fin 2) (s : State), s.clk.lock = true ∧ s.clk.window ≠ 0) ∧
    (∃ (cause : Fin 2) (s : State), s.clk.lock = true ∧ s.clk.window = 0) ∧
    (∃ (cause : Fin 2) (s : State), s.clk.lock = false) ∧
    (∃ (ps : Int) (s : State), s.clk.coast = true ∧ s.clk.measuring = true ∧ (let inside := ps.natAbs ≤ 10 * bits s.clk.coastCfg.toNat 11 4
      inside)) ∧
    (∃ (ps : Int) (s : State), s.clk.coast = true ∧ s.clk.measuring = true ∧ (let inside := ps.natAbs ≤ 10 * bits s.clk.coastCfg.toNat 11 4
      ¬ inside ∧ s.clk.policy = 0)) ∧
    (∃ (ps : Int) (s : State), s.clk.coast = true ∧ s.clk.measuring = true ∧ (let inside := ps.natAbs ≤ 10 * bits s.clk.coastCfg.toNat 11 4
      ¬ inside ∧ s.clk.policy = 2)) ∧
    (∃ (ps : Int) (s : State), s.clk.coast = true ∧ s.clk.measuring = true ∧ (let inside := ps.natAbs ≤ 10 * bits s.clk.coastCfg.toNat 11 4
      ¬ inside ∧ s.clk.policy ≠ 0 ∧ s.clk.policy ≠ 2)) ∧
    (∃ s : State, s.clk.slewing = true) ∧
    (∃ s : State, s.clk.en = true ∧ s.clk.cfgErr = false ∧ s.clk.refPresent = true ∧ s.clk.lock = false ∧ s.clk.coast = false ∧ s.clocksOff = false) :=
  ⟨⟨0, up, by decide +kernel⟩,
   ⟨0, { up with clk := { up.clk with coastCfg := 0 } }, by decide +kernel⟩,
   ⟨0, State.reset, by decide +kernel⟩,
   ⟨500, coasting, by decide +kernel⟩,
   ⟨501, coasting, by decide +kernel⟩,
   ⟨-501, coastPolicy 2, by decide +kernel⟩,
   ⟨-501, coastPolicy 1, by decide +kernel⟩,
   ⟨{ up with clk := { up.clk with slewing := true } }, by decide +kernel⟩,
   ⟨{ up with clk := { up.clk with lock := false, cfg := 0xD1400500, refPresent := true } }, by decide +kernel⟩⟩

theorem test_witness_LossOfLockRows :
    (∃ (s : State) (t : Nat), s.clk.coast = true ∧ s.clk.coastStart = some t) ∧
    (∃ (ppb : Int) (s : State), s.clk.coast = true ∧ 100 * bits s.clk.coastCfg.toNat 19 12 < ppb.natAbs) ∧
    (∃ (ppb : Int) (s : State), s.clk.coast = true ∧ ppb.natAbs ≤ 100 * bits s.clk.coastCfg.toNat 19 12) ∧
    (∃ (cause : Nat) (s : State), s.clk.coast = true) ∧
    (∃ s : State, s.clk.lock = true) :=
  ⟨⟨coasting, 0, by decide +kernel⟩,
   ⟨1000000000, coasting, by decide +kernel⟩,
   ⟨0, coasting, by decide +kernel⟩,
   ⟨0, coasting, by decide +kernel⟩,
   ⟨up, by decide +kernel⟩⟩

theorem test_witness_PpsEdgeRows :
    (∃ (w e l : Nat) (s : State), s.time.lastEdge = some l ∧ s.clk.ppsValid = false) ∧
    (∃ (ns : Int) (s : State), s.pllOk = true ∧ 2 ≤ s.clk.ppsGood ∧ (let e := s.time.run + ((s.nextEdge ns).1 - s.time.tb)
      s.inPlace 100 e = true)) ∧
    (∃ (ns : Int) (s : State), s.inPlace (if s.pllOk then 100 else 2000) (s.time.run + ((s.nextEdge ns).1 - s.time.tb)) = false ∧ s.clk.ppsValid = true ∧ s.clk.ppsBad < 2) ∧
    (∃ s : State, s.clk.ppsValid = true ∧ s.clk.ppsBad < 2) ∧
    (∃ s : State, s.clk.ppsValid = true ∧ 2 ≤ s.clk.ppsBad) ∧
    (∃ s : State, s.clk.ppsValid = false) :=
  ⟨⟨0, unitS, 0, { up with time := { up.time with lastEdge := some 0 } }, by decide +kernel⟩,
   ⟨100, { up with time := { up.time with lastEdge := some 0 }, clk := { up.clk with ppsGood := 2 } }, by decide +kernel⟩,
   ⟨300000000, { up with time := { up.time with lastEdge := some 0 }, clk := { up.clk with ppsValid := true, ppsBad := 1 } }, by decide +kernel⟩,
   ⟨{ up with clk := { up.clk with ppsValid := true } }, by decide +kernel⟩,
   ⟨{ up with clk := { up.clk with ppsValid := true, ppsBad := 2 } }, by decide +kernel⟩,
   ⟨up, by decide +kernel⟩⟩

theorem test_witness_EpochsAndTimeSet :
    (∃ (d : Desc) (s : State), Ready .syncSchedule d s ∧ (let a := accepted .syncSchedule d s
      d.clean [(0x08, 13)] = true ∧ epochSecond d < 2 ^ 40 ∧ bits (d.u 0x12 1) 6 4 = 0 ∧ d.u 0x14 1 < 4 ∧ a.time.tb + 2 * unitS ≤ epochSecond d * unitS ∧ epochSecond d * unitS ≤ a.time.tb + 3600 * unitS ∧ epochMask d ≠ 0 ∧ (bit (d.u 0x12 1) 7 = true → inR (d.u 0x13 1) 1 16 = true ∧ outFunc (nth a.clk.outCfg (d.u 0x12 1 % 16) 0) = 2) ∧ a.pllOk = true ∧ (a.clk.ppsValid = true ∨ dBit d 0x14 1 = true) ∧ a.epochs = [])) ∧
    (∃ (ring : Fin 16) (f : Inflight) (s : State), s.waitsAt ring.val .epoch = some f ∧ s.clk.ppsValid = false ∧ dBit f.d 0x14 1 = false ∧ s.time.loadedAt ≠ some (epochSecond f.d, s.now)) ∧
    (∃ (ring : Fin 16) (f : Inflight) (s : State), s.waitsAt ring.val .epoch = some f ∧ (s.clk.ppsValid = true ∨ dBit f.d 0x14 1 = true) ∧ ∃ g : Fin 16, bit (epochMask f.d) g.val = true) ∧
    (∃ (d : Desc) (s : State), epochOutput d = none) ∧
    (∃ (d : Desc) (n : Nat) (s : State), epochOutput d = some n ∧ s.sysrefReady n = true ∧ s.hotSecondary = false) ∧
    (∃ (d : Desc) (n : Nat) (s : State), epochOutput d = some n ∧ s.sysrefReady n = false) ∧
    (∃ (d : Desc) (s : State), Ready .timeSet d s ∧ (let a := accepted .timeSet d s
      d.clean [(0x08, 13)] = true ∧ d.u 0x08 8 < 2 ^ 40 ∧ d.u 0x14 1 < 4 ∧ dBit d 0x14 0 = true ∧ (dBit d 0x14 1 = true ∨ ∀ c : Fin 128, (a.chan c.val).st ≠ .running))) ∧
    (∃ (d : Desc) (s : State), Ready .timeSet d s ∧ d.clean [(0x08, 13)] = true ∧ d.u 0x08 8 < 2 ^ 40 ∧ d.u 0x14 1 < 4 ∧ dBit d 0x14 0 = false) ∧
    (∃ (ring : Fin 16) (f : Inflight) (s : State), s.waitsAt ring.val .pps = some f ∧ s.clk.ppsValid = true ∧ (dBit f.d 0x14 1 = true ∨ ∀ c : Fin 128, (s.chan c.val).st ≠ .running)) ∧
    (∃ (ring : Fin 16) (f : Inflight) (s : State), s.waitsAt ring.val .pps = some f ∧ s.clk.ppsValid = false) :=
  ⟨⟨dsc 0 [(8, 3600), (0x10, 1), (0x12, 0x80), (0x13, 16)], { up with clk := { up.clk with ppsValid := true, outCfg := upd up.clk.outCfg 0 fun _ => 0x20C00000 } }, ready_of (by decide +kernel), by decide +kernel⟩,
   ⟨0, fly .syncSchedule .epoch (dsc 0 [(8, 3600), (0x10, 1)]), flying .syncSchedule .epoch (dsc 0 [(8, 3600), (0x10, 1)]) up, by decide +kernel⟩,
   ⟨0, fly .syncSchedule .epoch (dsc 0 [(8, 3600), (0x10, 1), (0x14, 2)]), flying .syncSchedule .epoch (dsc 0 [(8, 3600), (0x10, 1), (0x14, 2)]) up, by decide +kernel, by decide +kernel, 0, by decide +kernel⟩,
   ⟨dsc 0 [], up, by decide +kernel⟩,
   ⟨dsc 0 [(8, 3600), (0x10, 1), (0x12, 0x80), (0x13, 16)], 0, { up with clk := { up.clk with cfg := 0x91400500, outCfg := upd up.clk.outCfg 0 fun _ => 0xA0C003FF } }, by decide +kernel⟩,
   ⟨dsc 0 [(8, 3600), (0x10, 1), (0x12, 0x80), (0x13, 16)], 0, up, by decide +kernel⟩,
   ⟨dsc 0 [(8, 1099511627775), (0x14, 3)], up, ready_of (by decide +kernel), by decide +kernel⟩,
   ⟨dsc 0 [(8, 1099511627775)], up, ready_of (by decide +kernel), by decide +kernel⟩,
   ⟨0, fly .timeSet .pps (dsc 0 [(8, 5)]), flying .timeSet .pps (dsc 0 [(8, 5)]) { up with clk := { up.clk with ppsValid := true } }, by decide +kernel⟩,
   ⟨0, fly .timeSet .pps (dsc 0 [(8, 5)]), flying .timeSet .pps (dsc 0 [(8, 5)]) up, by decide +kernel⟩⟩

theorem test_witness_FabricPllRows :
    (∃ (pauseNs : Nat) (s : State), s.pwr.st = .active ∧ s.clk.fActive = false ∧ s.clk.f1Lock = true) ∧
    (∃ (pauseNs : Nat) (s : State), s.pwr.st = .active ∧ s.clk.fActive = true ∧ s.clk.f0Lock = true) ∧
    (∃ (pauseNs : Nat) (s : State), s.pwr.st = .active ∧ (if s.clk.fActive then s.clk.f0Lock else s.clk.f1Lock) = false) ∧
    (∃ s : State, s.pwr.st = .active) ∧
    (∃ s : State, s.pwr.st = .active ∧ s.clk.fActive = false) ∧
    (∃ s : State, s.pwr.st = .active ∧ s.clk.fActive = true) :=
  ⟨⟨100, up, by decide +kernel⟩,
   ⟨100, { up with clk := { up.clk with fActive := true } }, by decide +kernel⟩,
   ⟨100, { up with clk := { up.clk with f1Lock := false } }, by decide +kernel⟩,
   ⟨up, by decide +kernel⟩,
   ⟨up, by decide +kernel⟩,
   ⟨{ up with clk := { up.clk with fActive := true } }, by decide +kernel⟩⟩

theorem test_witness_StreamCommands :
    (∃ (d : Desc) (s : State) (i : Nat), Ready .streamOpen d s ∧ (let a := accepted .streamOpen d s
      d.handle = 0 ∧ streamOk a d = true ∧ (((((List.range 32).filter fun i => (a.stream i).st != .free).map fun i => (a.stream i).claim) ++
      a.opening d.ring.val).any (lanesClash (parOf d))) = false ∧ a.claimIdx 32 (fun i => (a.stream i).st == .free) = some i ∧ (let p := parOf d
      (let b := a.setStream i fun x => { Stream.reset with gen := x.gen, st := .bringup, par := p, lanes := p.map }
      GrantedNow b 0 (400 * p.l) d.waitForPower)))) ∧
    (∃ (d : Desc) (s : State), Ready .streamOpen d s ∧ (let a := accepted .streamOpen d s
      (let i := hIdx d.handle
      d.handle ≠ 0 ∧ (a.stream i).st = .held ∧ (a.stream i).reopening = false ∧ streamOk a d = true ∧ (((((List.range 32).filter fun j => (a.stream j).st != .free && !(j == i)).map fun j => (a.stream j).claim) ++
      a.opening d.ring.val).any (lanesClash (parOf d))) = false ∧ (let p := parOf d
      (let b := a.setStream i fun x => { x with reopening := true }
      (let cold := p.map.filter fun l => (b.lane l).pstate == 2
      (cold = [] ∨ GrantedNow b 0 (400 * cold.length) d.waitForPower))))))) ∧
    (∃ (d : Desc) (s : State), Ready .streamClose d s ∧ (let a := accepted .streamClose d s
      (let i := hIdx d.handle
      d.clean [(0x08, 1)] = true ∧ d.u 0x08 1 ≤ 1 ∧ a.streamUsed i d.ring.val = false ∧ dBit d 0x08 0 = false))) ∧
    (∃ (d : Desc) (s : State), Ready .streamClose d s ∧ (let a := accepted .streamClose d s
      (let i := hIdx d.handle
      d.clean [(0x08, 1)] = true ∧ d.u 0x08 1 ≤ 1 ∧ a.streamUsed i d.ring.val = false ∧ dBit d 0x08 0 = true))) ∧
    (∃ (d : Desc) (s : State), Ready .streamStatus d s ∧ (let a := accepted .streamStatus d s
      d.clean [(0x08, 12)] = true ∧ 128 ≤ d.u 0x10 4 ∧ addrOk (d.u 0x08 8) (d.u 0x10 4) 64 = true ∧ (a.stream (hIdx d.handle)).lanes.length ≤ 16 ∧ (a.hostPort (a.flightPort d.ring.val).val).linkUp = true)) :=
  ⟨⟨dsc 0 params0, up, 0, ready_of (by decide +kernel), by decide +kernel⟩,
   ⟨dsc (hd 1 0) params0, withStream (fun x => { x with st := .held }) up, ready_of (by decide +kernel), by decide +kernel⟩,
   ⟨dsc (hd 1 0) [], withStream id up, ready_of (by decide +kernel), by decide +kernel⟩,
   ⟨dsc (hd 1 0) [(8, 1)], withStream id up, ready_of (by decide +kernel), by decide +kernel⟩,
   ⟨dsc (hd 1 0) [(0x10, 128)], withStream id up, ready_of (by decide +kernel), by decide +kernel⟩⟩

theorem test_witness_LaneBringUpRows :
    (∃ (lane : Fin 64) (info : LaneInfo) (i : Nat) (s : State), s.laneStream lane.val = some i ∧ (s.stream i).rising = true ∧ (s.lane lane.val).stage = 1) ∧
    (∃ (lane : Fin 64) (info : LaneInfo) (i : Nat) (s : State), s.laneStream lane.val = some i ∧ (s.stream i).rising = true ∧ (s.lane lane.val).stage = 2) ∧
    (∃ (lane : Fin 64) (info : LaneInfo) (i : Nat) (s : State), s.laneStream lane.val = some i ∧ (s.stream i).rising = true ∧ (s.lane lane.val).stage = 3) ∧
    (∃ (lane : Fin 64) (info : LaneInfo) (i : Nat) (s : State), s.laneStream lane.val = some i ∧ (s.stream i).rising = true ∧ (s.lane lane.val).stage = 4) ∧
    (∃ (lane : Fin 64) (info : LaneInfo) (i : Nat) (s : State), s.laneStream lane.val = some i ∧ (s.stream i).rising = true ∧ (s.lane lane.val).stage = 5) ∧
    (∃ (lane : Fin 64) (info : LaneInfo) (i : Nat) (s : State), s.laneStream lane.val = some i ∧ (s.stream i).rising = true ∧ (s.lane lane.val).stage = 6 ∧ (s.lane lane.val).marker = (s.lane lane.val).polInverted) ∧
    (∃ (lane : Fin 64) (info : LaneInfo) (i : Nat) (s : State), s.laneStream lane.val = some i ∧ (s.stream i).rising = true ∧ (s.lane lane.val).stage = 6 ∧ (s.lane lane.val).marker ≠ (s.lane lane.val).polInverted) ∧
    (∃ (lane : Fin 64) (info : LaneInfo) (i : Nat) (s : State), s.laneStream lane.val = some i ∧ (s.stream i).rising = true ∧ (s.lane lane.val).stage = 7 ∧ (s.lane lane.val).order = none ∧ info.orderFits = true ∧ info.logical < (s.stream i).par.l ∧ (∀ y ∈ (s.stream i).lanes, y ≠ lane.val → (s.lane y).order ≠ some info.logical)) ∧
    (∃ (lane : Fin 64) (info : LaneInfo) (i : Nat) (s : State), s.laneStream lane.val = some i ∧ (s.stream i).rising = true ∧ (s.lane lane.val).stage = 7 ∧ (s.lane lane.val).order ≠ none) ∧
    (∃ (lane : Fin 64) (info : LaneInfo) (i : Nat) (s : State), s.laneStream lane.val = some i ∧ (s.stream i).rising = true ∧ (s.lane lane.val).stage = 8 ∧ s.pllOk = true ∧ (s.stream i).deskewed = false ∧ (∀ y ∈ (s.stream i).lanes, (s.lane y).stage = 8)) ∧
    (∃ (lane : Fin 64) (info : LaneInfo) (s : State), s.laneStream lane.val = none) ∧
    (∃ (lane : Fin 64) (i : Nat) (s : State), s.laneStream lane.val = some i ∧ (s.stream i).rising = true ∧ 2 ≤ (s.lane lane.val).stage ∧ ((s.lane lane.val).stage ≤ 6 ∨ (s.lane lane.val).stage = 7 ∧ (s.lane lane.val).order = none ∨
      (s.lane lane.val).stage = 8 ∧ (s.stream i).deskewed = false ∧ s.pllOk = true ∧ (∀ y ∈ (s.stream i).lanes, (s.lane y).stage = 8))) ∧
    (∃ (lane : Fin 64) (s : State), (s.lane lane.val).warm = true ∧ 2 ≤ (s.lane lane.val).stage ∧ (s.lane lane.val).stage ≤ 4) ∧
    (∃ (lane : Fin 64) (cause : Fin 4) (i : Nat) (s : State), s.laneStream lane.val = some i ∧ (s.stream i).st = .up) ∧
    (∃ (lane : Fin 64) (cause : Fin 4) (i : Nat) (s : State), s.laneStream lane.val = some i ∧ (s.stream i).rising = true ∧ (s.lane lane.val).stage ≠ 0 ∧ cause.val ≠ 3) :=
  ⟨⟨0, ⟨false, 0, true, 0⟩, 0, rising 1, by decide +kernel⟩,
   ⟨0, ⟨false, 0, true, 0⟩, 0, rising 2, by decide +kernel⟩,
   ⟨0, ⟨false, 0, true, 0⟩, 0, rising 3, by decide +kernel⟩,
   ⟨0, ⟨false, 0, true, 0⟩, 0, rising 4, by decide +kernel⟩,
   ⟨0, ⟨true, 0, true, 0⟩, 0, rising 5, by decide +kernel⟩,
   ⟨0, ⟨false, 0, true, 0⟩, 0, rising 6, by decide +kernel⟩,
   ⟨0, ⟨false, 0, true, 0⟩, 0, (rising 6).setLane 0 fun l => { l with marker := true }, by decide +kernel⟩,
   ⟨0, ⟨false, 0, true, 48000⟩, 0, rising 7, by decide +kernel⟩,
   ⟨0, ⟨false, 0, true, 48000⟩, 0, (rising 7).setLane 0 fun l => { l with order := some 0 }, by decide +kernel⟩,
   ⟨0, ⟨false, 0, true, 48000⟩, 0, (rising 8).setStream 0 fun x => { x with deskewed := false }, by decide +kernel⟩,
   ⟨0, ⟨false, 0, true, 0⟩, up, by decide +kernel⟩,
   ⟨0, 0, (withStream (fun x => { x with st := .bringup }) up).setLane 0 fun l => { l with stage := 7 }, by decide +kernel⟩,
   ⟨0, up.setLane 0 fun l => { l with warm := true, stage := 4 }, by decide +kernel⟩,
   ⟨0, 0, 0, withStream id up, by decide +kernel⟩,
   ⟨0, 0, 0, (withStream (fun x => { x with st := .bringup }) up).setLane 0 fun l => { l with stage := 9 }, by decide +kernel⟩⟩

theorem test_witness_StreamDataRows :
    (∃ (i : Fin 32) (latest : Fin 64) (ns : Int) (sub : Fin 1000) (s : State), (s.stream i.val).rising = true ∧ (s.stream i.val).deskewed = true ∧ s.pllOk = true ∧ (let ps := ns * 1000 + (sub.val : Int)
      (s.stream i.val).par.inTime ps = true)) ∧
    (∃ (i : Fin 32) (latest : Fin 64) (ns : Int) (sub : Fin 1000) (s : State), (s.stream i.val).rising = true ∧ (s.stream i.val).deskewed = true ∧ s.pllOk = true ∧ (let ps := ns * 1000 + (sub.val : Int)
      (s.stream i.val).par.inTime ps = false ∧ (s.stream i.val).lateEpisode = false)) ∧
    (∃ (i : Fin 32) (latest : Fin 64) (ns : Int) (sub : Fin 1000) (s : State), (s.stream i.val).rising = true ∧ (s.stream i.val).deskewed = true ∧ s.pllOk = true ∧ (let ps := ns * 1000 + (sub.val : Int)
      (s.stream i.val).par.inTime ps = false ∧ (s.stream i.val).lateEpisode = true)) ∧
    (∃ (i : Fin 32) (latest : Fin 64) (ps : Int) (edge : Nat) (s : State), (s.stream i.val).everUp = false ∧ s.time.afterLoss.getLsbD (s.stream i.val).par.group.val = false) ∧
    (∃ (i : Fin 32) (mb : Multiblock) (s : State), (s.stream i.val).st.runs = false) ∧
    (∃ (i : Fin 32) (mb : Multiblock) (s : State), (s.stream i.val).st.runs = true ∧ (s.stream i.val).st ≠ .up) ∧
    (∃ (i : Fin 32) (mb : Multiblock) (s : State), (s.stream i.val).st.runs = true ∧ (s.stream i.val).st = .up) ∧
    (∃ (counts : List (BitVec 16)) (s : State), counts.length = 4096 ∧ s.eye.busy = true) ∧
    (∃ (counts : List (BitVec 16)) (s : State), counts.length ≠ 4096) :=
  ⟨⟨0, 0, 0, 0, withStream (fun x => { x with st := .bringup }) up, by decide +kernel⟩,
   ⟨0, 0, 1000, 0, withStream (fun x => { x with st := .bringup }) up, by decide +kernel⟩,
   ⟨0, 0, 1000, 999, withStream (fun x => { x with st := .bringup, lateEpisode := true }) up, by decide +kernel⟩,
   ⟨0, 0, 0, 0, withStream (fun x => { x with st := .bringup, everUp := false }) up, by decide +kernel⟩,
   ⟨0, ⟨[], [], [], [], false, none⟩, up, by decide +kernel⟩,
   ⟨0, ⟨[], [], [], [], false, none⟩, withStream (fun x => { x with st := .bringup }) up, by decide +kernel⟩,
   ⟨0, ⟨[[1]], [], [], [], false, none⟩, withStream id up, by decide +kernel⟩,
   ⟨List.replicate 4096 0, { up with eye := { up.eye with busy := true } }, by decide +kernel⟩,
   ⟨[], up, by decide +kernel⟩⟩

theorem test_witness_ChannelCommands :
    (∃ (d : Desc) (s : State) (k : Nat) (es : List Nat) (slot : Nat), Ready .chanCreate d s ∧ (let a := accepted .chanCreate d s
      (let i := hIdx d.handle
      (a.stream i).st ≠ .held ∧ d.clean [] = true ∧ a.claimIdx (if a.ident.small then 64 else 128) (fun k => (a.chan k).st == .empty) = some k ∧ a.placeEngine (a.stream i).load = some (es, slot)))) ∧
    (∃ (d : Desc) (s : State), Ready .chanDestroy d s ∧ (let a := accepted .chanDestroy d s
      (a.chan (hIdx d.handle)).emits = false ∧ d.clean [] = true ∧ a.chanUsed (hIdx d.handle) = false)) ∧
    (∃ (d : Desc) (s : State), Ready .chanStart d s ∧ (let a := accepted .chanStart d s
      (let ch := hIdx d.handle
      (a.chan ch).st = .stopped ∧ (a.chan ch).waiting = false ∧ d.clean [(0x08, 9)] = true ∧ d.u 0x10 1 ≤ 3 ∧ (let b := a.setChan ch fun c => { c with waiting := true }
      GrantedNow b 1 (a.chanCost ch) d.waitForPower ∧ (let g := withGrant b (.chan ch) (a.chanCost ch)
      (let x := g.stream (g.chan ch).stream
      ∃ k : Nat, x.st = .up ∧ x.next = some k)))))) ∧
    (∃ (d : Desc) (s : State), Ready .chanStart d s ∧ (let a := accepted .chanStart d s
      (let ch := hIdx d.handle
      (a.chan ch).st = .stopped ∧ (a.chan ch).waiting = false ∧ d.clean [(0x08, 9)] = true ∧ d.u 0x10 1 ≤ 3 ∧ (let b := a.setChan ch fun c => { c with waiting := true }
      GrantedNow b 1 (a.chanCost ch) d.waitForPower ∧ (let g := withGrant b (.chan ch) (a.chanCost ch)
      (let x := g.stream (g.chan ch).stream
      (x.st ≠ .up ∨ x.next = none))))))) ∧
    (∃ (d : Desc) (s : State), Ready .chanResume d s ∧ (let a := accepted .chanResume d s
      (let ch := hIdx d.handle
      (a.chan ch).st = .halted ∧ (a.chan ch).waiting = false ∧ d.clean [(0x08, 9)] = true ∧ d.u 0x10 1 ≤ 3 ∧ (let b := a.setChan ch fun c => { c with waiting := true }
      GrantedNow b 1 (a.chanCost ch) d.waitForPower ∧ (let g := withGrant b (.chan ch) (a.chanCost ch)
      (let x := g.stream (g.chan ch).stream
      ∃ k : Nat, x.st = .up ∧ x.next = some k)))))) ∧
    (∃ (d : Desc) (s : State), Ready .chanResume d s ∧ (let a := accepted .chanResume d s
      (let ch := hIdx d.handle
      (a.chan ch).st = .halted ∧ (a.chan ch).waiting = false ∧ d.clean [(0x08, 9)] = true ∧ d.u 0x10 1 ≤ 3 ∧ (let b := a.setChan ch fun c => { c with waiting := true }
      GrantedNow b 1 (a.chanCost ch) d.waitForPower ∧ (let g := withGrant b (.chan ch) (a.chanCost ch)
      (let x := g.stream (g.chan ch).stream
      (x.st ≠ .up ∨ x.next = none))))))) ∧
    (∃ (d : Desc) (s : State), Ready .chanStop d s ∧ d.clean [] = true ∧ (let a := accepted .chanStop d s
      (let ch := hIdx d.handle
      (a.chan ch).st = .running))) ∧
    (∃ (d : Desc) (s : State), Ready .chanStop d s ∧ d.clean [] = true ∧ (let a := accepted .chanStop d s
      (let ch := hIdx d.handle
      (a.chan ch).st = .draining))) ∧
    (∃ (d : Desc) (s : State), Ready .chanStop d s ∧ d.clean [] = true ∧ (let a := accepted .chanStop d s
      (let ch := hIdx d.handle
      ((a.chan ch).st = .starved ∨ (a.chan ch).st = .halted)))) ∧
    (∃ (d : Desc) (s : State), Ready .chanStop d s ∧ d.clean [] = true ∧ (let a := accepted .chanStop d s
      (let ch := hIdx d.handle
      (a.chan ch).st = .stopped))) :=
  ⟨⟨dsc (hd 1 0) [], withStream id up, 0, [0], 0, ready_of (by decide +kernel), by decide +kernel⟩,
   ⟨dsc (hd 2 0) [], withChan id, ready_of (by decide +kernel), by decide +kernel⟩,
   ⟨dsc (hd 2 0) [(8, 1000), (0x10, 1)], withChan id, ready_of (by decide +kernel), by decide +kernel, by decide +kernel, by decide +kernel, by decide +kernel, by decide +kernel, 1000, by decide +kernel⟩,
   ⟨dsc (hd 2 0) [(8, 1000), (0x10, 1)], (withChan id).setStream 0 fun x => { x with st := .down }, ready_of (by decide +kernel), by decide +kernel⟩,
   ⟨dsc (hd 2 0) [(0x10, 3)], withChan fun c => { c with st := .halted }, ready_of (by decide +kernel), by decide +kernel, by decide +kernel, by decide +kernel, by decide +kernel, by decide +kernel, 1000, by decide +kernel⟩,
   ⟨dsc (hd 2 0) [(0x10, 3)], (withChan fun c => { c with st := .halted }).setStream 0 fun x => { x with st := .down }, ready_of (by decide +kernel), by decide +kernel⟩,
   ⟨dsc (hd 2 0) [], withChan running, ready_of (by decide +kernel), by decide +kernel⟩,
   ⟨dsc (hd 2 0) [], withChan fun c => { c with st := .draining }, ready_of (by decide +kernel), by decide +kernel⟩,
   ⟨dsc (hd 2 0) [], withChan fun c => { c with st := .halted }, ready_of (by decide +kernel), by decide +kernel⟩,
   ⟨dsc (hd 2 0) [], withChan id, ready_of (by decide +kernel), by decide +kernel⟩⟩

theorem test_witness_ChannelSetUpCommands :
    (∃ (d : Desc) (s : State), Ready .chanTune d s ∧ d.clean [(0x08, 6), (0x10, 9)] = true ∧ d.u 0x18 1 ≤ 1 ∧ (let a := accepted .chanTune d s
      (let ch := hIdx d.handle
      (a.chan ch).st ≠ .draining ∧ (a.chan ch).st ≠ .running ∧ dBit d 0x18 0 = false))) ∧
    (∃ (d : Desc) (s : State), Ready .chanTune d s ∧ d.clean [(0x08, 6), (0x10, 9)] = true ∧ d.u 0x18 1 ≤ 1 ∧ (let a := accepted .chanTune d s
      (let ch := hIdx d.handle
      (a.chan ch).st = .running ∧ dBit d 0x18 0 = false))) ∧
    (∃ (d : Desc) (s : State), Ready .chanTune d s ∧ d.clean [(0x08, 6), (0x10, 9)] = true ∧ d.u 0x18 1 ≤ 1 ∧ (let a := accepted .chanTune d s
      (let ch := hIdx d.handle
      (let now := (a.stream (a.chan ch).stream).next.getD 0
      (a.chan ch).st ≠ .draining ∧ dBit d 0x18 0 = true ∧ ((a.chan ch).st = .running → now ≤ d.u 0x10 8 ∧ d.u 0x10 8 < 2 ^ 40 + now))))) ∧
    (∃ (d : Desc) (p : SpecSet) (s : State), Ready .chanFilter d s ∧ (let a := accepted .chanFilter d s
      (let ch := hIdx d.handle
      (a.chan ch).st = .stopped ∧ feOk (a.stream (a.chan ch).stream).par.fs d = true ∧ filterClaim d a = .ok p ∧ d.u 0x09 1 ≠ 0x3F))) ∧
    (∃ (d : Desc) (p : SpecSet) (s : State), Ready .chanFilter d s ∧ (let a := accepted .chanFilter d s
      (let ch := hIdx d.handle
      (a.chan ch).st = .stopped ∧ feOk (a.stream (a.chan ch).stream).par.fs d = true ∧ filterClaim d a = .ok p ∧ d.u 0x09 1 = 0x3F ∧ (a.hostPort (a.flightPort d.ring.val).val).linkUp = true))) ∧
    (∃ (d : Desc) (s : State), Ready .chanSpectral d s ∧ (let a := accepted .chanSpectral d s
      (let ch := hIdx d.handle
      (a.chan ch).st = .stopped ∧ d.u 0x08 1 = 0 ∧ d.clean [(0x08, 20)] = true ∧ a.hasConsumers ch = false))) ∧
    (∃ (d : Desc) (p : SpecSet) (s : State), Ready .chanSpectral d s ∧ (let a := accepted .chanSpectral d s
      (let ch := hIdx d.handle
      (a.chan ch).st = .stopped ∧ d.u 0x08 1 ≠ 0 ∧ specOk a d = true ∧ spectralClaim d a = .ok p ∧ (let user := d.u 0x08 1 = 1 ∧ d.u 0x0B 1 = 0x3F
      ¬ user)))) ∧
    (∃ (d : Desc) (p : SpecSet) (s : State), Ready .chanSpectral d s ∧ (let a := accepted .chanSpectral d s
      (let ch := hIdx d.handle
      (a.chan ch).st = .stopped ∧ d.u 0x08 1 ≠ 0 ∧ specOk a d = true ∧ spectralClaim d a = .ok p ∧ (let user := d.u 0x08 1 = 1 ∧ d.u 0x0B 1 = 0x3F
      user ∧ (a.hostPort (a.flightPort d.ring.val).val).linkUp = true)))) ∧
    (∃ (d : Desc) (s : State), Ready .chanProducts d s ∧ (let a := accepted .chanProducts d s
      (let ch := hIdx d.handle
      (let p := prodOf d
      (a.chan ch).st = .stopped ∧ (a.chan ch).sp.type ≠ 0 ∧ (p.partner ≠ 0 → a.valid 2 p.partner = true) ∧ prodOk a ch d = true ∧ p.mask ≠ 0 ∧ p.store + a.storeTaken ch ≤ 2 ^ 26 ∧ ((p.mask.getLsbD 5 || p.mask.getLsbD 6) = true →
      ((List.range 128).filter fun i => i != ch && (a.chan i).isX).length < 64))))) ∧
    (∃ (d : Desc) (s : State), Ready .chanProducts d s ∧ (let a := accepted .chanProducts d s
      (let ch := hIdx d.handle
      (a.chan ch).st = .stopped ∧ d.u 0x08 2 = 0 ∧ (prodOf d).partner = 0 ∧ prodOk a ch d = true))) :=
  ⟨⟨dsc (hd 2 0) [(8, 5)], withChan id, ready_of (by decide +kernel), by decide +kernel⟩,
   ⟨dsc (hd 2 0) [(8, 5)], withChan running, ready_of (by decide +kernel), by decide +kernel⟩,
   ⟨dsc (hd 2 0) [(8, 5), (0x10, 1000), (0x18, 1)], withChan running, ready_of (by decide +kernel), by decide +kernel⟩,
   ⟨dsc (hd 2 0) [], .off, withChan plain, ready_of (by decide +kernel), by decide +kernel⟩,
   ⟨dsc (hd 2 0) [(9, 0x3F), (0x28, 1)], .off, withChan plain, ready_of (by decide +kernel), by decide +kernel⟩,
   ⟨dsc (hd 2 0) [], withChan id, ready_of (by decide +kernel), by decide +kernel⟩,
   ⟨dsc (hd 2 0) [(8, 1), (9, 6)], ⟨1, 6, 64, 0, 0, [], 1⟩, withChan id, ready_of (by decide +kernel), by decide +kernel⟩,
   ⟨dsc (hd 2 0) [(8, 1), (9, 6), (0x0B, 0x3F), (0x18, 64)], ⟨1, 6, 64, 0x3F, 0, [], 1⟩, withChan id, ready_of (by decide +kernel), by decide +kernel⟩,
   ⟨dsc (hd 2 0) [(8, 4), (0x10, 64), (0x14, 16777216)], withChan id, ready_of (by decide +kernel), by decide +kernel⟩,
   ⟨dsc (hd 2 0) [], withChan id, ready_of (by decide +kernel), by decide +kernel⟩⟩

theorem test_witness_FrontEndRows :
    (∃ (ch : Fin 128) (x : Nat) (c' : Chan) (y : Smp) (s : State), (s.chan ch.val).dueIndex = some x ∧ (s.chan ch.val).takeInputs x (s.chan ch.val).inq = (c', some y)) ∧
    (∃ (ch : Fin 128) (s : State), (s.chan ch.val).st = .running) ∧
    (∃ (ch : Fin 128) (s : State), (s.chan ch.val).st = .draining) ∧
    (∃ (ch : Fin 128) (s : State), (s.chan ch.val).emits = false) ∧
    (∃ (ch : Fin 128) (f : Int) (kr n : Nat) (s : State), (s.chan ch.val).tune = some (f, kr) ∧ (s.chan ch.val).st = .running ∧ (s.stream (s.chan ch.val).stream).next = some n ∧ kr < n ∧ (∀ x, (s.chan ch.val).dueIndex = some x → kr ≤ x) ∧ (s.chan ch.val).inq = [] ∧ (s.chan ch.val).tuneQ = []) ∧
    (∃ (ch : Fin 128) (s : State), ((s.chan ch.val).tune = none ∨ (s.chan ch.val).st ≠ .running)) ∧
    (∃ (ch : Fin 128) (p ms r e : Nat) (w : Flags) (nco : Int) (s : State), (s.chan ch.val).det.res = some (p, ms, r, e, w, nco) ∧ (∀ l : Fin 4, (nth (s.chan ch.val).cond l.val .off).type ≠ 1) ∧ s.valid 3 (s.chan ch.val).fe.detRegion = true ∧ (s.chan ch.val).det.buf.length < 255) ∧
    (∃ (ch : Fin 128) (s : State), (s.chan ch.val).det.res = none) ∧
    (∃ (ch : Fin 128) (s : State), (s.chan ch.val).st = .draining ∧ (s.chan ch.val).dueIndex = none ∧ ((s.chan ch.val).sp.type = 0 ∨ (s.chan ch.val).frameOf (s.chan ch.val).nextSpec = none)) ∧
    (∃ (ch : Fin 128) (s : State), (s.chan ch.val).st ≠ .draining) :=
  ⟨⟨0, 0, _, _, withChan fun c => running { c with inq := [⟨0, ⟨1, 2, 0⟩⟩] }, by decide +kernel, rfl⟩,
   ⟨0, withChan running, by decide +kernel⟩,
   ⟨0, withChan fun c => { c with st := .draining }, by decide +kernel⟩,
   ⟨0, withChan id, by decide +kernel⟩,
   ⟨0, 5, 999, 1000, withChan fun c => running { c with tune := some (5, 999), nextOut := 999 }, by decide +kernel, by decide +kernel, by decide +kernel, by decide +kernel, (by intro x h; have e : some 999 = some x := h; cases e; decide), by decide +kernel⟩,
   ⟨0, withChan id, by decide +kernel⟩,
   ⟨0, 1, 2, 3, 4, 0, 0, withChan fun c => { c with fe := { c.fe with detRegion := hd 3 0 }, det := { c.det with res := some (1, 2, 3, 4, 0, 0) } }, by decide +kernel⟩,
   ⟨0, withChan id, by decide +kernel⟩,
   ⟨0, withChan fun c => { plain c with st := .draining, drainAt := some 0, nextOut := 1 }, by decide +kernel⟩,
   ⟨0, withChan running, by decide +kernel⟩⟩

theorem test_witness_SpectrumAndProductRows :
    (∃ (ch : Fin 128) (f : List OutSmp) (s : State), (s.chan ch.val).emits = true ∧ (s.chan ch.val).sp.type ≠ 0 ∧ (s.chan ch.val).sp.l ≤ 16 ∧ (s.chan ch.val).frameOf (s.chan ch.val).nextSpec = some f) ∧
    (∃ (ch : Fin 128) (f : List OutSmp) (lost : List Nat) (waits : Nat) (s : State), (s.chan ch.val).emits = true ∧ (s.chan ch.val).sp.type ≠ 0 ∧ 17 ≤ (s.chan ch.val).sp.l ∧ (s.chan ch.val).frameOf (s.chan ch.val).nextSpec = some f) ∧
    (∃ (ch : Fin 128) (lost : List Nat) (f : List OutSmp) (s : State), (s.chan ch.val).frameOf (s.chan ch.val).nextSpec = some f ∧ (s.chan ch.val).supFill = true ∧ (orAll (f.map (·.smp.flags))).has fFill = true) ∧
    (∃ (ch : Fin 128) (err : Bool) (lost : List Nat) (waits : Nat) (s : State), ((s.chan ch.val).emits = false ∨ (s.chan ch.val).frameOf (s.chan ch.val).nextSpec = none)) ∧
    (∃ (ch : Fin 128) (err : Bool) (lost : List Nat) (waits : Nat) (s : State), 17 ≤ (s.chan ch.val).sp.l) ∧
    (∃ (ch : Fin 128) (err : Bool) (lost : List Nat) (waits : Nat) (s : State), (s.chan ch.val).sp.l < 17) ∧
    (∃ (ch : Fin 128) (err : Bool) (lost : List Nat) (waits : Nat) (s : State), (s.chan ch.val).sk = none) ∧
    (∃ (ch : Fin 128) (s : State), (s.chan ch.val).cal.wait = []) ∧
    (∃ (ch : Fin 128) (s : State), (s.chan ch.val).pairWait = []) ∧
    (∃ (ch : Fin 128) (a : Bool × Nat × Spectrum) (p : Bool × Spectrum) (ps : List (Bool × Spectrum)) (cs : List (Bool × Nat × Spectrum)) (s : State), (s.chan ch.val).pairWait = p :: ps ∧ (s.chan ch.val).cal.wait = a :: cs) ∧
    (∃ (ch : Fin 128) (lost : List Nat) (a : ProdAcc) (s : State), (s.chan ch.val).sk = some a ∧ a.first + a.span ≤ (s.chan ch.val).nextSpec) ∧
    (∃ (ch : Fin 128) (lost : List Nat) (a : ProdAcc) (s : State), (s.chan ch.val).sk = some a ∧ (s.chan ch.val).nextSpec < a.first + a.span) :=
  ⟨⟨0, frame 0, withChan fun c => running { c with outs := frame 0 }, by decide +kernel⟩,
   ⟨0, bigOuts, [], 0, bigState, by decide +kernel, by decide +kernel, by decide +kernel, big_frame⟩,
   ⟨0, [], frame fFill, withChan fun c => running { c with outs := frame fFill, supFill := true }, by decide +kernel⟩,
   ⟨0, false, [], 0, withChan id, by decide +kernel⟩,
   ⟨0, false, [], 0, withChan fun c => { c with sp := ⟨1, 17, 131072, 0, hd 3 0, [], 1⟩ }, by decide +kernel⟩,
   ⟨0, false, [], 0, withChan id, by decide +kernel⟩,
   ⟨0, false, [], 0, withChan id, by decide +kernel⟩,
   ⟨0, withChan fun c => { c with pairWait := [(true, sp0)] }, by decide +kernel⟩,
   ⟨0, withChan fun c => { c with cal := { c.cal with wait := [(true, 0, sp0)] } }, by decide +kernel⟩,
   ⟨0, (true, 0, sp0), (true, sp0), [], [], withChan fun c => { c with pairWait := [(true, sp0)], cal := { c.cal with wait := [(true, 0, sp0)] } }, by decide +kernel⟩,
   ⟨0, [], acc0, withChan fun c => { c with sk := some acc0, nextSpec := 1 }, by decide +kernel⟩,
   ⟨0, [], acc0, withChan fun c => { c with sk := some acc0 }, by decide +kernel⟩⟩

theorem test_witness_DensityRows :
    (∃ (d : Desc) (s : State), Ready .densSet d s ∧ (let a := accepted .densSet d s
      (let ch := hIdx d.handle
      (let p := d.u 0x08 1
      (let rh := BitVec.ofNat 32 (d.u 0x20 4)
      dBit d 0x09 0 = true ∧ (a.chan ch).st ≠ .draining ∧ (a.chan ch).sp.type ≠ 0 ∧ a.valid 3 rh = true ∧ densOk a ch d = true ∧ ((a.plane p).chan = none ∨ (a.plane p).chan = some ch) ∧ a.writerBusy (hIdx rh) (.density p) = false ∧ (planeOf d.params ch 0 0).bd * (a.stream (a.chan ch).stream).par.fs ≤ 4000000000 * (a.chan ch).sp.h * (a.chan ch).fe.d ∧ (let b := (a.setWriter (hIdx rh) (.density p)).setPlane p fun x => { x with chan := some ch }
      ((a.plane p).grant ≠ 0 ∨ GrantedNow b 1 550 d.waitForPower))))))) ∧
    (∃ (d : Desc) (s : State), Ready .densSet d s ∧ (let a := accepted .densSet d s
      dBit d 0x09 0 = false ∧ densOk a (hIdx d.handle) d = true ∧ (a.plane (d.u 0x08 1)).chan = some (hIdx d.handle))) ∧
    (∃ (d : Desc) (s : State), Ready .densSnapshot d s ∧ (let a := accepted .densSnapshot d s
      (let p := d.u 0x08 1
      d.clean [(0x08, 2)] = true ∧ p ≤ 7 ∧ d.u 0x09 1 ≤ 1 ∧ ((a.plane p).bound (hIdx d.handle)).isSome = true ∧ (a.chan (hIdx d.handle)).st = .running ∧ (a.planeSlot p (slotBytes (32 + 1024 * (a.planeView p).cols))).isSome = true))) ∧
    (∃ (p : Fin 8) (lost : List Nat) (s : State), (let next := ((s.plane p.val).chan.map fun ch => (s.chan ch).nextSpec).getD 0
      (s.plane p.val).atBoundary next = true)) ∧
    (∃ (p : Fin 8) (lost : List Nat) (s : State), (let next := ((s.plane p.val).chan.map fun ch => (s.chan ch).nextSpec).getD 0
      (s.plane p.val).atBoundary next = false)) ∧
    (∃ (p : Fin 8) (s : State), (s.plane p.val).snaps = [] ∧ (s.plane p.val).period = 0 ∧ (s.plane p.val).next = none ∧ (s.plane p.val).chan = none) ∧
    (∃ (cells : List (Nat × Nat)) (k : Nat), (cells.map (·.1)).Pairwise (· < ·)) :=
  ⟨⟨dsc (hd 2 0) [(9, 1), (0x10, 64), (0x18, 1), (0x20, 0x03000100)], withChan id, ready_of (by decide +kernel), by decide +kernel⟩,
   ⟨dsc (hd 2 0) [], (withChan id).setPlane 0 fun _ => plane0, ready_of (by decide +kernel), by decide +kernel⟩,
   ⟨dsc (hd 2 0) [(9, 1)], (withChan running).setPlane 0 fun _ => plane0, ready_of (by decide +kernel), by decide +kernel⟩,
   ⟨0, [], (withChan fun c => running { c with nextSpec := 1 }).setPlane 0 fun _ => { plane0 with frame := some 0 }, by decide +kernel⟩,
   ⟨0, [], (withChan id).setPlane 0 fun _ => plane0, by decide +kernel⟩,
   ⟨0, up, by decide +kernel⟩,
   ⟨[(5, 1), (6, 2)], 1, by decide +kernel⟩⟩

theorem test_witness_TriggerCommands :
    (∃ (d : Desc) (s : State), Ready .trigSet d s ∧ (let a := accepted .trigSet d s
      (let ch := hIdx d.handle
      d.clean [(0x08, 40)] = true ∧ d.u 0x08 1 ≤ 3 ∧ d.u 0x0A 1 < 8 ∧ dBit d 0x0A 0 = false ∧ (condOf d).type ≤ 8 ∧ ((condOf d).type = 0 ∨ (condOf d).type = 7 ∨ (condOf d).type = 8 ∨ (1 ≤ (condOf d).q ∧ 1 ≤ (condOf d).r)) ∧ condFieldsOk a ch (condOf d) = true ∧ ((condOf d).spectral = true → (a.chan ch).sp.type ≠ 0) ∧ ((condOf d).type = 4 → ((nth a.planes ((condOf d).s1 % 8) .reset).bound ch).isSome = true) ∧ ((condOf d).type = 6 → a.valid 6 ((condOf d).u1.setWidth 32) = true ∧ (nth a.sweeps (hIdx ((condOf d).u1.setWidth 32)) .reset).chan = ch) ∧ ((condOf d).type = 7 → a.pins.isTrigIn (condOf d).s1 = true)))) ∧
    (∃ (d : Desc) (s : State), Ready .trigSet d s ∧ (let a := accepted .trigSet d s
      (let ch := hIdx d.handle
      d.clean [(0x08, 40)] = true ∧ d.u 0x08 1 ≤ 3 ∧ d.u 0x0A 1 < 8 ∧ dBit d 0x0A 0 = true ∧ (dBit d 0x0A 1 = true → ∀ j : Nat, (a.chan ch).lastOut = some j → j * (a.chan ch).fe.d ≤ d.u 0x28 8) ∧ (nth (a.chan ch).cond (d.u 0x08 1) .off).type = 8 ∧ (a.chan ch).st = .running))) ∧
    (∃ (d : Desc) (s : State), Ready .trigMaskLoad d s ∧ (let a := accepted .trigMaskLoad d s
      d.clean [(0x08, 1), (0x0A, 14)] = true ∧ d.u 0x08 1 ≤ 3 ∧ d.u 0x0A 2 ≤ 1024 ∧ d.u 0x0A 2 ≠ 0 ∧ addrOk (d.u 0x10 8) (8 * d.u 0x0A 2) 8 = true ∧ (a.chan (hIdx d.handle)).sp.type ≠ 0 ∧ (a.hostPort (a.flightPort d.ring.val).val).linkUp = true)) ∧
    (∃ (d : Desc) (s : State), Ready .trigMaskLoad d s ∧ (let a := accepted .trigMaskLoad d s
      d.clean [(0x08, 1), (0x0A, 14)] = true ∧ d.u 0x08 1 ≤ 3 ∧ d.u 0x0A 2 = 0 ∧ addrOk (d.u 0x10 8) 0 8 = true ∧ (a.chan (hIdx d.handle)).sp.type ≠ 0)) ∧
    (∃ (d : Desc) (buf : List (BitVec 8)) (s : State), segsOk (d.u 0x0C 4) (2 ^ (s.chan (hIdx d.handle)).sp.l) (segsOf buf (d.u 0x0A 2)) = true) ∧
    (∃ (d : Desc) (s : State) (i : Nat), Ready .trigCombine d s ∧ (let a := accepted .trigCombine d s
      d.handle = 0 ∧ d.u 0x08 1 ≠ 0 ∧ combineOk a d = true ∧ (∀ c ∈ combineInputs d (d.u 0x09 1), (a.chan (c / 4)).st ≠ .empty) ∧ a.claimIdx 64 (fun i => !(nth a.groups i .reset).alloc) = some i ∧ ∃ j : Nat, j ≠ i)) ∧
    (∃ (d : Desc) (s : State) (i : Nat), Ready .trigCombine d s ∧ (let a := accepted .trigCombine d s
      d.handle = 0 ∧ d.u 0x08 1 ≠ 0 ∧ combineOk a d = true ∧ (∀ c ∈ combineInputs d (d.u 0x09 1), (a.chan (c / 4)).st ≠ .empty) ∧ a.claimIdx 64 (fun i => !(nth a.groups i .reset).alloc) = some i ∧ i < 64)) ∧
    (∃ (d : Desc) (s : State), Ready .trigCombine d s ∧ (let a := accepted .trigCombine d s
      (let i := hIdx d.handle
      d.handle ≠ 0 ∧ d.u 0x08 1 ≠ 0 ∧ combineOk a d = true ∧ (∀ c ∈ combineInputs d (d.u 0x09 1), (a.chan (c / 4)).st ≠ .empty) ∧ ∃ j : Nat, j ≠ i))) ∧
    (∃ (d : Desc) (s : State), Ready .trigCombine d s ∧ (let a := accepted .trigCombine d s
      (let i := hIdx d.handle
      d.handle ≠ 0 ∧ d.u 0x08 1 ≠ 0 ∧ combineOk a d = true ∧ (∀ c ∈ combineInputs d (d.u 0x09 1), (a.chan (c / 4)).st ≠ .empty) ∧ i < 64))) ∧
    (∃ (d : Desc) (s : State), Ready .trigCombine d s ∧ (let a := accepted .trigCombine d s
      d.handle ≠ 0 ∧ d.u 0x08 1 = 0 ∧ combineOk a d = true ∧ (∀ u : Fin 128, (a.acq u.val).st ≠ .none → (a.acq u.val).par.mode ≠ 3 → (a.acq u.val).par.line ≠ hIdx d.handle))) :=
  ⟨⟨dsc (hd 2 0) [(8, 3), (9, 1), (0x0B, 1), (0x0C, 1)], withChan id, ready_of (by decide +kernel), by decide +kernel⟩,
   ⟨dsc (hd 2 0) [(8, 3), (0x0A, 1)], withChan fun c => running { c with cond := upd c.cond 3 fun k => { k with type := 8 } }, ready_of (by decide +kernel), by decide +kernel⟩,
   ⟨dsc (hd 2 0) [(8, 3), (0x0A, 1024)], withChan id, ready_of (by decide +kernel), by decide +kernel⟩,
   ⟨dsc (hd 2 0) [(8, 3)], withChan id, ready_of (by decide +kernel), by decide +kernel⟩,
   ⟨dsc (hd 2 0) [(0x0A, 1)], List.replicate 8 0, withChan id, by decide +kernel⟩,
   ⟨dsc 0 [(8, 1), (9, 1), (0x18, 2 ^ 256 - 65536)], withChan id, 0, ready_of (by decide +kernel), by decide +kernel, by decide +kernel, by decide +kernel, by decide +kernel, by decide +kernel, 1, by decide +kernel⟩,
   ⟨dsc 0 [(8, 1), (9, 1), (0x18, 2 ^ 256 - 65536)], withChan id, 0, ready_of (by decide +kernel), by decide +kernel⟩,
   ⟨dsc (hd 5 0) [(8, 1), (9, 1), (0x18, 2 ^ 256 - 65536)], { withChan id with groups := upd up.groups 0 fun _ => group0 }, ready_of (by decide +kernel), by decide +kernel, by decide +kernel, by decide +kernel, by decide +kernel, 1, by decide +kernel⟩,
   ⟨dsc (hd 5 0) [(8, 1), (9, 1), (0x18, 2 ^ 256 - 65536)], { withChan id with groups := upd up.groups 0 fun _ => group0 }, ready_of (by decide +kernel), by decide +kernel⟩,
   ⟨dsc (hd 5 0) [], { withChan id with groups := upd up.groups 0 fun _ => group0 }, ready_of (by decide +kernel), by decide +kernel⟩⟩

theorem test_witness_TriggerPinAndGroupRows :
    (∃ (pin : Fin 16) (level : Bool) (s : State), (s.pins.isTrigIn pin.val = false ∨ s.pins.level.getLsbD pin.val = level)) ∧
    (∃ (pin : Fin 16) (level : Bool) (l : Nat) (s : State), s.pins.isTrigIn pin.val = true ∧ s.pins.level.getLsbD pin.val ≠ level ∧ nth s.pins.lastEdge pin.val none = some l ∧ s.time.tb / unitNs * unitNs - (nth s.pins.cfg pin.val 0).toNat % 65536 * 100 * unitPs < l + 16 * unitNs) ∧
    (∃ (pin : Fin 16) (level : Bool) (s : State), s.pins.isTrigIn pin.val = true ∧ s.pins.level.getLsbD pin.val ≠ level ∧ (let t := s.time.tb / unitNs * unitNs - (nth s.pins.cfg pin.val 0).toNat % 65536 * 100 * unitPs
      ((nth s.pins.lastEdge pin.val none).all fun l => decide (l + 16 * unitNs ≤ t)) = true)) ∧
    (∃ (g : Fin 64) (h : Hit) (s : State), (let x := nth s.groups g.val .reset
      x.alloc = true ∧ h ∈ x.hits ∧ (∀ k ∈ x.hits, h.time ≤ k.time) ∧ s.horizonsPast x h.time = true ∧ ∃ cause : Nat, x.fires h.time = some cause)) ∧
    (∃ (g : Fin 64) (h : Hit) (s : State), (let x := nth s.groups g.val .reset
      x.alloc = true ∧ h ∈ x.hits ∧ (∀ k ∈ x.hits, h.time ≤ k.time) ∧ s.horizonsPast x h.time = true ∧ x.fires h.time = none)) ∧
    (∃ (g : Fin 64) (s : State), (nth s.groups g.val .reset).hits = []) ∧
    (∃ (pin : Fin 16) (due : Nat) (rest : List Nat) (s : State), nth s.pins.queue pin.val [] = due :: rest) ∧
    (∃ (pin : Fin 16) (s : State), nth s.pins.queue pin.val [] = []) ∧
    (∃ (pin : Fin 16) (s : State), s.muted = false) ∧
    (∃ (pin : Fin 16) (e : Nat) (s : State), nth s.pins.pulseEnd pin.val none = some e) ∧
    (∃ (pin : Fin 16) (s : State), nth s.pins.pulseEnd pin.val none = none) :=
  ⟨⟨0, true, up, by decide +kernel⟩,
   ⟨0, true, 0, { up with pins := { up.pins with func := upd up.pins.func 0 fun _ => 2, lastEdge := upd up.pins.lastEdge 0 fun _ => some 0 } }, by decide +kernel⟩,
   ⟨0, true, { up with pins := { up.pins with func := upd up.pins.func 0 fun _ => 2 } }, by decide +kernel⟩,
   ⟨0, ⟨0, 8, 5, 0⟩, { withChan running with groups := upd up.groups 0 fun _ => group0 }, by decide +kernel, by decide +kernel, by decide +kernel, by decide +kernel, _, rfl⟩,
   ⟨0, ⟨0, 8, 5, 0⟩, { withChan running with groups := upd up.groups 0 fun _ => { group0 with mode := 2, inputs := [0, 1] } }, by decide +kernel⟩,
   ⟨0, up, by decide +kernel⟩,
   ⟨0, 5, [], { up with pins := { up.pins with queue := upd up.pins.queue 0 fun _ => [5] } }, by decide +kernel⟩,
   ⟨0, up, by decide +kernel⟩,
   ⟨0, up, by decide +kernel⟩,
   ⟨0, 5, { up with pins := { up.pins with pulseEnd := upd up.pins.pulseEnd 0 fun _ => some 5 } }, by decide +kernel⟩,
   ⟨0, up, by decide +kernel⟩⟩

theorem test_witness_AcquisitionCommands :
    (∃ (d : Desc) (u : Nat) (s : State), Ready .acqSet d s ∧ (let a := accepted .acqSet d s
      (let i := hIdx d.handle
      (let p := acqPar d
      p.source ≠ 0 ∧ (p.source = 1 → a.valid 1 (acqSource d) = true ∧ (a.stream p.srcIdx).st ≠ .held) ∧ (p.source = 2 ∨ p.source = 3 → a.valid 2 (acqSource d) = true) ∧ (p.source = 3 → (a.chan p.srcIdx).makes p.code = true) ∧ acqParOk a d i = true ∧ (a.region i).writer = .none ∧ firstIdx 128 (fun u => (a.acq u).st == .none) = some u)))) ∧
    (∃ (d : Desc) (u : Nat) (s : State), Ready .acqSet d s ∧ (let a := accepted .acqSet d s
      (let i := hIdx d.handle
      (let p := acqPar d
      (let o := a.acq u
      p.source ≠ 0 ∧ (p.source = 1 → a.valid 1 (acqSource d) = true ∧ (a.stream p.srcIdx).st ≠ .held) ∧ (p.source = 2 ∨ p.source = 3 → a.valid 2 (acqSource d) = true) ∧ (p.source = 3 → (a.chan p.srcIdx).makes p.code = true) ∧ acqParOk a d i = true ∧ (a.region i).writer = .acq u ∧ (o.st = .idle ∨ o.st = .done)))))) ∧
    (∃ (d : Desc) (u : Nat) (s : State), Ready .acqSet d s ∧ (let a := accepted .acqSet d s
      d.u 0x08 1 = 0 ∧ (a.region (hIdx d.handle)).writer = .acq u ∧ ((a.acq u).st = .idle ∨ (a.acq u).st = .done) ∧ acqReserved d = true)) ∧
    (∃ (d : Desc) (u : Nat) (s : State), Ready .acqArm d s ∧ (let a := accepted .acqArm d s
      (let o := a.acq u
      (a.region (hIdx d.handle)).writer = .acq u ∧ (o.st = .idle ∨ o.st = .done) ∧ (3 ≤ o.par.mode → (a.region o.region).sink ≠ none) ∧ d.clean [(0x08, 9)] = true ∧ d.u 0x10 1 < 2))) ∧
    (∃ (d : Desc) (u : Nat) (s : State), Ready .acqDisarm d s ∧ (let a := accepted .acqDisarm d s
      d.clean [(0x08, 1)] = true ∧ d.u 0x08 1 < 2 ∧ (a.region (hIdx d.handle)).writer = .acq u ∧ (a.acq u).st ≠ .capture)) ∧
    (∃ (d : Desc) (u : Nat) (s : State), Ready .acqDisarm d s ∧ (let a := accepted .acqDisarm d s
      d.clean [(0x08, 1)] = true ∧ d.u 0x08 1 < 2 ∧ (a.region (hIdx d.handle)).writer = .acq u ∧ (a.acq u).st = .capture ∧ dBit d 0x08 0 = true)) ∧
    (∃ (d : Desc) (u : Nat) (s : State), Ready .acqDisarm d s ∧ (let a := accepted .acqDisarm d s
      d.clean [(0x08, 1)] = true ∧ d.u 0x08 1 < 2 ∧ (a.region (hIdx d.handle)).writer = .acq u ∧ (a.acq u).st = .capture ∧ dBit d 0x08 0 = false)) ∧
    (∃ (u : Fin 128) (s : State), (s.acq u.val).disarm = []) ∧
    (∃ (d : Desc) (u : Nat) (s : State), Ready .acqForce d s ∧ (let a := accepted .acqForce d s
      (let o := a.acq u
      d.clean [(0x08, 9)] = true ∧ d.u 0x10 1 < 2 ∧ (a.region (hIdx d.handle)).writer = .acq u ∧ (o.st = .filling ∨ o.st = .armed ∨ o.st = .capture ∨ o.st = .holdoff) ∧ o.par.mode ≠ 3 ∧ o.disarm = []))) :=
  ⟨⟨dsc (hd 3 0) acqParams, 0, withChan id, ready_of (by decide +kernel), by decide +kernel⟩,
   ⟨dsc (hd 3 0) acqParams, 0, withAcq id, ready_of (by decide +kernel), by decide +kernel⟩,
   ⟨dsc (hd 3 0) [], 0, withAcq fun a => { a with st := .done }, ready_of (by decide +kernel), by decide +kernel⟩,
   ⟨dsc (hd 3 0) [(8, 7), (0x10, 1)], 0, withAcq id, ready_of (by decide +kernel), by decide +kernel⟩,
   ⟨dsc (hd 3 0) [(8, 1)], 0, withAcq fun a => { a with st := .armed }, ready_of (by decide +kernel), by decide +kernel⟩,
   ⟨dsc (hd 3 0) [(8, 1)], 0, withAcq fun a => { a with st := .capture, cap := some ⟨1, 0, 1, 1, 0, 0, false, false, 0⟩ }, ready_of (by decide +kernel), by decide +kernel⟩,
   ⟨dsc (hd 3 0) [], 0, withAcq fun a => { a with st := .capture, cap := some ⟨1, 0, 1, 1, 0, 0, false, false, 0⟩ }, ready_of (by decide +kernel), by decide +kernel⟩,
   ⟨0, up, by decide +kernel⟩,
   ⟨dsc (hd 3 0) [(8, 1000), (0x10, 1)], 0, withAcq fun a => { a with st := .armed }, ready_of (by decide +kernel), by decide +kernel⟩⟩

theorem test_witness_AcquisitionRows :
    (∃ (u : Fin 128) (s : State), (s.acq u.val).st = .holdoff ∧ (s.acq u.val).par.flags.getLsbD 4 = false) ∧
    (∃ (u : Fin 128) (s : State), ((s.acq u.val).st ≠ .holdoff ∨ (s.acq u.val).par.flags.getLsbD 4 = true)) ∧
    (∃ (u : Fin 128) (lost : List Nat) (zeroed : List (Nat × Nat)) (c : Capture) (x : Item) (s : State), (s.acq u.val).cap = some c ∧ (s.acq u.val).hist.getLast? = some x ∧ (s.acq u.val).par.mode ≤ 2 ∧ c.toNo ≤ x.no) ∧
    (∃ (u : Fin 128) (lost : List Nat) (zeroed : List (Nat × Nat)) (s : State), (s.acq u.val).cap = none) ∧
    (∃ (u : Fin 128) (lost : List Nat) (zeroed : List (Nat × Nat)) (x l : Item) (rest : List Item) (s : State), (s.acq u.val).hist = x :: rest ∧ (x :: rest).getLast? = some l ∧ 3 ≤ (s.acq u.val).par.mode ∧ (s.acq u.val).par.source ≠ 3 ∧ (let bound := (x.no / max 1 (s.acq u.val).par.c + 1) * (s.acq u.val).par.c
      bound ≤ l.no + 1)) ∧
    (∃ (u : Fin 128) (lost : List Nat) (zeroed : List (Nat × Nat)) (x l : Item) (rest : List Item) (s : State), (s.acq u.val).hist = x :: rest ∧ (x :: rest).getLast? = some l ∧ 3 ≤ (s.acq u.val).par.mode ∧ (s.acq u.val).par.source ≠ 3 ∧ (let bound := (x.no / max 1 (s.acq u.val).par.c + 1) * (s.acq u.val).par.c
      l.no + 1 < bound)) ∧
    (∃ (u : Fin 128) (lost : List Nat) (zeroed : List (Nat × Nat)) (s : State), (s.acq u.val).hist = []) ∧
    (∃ (u : Fin 128) (s : State), (s.acq u.val).arr = true ∧ s.pair.role ≠ .secondary ∧ (s.acq u.val).par.high ≤ (s.region (s.acq u.val).region).fill ∧ (let level := (s.acq u.val).newLevel.getD (s.acq u.val).level
      level < (s.acq u.val).par.arrMax ∧ ((s.acq u.val).lastStep = 0 ∨ (s.acq u.val).lastStep + 1000000 ≤ s.now))) ∧
    (∃ (u : Fin 128) (s : State), (s.acq u.val).arr = true ∧ s.pair.role ≠ .secondary ∧ (s.region (s.acq u.val).region).fill ≤ (s.acq u.val).par.low ∧ (let level := (s.acq u.val).newLevel.getD (s.acq u.val).level
      0 < level ∧ (s.acq u.val).lastStep + (s.acq u.val).par.dwell * 1000000 ≤ s.now)) ∧
    (∃ (u : Fin 128) (s : State), (s.pair.role = .secondary ∨ (s.acq u.val).arr = false)) ∧
    (∃ (u : Fin 128) (new : Nat) (s : State), ((s.acq u.val).hist = [] ∨ (s.acq u.val).par.source = 3)) :=
  ⟨⟨0, withAcq fun a => { a with st := .holdoff }, by decide +kernel⟩,
   ⟨0, withAcq id, by decide +kernel⟩,
   ⟨0, [], [], ⟨5, 0, 5, 5, 0, 0, false, false, 0⟩, item 5, withAcq fun a => { a with st := .capture, hist := [item 5], cap := some ⟨5, 0, 5, 5, 0, 0, false, false, 0⟩ }, by decide +kernel⟩,
   ⟨0, [], [], withAcq id, by decide +kernel⟩,
   ⟨0, [], [], item 0, item 0, [], withAcq fun a => { a with st := .streaming, hist := [item 0], par := { a.par with mode := 3, c := 1 } }, by decide +kernel⟩,
   ⟨0, [], [], item 0, item 0, [], withAcq fun a => { a with st := .streaming, hist := [item 0], par := { a.par with mode := 3, c := 9 } }, by decide +kernel⟩,
   ⟨0, [], [], withAcq id, by decide +kernel⟩,
   ⟨0, { withAcq arr0 with now := 1000000 }, by decide +kernel⟩,
   ⟨0, withAcq fun a => { arr0 a with level := 1, lastStep := 0, par := { (arr0 a).par with dwell := 0 } }, by decide +kernel⟩,
   ⟨0, role .secondary up, by decide +kernel⟩,
   ⟨0, 1, withAcq id, by decide +kernel⟩⟩

theorem test_witness_SweepCommandsAndRows :
    (∃ (d : Desc) (u : Nat) (s : State), Ready .sweepSet d s ∧ (let a := accepted .sweepSet d s
      (let x0 := sweepOf d
      (let c := a.chan x0.chan
      (let x := { x0 with phi := shapes x0.type (min 4096 x0.nr) (a.rowFreqs x0) }
      d.handle = 0 ∧ d.u 0x0C 1 ≠ 0 ∧ a.valid 2 (BitVec.ofNat 32 (d.u 0x08 4)) = true ∧ a.valid 3 x0.candRegion = true ∧ a.valid 3 x0.histRegion = true ∧ c.sp.type ≠ 0 ∧ sweepOk a d x = true ∧ a.claimIdx (if a.ident.small then 1 else 2) (fun u => !(a.sweep u).claimed) = some u ∧ a.writerBusy (hIdx x.candRegion) (.sweepCand u) = false ∧ a.writerBusy (hIdx x.histRegion) (.sweepHist u) = false ∧ x.candRegion ≠ x.histRegion ∧ x.nr * (a.stream c.stream).par.fs ≤ 1000000000 * c.sp.h * c.fe.d))))) ∧
    (∃ (d : Desc) (s : State), Ready .sweepSet d s ∧ (let a := accepted .sweepSet d s
      (let x0 := sweepOf d
      (let c := a.chan x0.chan
      (let x := { x0 with phi := shapes x0.type (min 4096 x0.nr) (a.rowFreqs x0) }
      (let u := hIdx d.handle
      d.handle ≠ 0 ∧ d.u 0x0C 1 ≠ 0 ∧ a.valid 2 (BitVec.ofNat 32 (d.u 0x08 4)) = true ∧ a.valid 3 x0.candRegion = true ∧ a.valid 3 x0.histRegion = true ∧ (a.sweep u).run = false ∧ (a.sweep u).stopping = [] ∧ c.sp.type ≠ 0 ∧ sweepOk a d x = true ∧ a.writerBusy (hIdx x.candRegion) (.sweepCand u) = false ∧ a.writerBusy (hIdx x.histRegion) (.sweepHist u) = false ∧ x.candRegion ≠ x.histRegion ∧ x.nr * (a.stream c.stream).par.fs ≤ 1000000000 * c.sp.h * c.fe.d)))))) ∧
    (∃ (d : Desc) (s : State), Ready .sweepSet d s ∧ (let a := accepted .sweepSet d s
      d.handle ≠ 0 ∧ d.u 0x0C 1 = 0 ∧ (a.sweep (hIdx d.handle)).run = false ∧ (a.sweep (hIdx d.handle)).stopping = [] ∧ d.clean [(0x08, 0x2E)] = true ∧ d.u 0x0E 1 ≤ 15 ∧ d.u 0x0F 1 ≤ 127)) ∧
    (∃ (d : Desc) (s : State), Ready .sweepRun d s ∧ d.clean [(0x08, 1), (0x10, 8)] = true ∧ (let a := accepted .sweepRun d s
      (let u := hIdx d.handle
      d.u 0x08 1 = 0 ∧ (a.sweep u).run = false ∧ (a.sweep u).stopping = []))) ∧
    (∃ (d : Desc) (s : State), Ready .sweepRun d s ∧ d.clean [(0x08, 1), (0x10, 8)] = true ∧ (let a := accepted .sweepRun d s
      (let u := hIdx d.handle
      d.u 0x08 1 = 0 ∧ ((a.sweep u).run = true ∧ (a.chan (a.sweep u).chan).emits = true ∨ (a.sweep u).run = false ∧ (a.sweep u).stopping ≠ [])))) ∧
    (∃ (d : Desc) (s : State), Ready .sweepRun d s ∧ d.clean [(0x08, 1), (0x10, 8)] = true ∧ (let a := accepted .sweepRun d s
      (let u := hIdx d.handle
      d.u 0x08 1 = 0 ∧ (a.sweep u).run = true ∧ (a.chan (a.sweep u).chan).emits = false ∧ (a.sweep u).stopping = [] ∧ (let c := (a.setSweep u fun x => { x with stopping := [], run := false, grant := 0 }).sweepRecord u
      c.2 = true ∧ (c.1.sweep u).queue = [])))) ∧
    (∃ (d : Desc) (s : State), Ready .sweepRun d s ∧ d.clean [(0x08, 1), (0x10, 8)] = true ∧ (let a := accepted .sweepRun d s
      (let u := hIdx d.handle
      d.u 0x08 1 = 1 ∧ (a.sweep u).run = false ∧ (a.sweep u).stopping = [] ∧ GrantedNow a 1 3400 d.waitForPower))) ∧
    (∃ (d : Desc) (s : State), Ready .sweepRun d s ∧ d.clean [(0x08, 1), (0x10, 8)] = true ∧ (let a := accepted .sweepRun d s
      (let u := hIdx d.handle
      d.u 0x08 1 = 2 ∧ (a.sweepRecord u).2 = true))) ∧
    (∃ (d : Desc) (s : State), Ready .sweepRun d s ∧ d.clean [(0x08, 1), (0x10, 8)] = true ∧ (let a := accepted .sweepRun d s
      d.u 0x08 1 = 3 ∧ addrOk (d.u 0x10 8) 512 8 = true ∧ (a.hostPort (a.flightPort d.ring.val).val).linkUp = true)) ∧
    (∃ (u : Fin 2) (lost : List (Nat × Nat)) (waits : Nat) (s : State), (let v := s.sweep u.val
      (let v : Sweep := { v with hist := v.hist.map fun (k : SweepCol) => if lost.any (fun z => z.1 == k.m) then
      { k with cells := k.cells.mapIdx (fun r v => if lost.contains (k.m, r) then 0 else v), flags := k.flags ||| fPoison } else k }
      (let pitch := (s.chan v.chan).sp.h * (s.chan v.chan).fe.d
      ∃ (x : Sweep) (cs : List Cand), v.nextBlock pitch = some (x, cs))))) ∧
    (∃ (u : Fin 2) (lost : List (Nat × Nat)) (waits : Nat) (s : State), (let v := s.sweep u.val
      (let v : Sweep := { v with hist := v.hist.map fun (k : SweepCol) => if lost.any (fun z => z.1 == k.m) then
      { k with cells := k.cells.mapIdx (fun r v => if lost.contains (k.m, r) then 0 else v), flags := k.flags ||| fPoison } else k }
      (let pitch := (s.chan v.chan).sp.h * (s.chan v.chan).fe.d
      v.nextBlock pitch = none)))) ∧
    (∃ (u : Fin 2) (t : Nat) (s : State), (s.sweep u.val).recStart = some t ∧ ((s.sweep u.val).stopping = [] ∨ (s.sweep u.val).run = true)) ∧
    (∃ (u : Fin 2) (t : Nat) (s : State), (s.sweep u.val).recStart = some t ∧ (s.sweep u.val).stopping ≠ [] ∧ (s.sweep u.val).run = false) ∧
    (∃ (u : Fin 2) (s : State), (s.sweep u.val).recStart = none) :=
  ⟨⟨dsc 0 [(8, 0x02000100), (0x0C, 2), (0x0F, 127), (0x14, 1), (0x16, 1), (0x28, 4), (0x29, 4), (0x2C, 0x03000100), (0x30, 0x03000101), (0x34, 1)], 0, reg 1 id (withChan id), ready_of (by decide +kernel), by decide +kernel⟩,
   ⟨dsc (hd 6 0) [(8, 0x02000100), (0x0C, 2), (0x0F, 127), (0x14, 1), (0x16, 1), (0x28, 4), (0x29, 4), (0x2C, 0x03000100), (0x30, 0x03000101), (0x34, 1)], withSweep id, ready_of (by decide +kernel), by decide +kernel⟩,
   ⟨dsc (hd 6 0) [], withSweep id, ready_of (by decide +kernel), by decide +kernel⟩,
   ⟨dsc (hd 6 0) [], withSweep id, ready_of (by decide +kernel), by decide +kernel⟩,
   ⟨dsc (hd 6 0) [], withSweep fun u => { u with run := true }, ready_of (by decide +kernel), by decide +kernel⟩,
   ⟨dsc (hd 6 0) [], (withSweep fun u => { u with run := true, candRegion := hd 3 1 }).setChan 0 fun c => { c with st := .stopped }, ready_of (by decide +kernel), by decide +kernel⟩,
   ⟨dsc (hd 6 0) [(8, 1)], withSweep id, ready_of (by decide +kernel), by decide +kernel⟩,
   ⟨dsc (hd 6 0) [(8, 2)], withSweep fun u => { u with run := true, candRegion := hd 3 1 }, ready_of (by decide +kernel), by decide +kernel⟩,
   ⟨dsc (hd 6 0) [(8, 3)], withSweep id, ready_of (by decide +kernel), by decide +kernel⟩,
   ⟨0, [], 0, swState, _, _, get_pair sw_some⟩,
   ⟨0, [], 0, withSweep id, by decide +kernel⟩,
   ⟨0, 0, withSweep fun u => { u with run := true, recStart := some 0 }, by decide +kernel⟩,
   ⟨0, 0, withSweep fun u => { u with run := false, stopping := [0], recStart := some 0 }, by decide +kernel⟩,
   ⟨0, withSweep id, by decide +kernel⟩⟩

theorem test_witness_CalibrationCommands :
    (∃ (d : Desc) (s : State), Ready .calSet d s ∧ (let a := accepted .calSet d s
      (let c := a.chan (hIdx d.handle)
      dBit d 0x08 3 = true ∧ c.cal.on = true ∧ policyOk d = true ∧ subtractOk c (d.u 0x09 1) c.cal.fc c.cal.bc c.cal.b = true))) ∧
    (∃ (d : Desc) (s : State), Ready .calSet d s ∧ (let a := accepted .calSet d s
      (let ch := hIdx d.handle
      dBit d 0x08 3 = false ∧ dBit d 0x08 0 = false ∧ calClean d = true ∧ (a.chan ch).st = .stopped ∧ ((a.chan ch).cal.on = false ∨ (a.chan ch).cal.ref ≠ 0 ∨ a.calGroup ch = [ch])))) ∧
    (∃ (d : Desc) (s : State), Ready .calSet d s ∧ (let a := accepted .calSet d s
      (let ch := hIdx d.handle
      (let k := calOf d
      (let dn := d.u 0x0A 1
      (let out := d.u 0x0B 1
      (let ref := hIdx (BitVec.ofNat 32 k.ref)
      dBit d 0x08 3 = false ∧ dBit d 0x08 0 = true ∧ (a.chan ch).st = .stopped ∧ (a.chan ch).sp.type ≠ 0 ∧ (k.delay = true → (a.chan ch).fe.fdl ≠ 0) ∧ (k.ref ≠ 0 → a.valid 2 (BitVec.ofNat 32 k.ref) = true ∧ (a.driveOf ref).isSome = true) ∧ a.valid 3 k.region = true ∧ calOk a ch d = true ∧ (bit out 7 = true → nth a.pins.func (16 + dn) 0 = 4) ∧ (bit out 6 = true → bits (nth a.clk.outCfg (out % 16) 0).toNat 30 28 = 3) ∧ (k.ref = 0 → (a.drive dn).owner = none ∨ (a.drive dn).owner = some ch) ∧ a.writerBusy (hIdx k.region) (.calTab ch) = false ∧ (k.ref ≠ 0 → a.calGroup ch = [] ∨ a.calGroup ch = [ch]) ∧ a.storeTaken ch - (a.chan ch).cal.store + k.store + (a.chan ch).pr.store ≤ 2 ^ 26 ∧ (k.ref ≠ 0 → ch ∈ a.calGroup ref ∨ (a.calGroup ref).length < 16)))))))) ∧
    (∃ (d : Desc) (x : Nat) (s : State), Ready .calFreeze d s ∧ (let a := accepted .calFreeze d s
      d.clean [(0x08, 1)] = true ∧ d.u 0x08 1 ≤ 1 ∧ a.calDrive (hIdx d.handle) = some x ∧ d.u 0x08 1 = 1)) ∧
    (∃ (d : Desc) (x : Nat) (s : State), Ready .calFreeze d s ∧ (let a := accepted .calFreeze d s
      d.clean [(0x08, 1)] = true ∧ d.u 0x08 1 ≤ 1 ∧ a.calDrive (hIdx d.handle) = some x ∧ d.u 0x08 1 = 0 ∧ ((a.drive x).frozen = false ∨ (a.drive x).period = none))) ∧
    (∃ (d : Desc) (x : Nat) (s : State), Ready .calFreeze d s ∧ (let a := accepted .calFreeze d s
      d.clean [(0x08, 1)] = true ∧ d.u 0x08 1 ≤ 1 ∧ a.calDrive (hIdx d.handle) = some x ∧ d.u 0x08 1 = 0 ∧ (a.drive x).frozen = true ∧ (a.drive x).period ≠ none)) ∧
    (∃ (d : Desc) (s : State), Ready .calTableLoad d s ∧ (let a := accepted .calTableLoad d s
      (let k := (a.chan (hIdx d.handle)).cal
      k.on = true ∧ d.clean [(0x08, 13), (0x18, 8)] = true ∧ d.u 0x14 1 ≤ 7 ∧ d.u 0x10 4 = 32 + 8 * (k.bc / 2 ^ k.b) ∧ addrOk (d.u 0x08 8) (d.u 0x10 4) 4 = true ∧ (a.hostPort (a.flightPort d.ring.val).val).linkUp = true))) ∧
    (∃ (d : Desc) (buf : List (BitVec 8)) (x : Nat) (s : State), (let ch := hIdx d.handle
      (-131072 ≤ sx 32 (num buf 0 4) ∧ sx 32 (num buf 0 4) ≤ 131071) ∧ (-131072 ≤ sx 32 (num buf 4 4) ∧ sx 32 (num buf 4 4) ≤ 131071) ∧ num buf 0x0A 2 ≤ 256 ∧ num buf 0x19 7 = 0 ∧ d.u 0x14 1 = 0 ∧ s.calDrive ch = some x)) :=
  ⟨⟨dsc (hd 2 0) [(8, 8), (0x13, 4), (0x25, 1), (0x2C, 64)], withCal id, ready_of (by decide +kernel), by decide +kernel⟩,
   ⟨dsc (hd 2 0) [], withChan id, ready_of (by decide +kernel), by decide +kernel⟩,
   ⟨dsc (hd 2 0) [(8, 1), (0x10, 1), (0x12, 1), (0x13, 4), (0x1A, 1), (0x20, 64), (0x25, 1), (0x2C, 64), (0x34, 0x03000100)], withChan id, ready_of (by decide +kernel), by decide +kernel⟩,
   ⟨dsc (hd 2 0) [(8, 1)], 0, withCal id, ready_of (by decide +kernel), by decide +kernel⟩,
   ⟨dsc (hd 2 0) [], 0, withCal id, ready_of (by decide +kernel), by decide +kernel⟩,
   ⟨dsc (hd 2 0) [], 0, withCal fun v => { v with frozen := true, period := some 0 }, ready_of (by decide +kernel), by decide +kernel⟩,
   ⟨dsc (hd 2 0) [(0x10, 544), (0x14, 7)], withCal id, ready_of (by decide +kernel), by decide +kernel⟩,
   ⟨dsc (hd 2 0) [], List.replicate 544 0, 0, withCal id, by decide +kernel⟩⟩

theorem test_witness_CalibrationRows :
    (∃ (drive : Fin 4) (s : State), (s.drive drive.val).owner ≠ none ∧ (s.drive drive.val).on = false ∧ s.pllOk = true) ∧
    (∃ (drive : Fin 4) (s : State), (s.drive drive.val).on = true) ∧
    (∃ (d : Nat) (on : Bool) (s : State), d < 4) ∧
    (∃ (drive : Fin 4) (ref k : Nat) (s : State), (s.drive drive.val).owner = some ref ∧ (s.drive drive.val).period = some k ∧ (s.drive drive.val).old = none) ∧
    (∃ (drive : Fin 4) (ref k : Nat) (s : State), (s.drive drive.val).owner = some ref ∧ (s.drive drive.val).old = some k) ∧
    (∃ (drive : Fin 4) (ref : Nat) (g : GroupSwap) (s : State), (s.drive drive.val).owner = some ref ∧ s.pair.role ≠ .secondary ∧ (∀ x ∈ (s.drive drive.val).swaps, x.asked = true) ∧ ((s.drive drive.val).swaps.find? fun x => (s.chan ref).swapMade x.tag) = some g) ∧
    (∃ (drive : Fin 4) (s : State), (s.drive drive.val).owner = none) ∧
    (∃ (drive : Fin 4) (s : State), (s.drive drive.val).on = false) :=
  ⟨⟨0, withCal id, by decide +kernel⟩,
   ⟨0, withCal fun v => { v with on := true }, by decide +kernel⟩,
   ⟨3, true, up, by decide +kernel⟩,
   ⟨0, 0, 0, withCal fun v => { v with period := some 0 }, by decide +kernel⟩,
   ⟨0, 0, 0, withCal fun v => { v with old := some 0 }, by decide +kernel⟩,
   ⟨0, 0, { GroupSwap.empty 0 with asked := true }, withCal fun v => { v with swaps := [{ GroupSwap.empty 0 with asked := true }] }, by decide +kernel⟩,
   ⟨3, up, by decide +kernel⟩,
   ⟨0, withCal id, by decide +kernel⟩⟩

theorem test_witness_RegionCommandsAndBar4 :
    (∃ (d : Desc) (i : Nat) (gs : List Nat) (w : Option Nat) (s : State), Ready .regionAlloc d s ∧ (let a := accepted .regionAlloc d s
      allocOk a d = true ∧ a.claimIdx 256 (fun i => !(a.region i).alloc) = some i ∧ allocGranules a (d.u 0x08 4) (if dBit d 0x0C 1 then some (d.u 0x0D 1) else none) = some gs ∧ (if dBit d 0x0C 0 then (windowFor a (d.u 0x08 4)).map some else some none) = some w ∧ (let c : State := if gs.any fun g => a.hbm.selfRef.getLsbD (g / 12288) then a.toActive else a
      (let b : State := { c with regions := upd c.regions i fun x => { Region.reset with gen := x.gen, alloc := true, granules := gs, window := w } }
      (let h := b.handleOf 3 i
      (let b := b.setInflight d.ring.val (Option.map fun f => { f with handle := h })
      b.asleep i = [])))))) ∧
    (∃ (d : Desc) (i : Nat) (gs : List Nat) (w : Option Nat) (s : State), Ready .regionAlloc d s ∧ (let a := accepted .regionAlloc d s
      allocOk a d = true ∧ a.claimIdx 256 (fun i => !(a.region i).alloc) = some i ∧ allocGranules a (d.u 0x08 4) (if dBit d 0x0C 1 then some (d.u 0x0D 1) else none) = some gs ∧ (if dBit d 0x0C 0 then (windowFor a (d.u 0x08 4)).map some else some none) = some w ∧ (let c : State := if gs.any fun g => a.hbm.selfRef.getLsbD (g / 12288) then a.toActive else a
      (let b : State := { c with regions := upd c.regions i fun x => { Region.reset with gen := x.gen, alloc := true, granules := gs, window := w } }
      (let h := b.handleOf 3 i
      (let b := b.setInflight d.ring.val (Option.map fun f => { f with handle := h })
      ∃ t : State, wakeStacks d.ring.val h d.waitForPower (b.asleep i) b = some t)))))) ∧
    (∃ (ring : Fin 16) (f : Inflight) (s : State), s.waitsAt ring.val .zeroing = some f ∧ s.asleep (hIdx f.handle) = []) ∧
    (∃ (ring : Fin 16) (s : State), (s.waitsAt ring.val .zeroing = none ∨ ∃ f, s.waitsAt ring.val .zeroing = some f ∧ s.asleep (hIdx f.handle) ≠ [])) ∧
    (∃ (i o : Nat) (s : State), o < (s.region i).bytes) ∧
    (∃ (d : Desc) (s : State), Ready .regionFree d s ∧ (let a := accepted .regionFree d s
      (let x := a.region (hIdx d.handle)
      d.clean [] = true ∧ x.writer = .none ∧ x.sink = none ∧ (a.ringsWaiting fun f => f.op == .regionAlloc && f.stage == .zeroing && f.handle == d.handle) = [] ∧ (a.mps.toList.any fun m => m.st == .running && m.inReg == d.handle) = false))) ∧
    (∃ (port : Fin 2) (addr len i o : Nat) (s : State), 0 < len ∧ addr % 32 + len ≤ 32 ∧ s.hasPort port.val = true ∧ s.bar4Byte addr = some (i, o) ∧ s.hbm.failed.getLsbD (s.cwAt i o / 65536 / 12288) = false ∧ s.integ.poison.contains (s.cwAt i o) = false) ∧
    (∃ (port : Fin 2) (addr len i o : Nat) (s : State), 0 < len ∧ addr % 32 + len ≤ 32 ∧ s.hasPort port.val = true ∧ s.bar4Byte addr = some (i, o) ∧ s.hbm.failed.getLsbD (s.cwAt i o / 65536 / 12288) = false ∧ s.integ.poison.contains (s.cwAt i o) = true) ∧
    (∃ (port : Fin 2) (addr len : Nat) (errs : List (Nat × MemErr)) (s : State), 0 < len ∧ s.hasPort port.val = false) ∧
    (∃ (port : Fin 2) (addr len : Nat) (s : State), 0 < len ∧ s.hasPort port.val = true ∧ addr % 32 + len ≤ 32 ∧ s.bar4Byte addr = none) ∧
    (∃ (port : Fin 2) (addr i o : Nat) (data : List (BitVec 8)) (s : State), 0 < data.length ∧ addr % 32 + data.length ≤ 32 ∧ s.hasPort port.val = true ∧ s.bar4Byte addr = some (i, o) ∧ s.hbm.failed.getLsbD (s.cwAt i o / 65536 / 12288) = false ∧ (s.region i).writer.hostMay = true) ∧
    (∃ (port : Fin 2) (addr i o : Nat) (data : List (BitVec 8)) (s : State), 0 < data.length ∧ addr % 32 + data.length ≤ 32 ∧ s.hasPort port.val = true ∧ s.bar4Byte addr = some (i, o) ∧ s.hbm.failed.getLsbD (s.cwAt i o / 65536 / 12288) = false ∧ (s.region i).writer.hostMay = false) ∧
    (∃ (port : Fin 2) (addr i o : Nat) (data : List (BitVec 8)) (s t : State), 0 < data.length ∧ addr % 32 + data.length ≤ 32 ∧ s.hasPort port.val = true ∧ s.bar4Byte addr = some (i, o) ∧ Mem.wf s.hbm.mem = true ∧ (s.region i).addr o < 4 * 12288 * granuleBytes ∧ exec (.bar4Write port addr data) s = .next t ∧ ∃ x : Nat, (x < (s.region i).addr o ∨ (s.region i).addr o + data.length ≤ x)) ∧
    (∃ (port : Fin 2) (addr : Nat) (data : List (BitVec 8)) (s : State), 0 < data.length ∧ addr % 32 + data.length ≤ 32 ∧ s.hasPort port.val = true ∧ s.bar4Byte addr = none) ∧
    (∃ (port : Fin 2) (addr : Nat) (data : List (BitVec 8)) (s : State), 0 < data.length ∧ s.hasPort port.val = false) :=
  ⟨⟨dsc 0 [(8, 1), (0x0C, 2)], 0, [0], none, up, ready_of (by decide +kernel), by decide +kernel⟩,
   ⟨dsc 0 [(8, 1), (0x0C, 2)], 0, [0], none, { up with hbm := { up.hbm with selfRef := 1 } }, ready_of (by decide +kernel), by decide +kernel, by decide +kernel, by decide +kernel, by decide +kernel, _, get_some (by decide +kernel)⟩,
   ⟨0, fly .regionAlloc .zeroing (dsc (hd 3 0) []), flying .regionAlloc .zeroing (dsc (hd 3 0) []) win0, by decide +kernel⟩,
   ⟨0, up, by decide +kernel⟩,
   ⟨0, 2097151, win0, by decide +kernel⟩,
   ⟨dsc (hd 3 0) [], win0, ready_of (by decide +kernel), by decide +kernel⟩,
   ⟨0, 31, 1, 0, 31, win0, by decide +kernel⟩,
   ⟨0, 31, 1, 0, 31, { win0 with integ := { win0.integ with poison := [0] } }, by decide +kernel⟩,
   ⟨1, 0, 32, [], { up with ident := { up.ident with small := true } }, by decide +kernel⟩,
   ⟨0, 0, 32, up, by decide +kernel⟩,
   ⟨0, 2097151, 0, 2097151, [1], win0, by decide +kernel⟩,
   ⟨0, 2097151, 0, 2097151, [1], reg 0 (fun r => { r with window := some 0, writer := .thimble }) up, by decide +kernel⟩,
   ⟨0, 31, 0, 31, [1], win0, _, by decide +kernel, by decide +kernel, by decide +kernel, by decide +kernel, by decide +kernel, by decide +kernel, rfl, 0, by decide +kernel⟩,
   ⟨0, 0, [1], up, by decide +kernel⟩,
   ⟨1, 0, [1], { up with ident := { up.ident with small := true } }, by decide +kernel⟩⟩

theorem test_witness_HbmRows :
    (∃ (k : Fin 4) (s : State), s.pwr.st = .active ∧ s.hbm.wake.getLsbD k.val = true ∧ (s.pau.q0.any fun q => q.need == .stack k) = false ∧ s.hbm.failed.getLsbD k.val = false) ∧
    (∃ (k : Fin 4) (s : State), (s.hbm.wake.getLsbD k.val = false ∨ s.hbm.failed.getLsbD k.val = true)) ∧
    (∃ (pc : Fin 128) (s : State), s.stackUp (pc.val / 32) = true ∧ s.panicOn (pc.val / 32) = true ∧ nth s.hbm.owed pc.val 0 + 1 < 8) ∧
    (∃ (pc : Fin 128) (s : State), s.stackUp (pc.val / 32) = true ∧ s.panicOn (pc.val / 32) = true ∧ 8 ≤ nth s.hbm.owed pc.val 0 + 1) ∧
    (∃ (pc : Fin 128) (s : State), (s.panicOn (pc.val / 32) = false ∨ s.stackUp (pc.val / 32) = false)) ∧
    (∃ (pc : Fin 128) (s : State), s.stackUp (pc.val / 32) = false) ∧
    (∃ (p : Fin 12) (k : Fin 4) (s : State), p.val ≤ 3 ∧ s.stackUp k.val = true ∧ (nth s.hbm.panic p.val 0).getLsbD k.val = false) ∧
    (∃ (p : Fin 12) (k : Fin 4) (s : State), (4 ≤ p.val ∨ s.stackUp k.val = false ∨ (nth s.hbm.panic p.val 0).getLsbD k.val = true)) ∧
    (∃ (p : Fin 12) (k : Fin 4) (s : State), (∀ q : Fin 12, q ≠ p → (nth s.hbm.panic q.val 0).getLsbD k.val = false)) ∧
    (∃ (pc : Fin 128) (s : State), s.stackUp (pc.val / 32) = true ∧ s.panicOn (pc.val / 32) = false) ∧
    (∃ (pc : Fin 128) (s : State), s.stackUp (pc.val / 32) = true ∧ s.panicOn (pc.val / 32) = true ∧ nth s.hbm.retrainLate pc.val none = none) ∧
    (∃ (pc : Fin 128) (s : State), s.stackUp (pc.val / 32) = true ∧ ∃ t : Nat, s.panicOn (pc.val / 32) = true ∧ nth s.hbm.retrainLate pc.val none = some t ∧ t + 100000000 ≤ s.now) ∧
    (∃ (k : Fin 4) (c : Int) (s : State), k.val < stacksFitted s) ∧
    (∃ (k : Fin 4) (c : Int) (s : State), stacksFitted s ≤ k.val) :=
  ⟨⟨3, { up with hbm := { up.hbm with wake := 8 } }, by decide +kernel⟩,
   ⟨3, up, by decide +kernel⟩,
   ⟨127, { up with hbm := { up.hbm with panic := upd up.hbm.panic 0 fun _ => 8 } }, by decide +kernel⟩,
   ⟨127, { up with hbm := { up.hbm with panic := upd up.hbm.panic 0 fun _ => 8, owed := upd up.hbm.owed 127 fun _ => 7 } }, by decide +kernel⟩,
   ⟨127, up, by decide +kernel⟩,
   ⟨127, { up with hbm := { up.hbm with selfRef := 15 } }, by decide +kernel⟩,
   ⟨3, 3, up, by decide +kernel⟩,
   ⟨4, 0, up, by decide +kernel⟩,
   ⟨11, 0, up, by decide +kernel⟩,
   ⟨127, up, by decide +kernel⟩,
   ⟨127, panicState none, by decide +kernel⟩,
   ⟨127, { panicState (some 0) with now := 100000000 }, by decide +kernel, 0, by decide +kernel⟩,
   ⟨3, -40, up, by decide +kernel⟩,
   ⟨3, 0, { up with ident := { up.ident with small := true } }, by decide +kernel⟩⟩

theorem test_witness_ErrorLogCommandsAndRows :
    (∃ (d : Desc) (s : State), Ready .devInfo d s ∧ d.clean [(0x08, 12)] = true ∧ 64 ≤ d.u 0x10 4 ∧ addrOk (d.u 0x08 8) (d.u 0x10 4) 64 = true ∧ (let a := accepted .devInfo d s
      (a.hostPort (a.flightPort d.ring.val).val).linkUp = true)) ∧
    (∃ (d : Desc) (s : State), Ready .memRetire d s ∧ (let a := accepted .memRetire d s
      (let g := d.u 0x08 4
      d.clean [(0x08, 4)] = true ∧ g < 12288 * stacksFitted a ∧ g ∉ a.integ.retired ∧ a.sec.life ≠ .decommissioned ∧ a.integ.retired.length < 256))) ∧
    (∃ (d : Desc) (s : State), Ready .logRead d s ∧ d.clean [(0x08, 13)] = true ∧ d.u 0x14 1 ≤ 1 ∧ 64 ≤ d.u 0x10 4 ∧ addrOk (d.u 0x08 8) (d.u 0x10 4) 64 = true ∧ (let a := accepted .logRead d s
      (a.hostPort (a.flightPort d.ring.val).val).linkUp = true)) ∧
    (∃ (d : Desc) (s : State), Ready .logClear d s ∧ d.clean [(0x08, 1), (0x10, 8)] = true ∧ d.u 0x08 1 ≤ 3 ∧ dBit d 0x08 1 = false) ∧
    (∃ (d : Desc) (s : State), Ready .logClear d s ∧ d.clean [(0x08, 1), (0x10, 8)] = true ∧ d.u 0x08 1 ≤ 3 ∧ (let a := accepted .logClear d s
      (let loc := BitVec.ofNat 64 (d.u 0x10 8)
      dBit d 0x08 1 = true ∧ (∀ e ∈ a.integ.log, e.loc ≠ loc)))) ∧
    (∃ (d : Desc) (s : State), Ready .logClear d s ∧ d.clean [(0x08, 1), (0x10, 8)] = true ∧ d.u 0x08 1 ≤ 3 ∧ (let a := accepted .logClear d s
      (let loc := BitVec.ofNat 64 (d.u 0x10 8)
      ∃ e : LogEntry, dBit d 0x08 1 = true ∧ (a.integ.log.find? fun x => x.loc == loc) = some e ∧ (e.sticky = true → dBit d 0x08 0 = true)))) ∧
    (∃ (loc : BitVec 64) (s : State), locMem loc < 4 ∧ (s.integ.episode loc).1 = true) ∧
    (∃ (loc : BitVec 64) (o : ScrubOutcome) (s : State), (4 ≤ locMem loc ∨ (s.integ.episode loc).1 = false)) ∧
    (∃ (errs : List (BitVec 64 × MemErr)) (s : State), s.serving = true ∧ s.pwr.st = .active ∧ s.integ.darner.getLsbD 31 = true ∧ s.integ.patrolGrant ≠ 0) ∧
    (∃ (errs : List (BitVec 64 × MemErr)) (s : State), (s.serving = false ∨ s.pwr.st ≠ .active ∨ s.integ.darner.getLsbD 31 = false)) ∧
    (∃ (errs : List (BitVec 64 × MemErr)) (loc : BitVec 64) (e : MemErr) (s t : State), exec (.sramPatrol errs) s = .next t) ∧
    (∃ (loc : BitVec 64) (off : Nat) (data : List (BitVec 8)) (s : State), locMem loc < 4 ∧ s.integ.poison.contains (locIdx loc) = false) ∧
    (∃ (loc : BitVec 64) (off : Nat) (data : List (BitVec 8)) (s : State), s.integ.poison.contains (locIdx loc) = true ∧ locMem loc < 4) ∧
    (∃ (loc : BitVec 64) (off : Nat) (data : List (BitVec 8)) (s : State), 4 ≤ locMem loc) :=
  ⟨⟨dsc 0 [(0x10, 64)], up, ready_of (by decide +kernel), by decide +kernel⟩,
   ⟨dsc 0 [(8, 49151)], up, ready_of (by decide +kernel), by decide +kernel⟩,
   ⟨dsc 0 [(0x10, 64)], up, ready_of (by decide +kernel), by decide +kernel⟩,
   ⟨dsc 0 [(8, 1)], up, ready_of (by decide +kernel), by decide +kernel⟩,
   ⟨dsc 0 [(8, 3), (0x10, 6)], { up with integ := { up.integ with log := [entry1] } }, ready_of (by decide +kernel), by decide +kernel⟩,
   ⟨dsc 0 [(8, 3), (0x10, 5)], { up with integ := { up.integ with log := [entry1] } }, ready_of (by decide +kernel), by decide +kernel, by decide +kernel, entry1, by decide +kernel⟩,
   ⟨0x03FFFFFFFFFFFFFF, { up with integ := { up.integ with episodes := [(0x03FFFFFFFFFFFFFF, true, false, 1)] } }, by decide +kernel⟩,
   ⟨0x1000000000000000, .uncorrectable, up, by decide +kernel⟩,
   ⟨[], { up with integ := { up.integ with patrolGrant := 1600 } }, by decide +kernel⟩,
   ⟨[], State.reset, by decide +kernel⟩,
   ⟨[], 0, .none, up, _, rfl⟩,
   ⟨0, 0, [1], up, by decide +kernel⟩,
   ⟨0, 0, [1], { up with integ := { up.integ with poison := [0] } }, by decide +kernel⟩,
   ⟨0xFF00000000000000, 0, [1], up, by decide +kernel⟩⟩

theorem test_witness_SinkCommands :
    (∃ (d : Desc) (c : Nat) (s : State), Ready .sinkBind d s ∧ (let a := accepted .sinkBind d s
      (let h := bindSink d a
      (let k := hIdx h
      bindHandles d a = true ∧ bindState d a = true ∧ bindFields d a = true ∧ bindCorner d = false ∧ bindClaim d [] a = .ok c ∧ k < 128)))) ∧
    (∃ (d : Desc) (c : Nat) (s : State), Ready .sinkBind d s ∧ (let a := accepted .sinkBind d s
      (let src := hIdx (bindRegion d)
      bindHandles d a = true ∧ bindState d a = true ∧ bindFields d a = true ∧ bindCorner d = false ∧ bindClaim d [] a = .ok c ∧ ∃ i : Nat, i ≠ src))) ∧
    (∃ (d : Desc) (c : Nat) (s : State), Ready .sinkBind d s ∧ (let a := accepted .sinkBind d s
      bindHandles d a = true ∧ bindState d a = true ∧ bindFields d a = true ∧ bindCorner d = true ∧ bindClaim d [] a = .ok c ∧ (a.hostPort (a.flightPort d.ring.val).val).linkUp = true)) ∧
    (∃ (d : Desc) (s : State), Ready .sinkUnbind d s ∧ d.clean [(0x08, 1)] = true ∧ d.u 0x08 1 < 4 ∧ (let a := accepted .sinkUnbind d s
      (let k := hIdx d.handle
      (a.sink k).draining = none ∧ ((a.sink k).halted = true ∨ (a.sink k).bound = false)))) ∧
    (∃ (d : Desc) (s : State), Ready .sinkUnbind d s ∧ d.clean [(0x08, 1)] = true ∧ d.u 0x08 1 < 4 ∧ (let a := accepted .sinkUnbind d s
      (let k := hIdx d.handle
      (a.sink k).draining = none ∧ ∃ t : State, a.unbindStep k (dBit d 0x08 0) = (t, true)))) ∧
    (∃ (d : Desc) (s : State), Ready .sinkUnbind d s ∧ d.clean [(0x08, 1)] = true ∧ d.u 0x08 1 < 4 ∧ (let a := accepted .sinkUnbind d s
      (let k := hIdx d.handle
      (a.sink k).draining = none ∧ ∃ t : State, a.unbindStep k (dBit d 0x08 0) = (t, false)))) ∧
    (∃ (d : Desc) (q : Nat) (s : State), Ready .storeQueueAttach d s ∧ (let a := accepted .storeQueueAttach d s
      (let h := if d.handle = 0 then a.sinkPick else d.handle
      (let k := hIdx h
      (let i := hIdx (attachRegion d)
      (let qs := a.queuesOf k ++ [attachQueue d k]
      a.valid 3 (attachRegion d) = true ∧ ((a.sink k).bound = false ∨ (a.sink k).halted = true) ∧ attachOk d a k = true ∧ (d.handle ≠ 0 → (a.sink k).storage = true) ∧ a.writerBusy i (.storage k) = false ∧ firstIdx 32 (fun q => !(a.queue q).attached) = some q ∧ h ≠ 0 ∧ queuesEnd qs + prpBytes qs ≤ (a.region i).bytes)))))) ∧
    (∃ (d : Desc) (s : State), Ready .dmaRestart d s ∧ (let a := accepted .dmaRestart d s
      (let k := hIdx d.handle
      (let x := a.sink k
      x.halted = true ∧ d.clean [(0x08, 1)] = true ∧ d.u 0x08 1 < 3 ∧ k < 128)))) ∧
    (∃ (d : Desc) (s : State), Ready .dmaRestart d s ∧ (let a := accepted .dmaRestart d s
      (let k := hIdx d.handle
      (let x := a.sink k
      x.halted = true ∧ d.clean [(0x08, 1)] = true ∧ d.u 0x08 1 < 3 ∧ d.u 0x08 1 = 0)))) :=
  ⟨⟨dsc 0 [(8, 0x03000100), (0x0E, 255)], 0, reg 0 id up, ready_of (by decide +kernel), by decide +kernel⟩,
   ⟨dsc 0 [(8, 0x03000100), (0x0E, 255)], 0, reg 0 id up, ready_of (by decide +kernel), by decide +kernel, by decide +kernel, by decide +kernel, by decide +kernel, by decide +kernel, 1, by decide +kernel⟩,
   ⟨dsc 0 [(0x0E, 255), (0x10, 1), (0x1C, 0x03000100), (0x28, 1), (0x2A, 1), (0x2C, 1), (0x2E, 1)], 0, reg 0 id up, ready_of (by decide +kernel), by decide +kernel⟩,
   ⟨dsc (hd 4 0) [], withSink fun k => { k with halted := true }, ready_of (by decide +kernel), by decide +kernel⟩,
   ⟨dsc (hd 4 0) [], withSink id, ready_of (by decide +kernel), by decide +kernel, by decide +kernel, by decide +kernel, _, rfl⟩,
   ⟨dsc (hd 4 0) [(8, 1)], withSink id, ready_of (by decide +kernel), by decide +kernel, by decide +kernel, by decide +kernel, _, rfl⟩,
   ⟨dsc 0 [(8, 0x03000100), (0x0C, 1), (0x0E, 1), (0x14, 4096), (0x20, 1), (0x30, 1), (0x34, 9)], 0, win0, ready_of (by decide +kernel), by decide +kernel⟩,
   ⟨dsc (hd 4 0) [(8, 2)], withSink fun k => { k with halted := true }, ready_of (by decide +kernel), by decide +kernel⟩,
   ⟨dsc (hd 4 0) [], withSink fun k => { k with halted := true }, ready_of (by decide +kernel), by decide +kernel⟩⟩

theorem test_witness_SinkRows :
    (∃ (k : Fin 128) (c : Nat) (err : MemErr) (s : State), s.servedChan = some (c, k.val)) ∧
    (∃ (k : Fin 128) (c : Nat) (err : MemErr) (s : State), (∀ x, s.servedChan = some x → x.2 ≠ k.val)) ∧
    (∃ (k : Fin 128) (s : State), (let x := s.sink k.val
      (let r := s.region x.par.region
      x.bound = true ∧ x.moving = false ∧ x.halted = false ∧ x.startTest r = true))) ∧
    (∃ (k : Fin 128) (s : State), (let x := s.sink k.val
      (let r := s.region x.par.region
      x.bound = true ∧ x.moving = false ∧ x.halted = false ∧ ∃ y : Rec, x.startTest r = false ∧ (r.recs.find? fun y : Rec => y.ready && !y.delivered) = some y ∧ x.par.age ≠ 0))) ∧
    (∃ (k : Fin 128) (s : State), ((s.sink k.val).bound = false ∨ (s.sink k.val).moving = true ∨ (s.sink k.val).halted = true)) ∧
    (∃ (k : Fin 128) (s : State), (s.sink k.val).buf = none) ∧
    (∃ (k : Fin 128) (r : ReadResult) (s : State), (s.sink k.val).confirm = none) ∧
    (∃ (k : Fin 128) (b : OpenBuf) (s : State), (s.sink k.val).buf = some b ∧ (s.sink k.val).par.close ≠ 0 ∧ (s.sink k.val).cur = none ∧ b.used ≠ 0) ∧
    (∃ (k : Fin 128) (b : OpenBuf) (bytes : List (BitVec 8)) (s : State), (s.sink k.val).confirm = some b ∧ ∃ r : ReadResult, (∀ l, r ≠ .ok l)) ∧
    (∃ (q : Fin 32) (r : Nat) (ok : Bool) (s : State), (s.queue q.val).busy r = true) ∧
    (∃ (q : Fin 32) (r : Nat) (y : StoreRec) (s : State), (s.queue q.val).busy r = true ∧ (s.queue q.val).recs[r]? = some y) ∧
    (∃ (q : Fin 32) (r : Nat) (ok : Bool) (s : State), (s.queue q.val).busy r = false) ∧
    (∃ (k : Fin 128) (b : Nat) (t : State) (s : State), s.ctOpen k.val = some b ∧ (s.sink k.val).bound = true ∧ (s.sink k.val).par.corner = true ∧ s.ctFull k.val b = true ∧ s.ctEmit k.val b 0 = some t) ∧
    (∃ (k : Fin 128) (b : Nat) (s : State), s.ctOpen k.val = some b ∧ (s.sink k.val).bound = true ∧ (s.sink k.val).par.corner = true) ∧
    (∃ (k : Fin 128) (s : State), s.ctOpen k.val = none) ∧
    (∃ (ring : Fin 16) (s : State), s.waitsAt ring.val .unitDrain = none) ∧
    (∃ (ring : Fin 16) (f : Inflight) (s : State), s.waitsAt ring.val .unitDrain = some f ∧ f.op = .sinkUnbind ∧ dBit f.d 0x08 0 = true) :=
  ⟨⟨0, 0, .none, dmaState, by decide +kernel⟩,
   ⟨1, 0, .none, dmaState, (by intro x h; have e : some (0, 0) = some x := (show State.servedChan dmaState = some (0, 0) from by decide +kernel) ▸ h; cases e; decide)⟩,
   ⟨0, withSink id, by decide +kernel⟩,
   ⟨0, withSink fun k => { k with par := { k.par with high := 255, age := 1 } }, by decide +kernel, by decide +kernel, by decide +kernel, rec0, by decide +kernel⟩,
   ⟨0, up, by decide +kernel⟩,
   ⟨0, withSink id, by decide +kernel⟩,
   ⟨0, .ok [], withSink id, by decide +kernel⟩,
   ⟨0, buf0, withSink fun k => { k with buf := some buf0, par := { k.par with close := 1 } }, by decide +kernel⟩,
   ⟨0, buf0, [], withSink fun k => { k with confirm := some buf0 }, by decide +kernel, .ur, (by intro l h; cases h)⟩,
   ⟨0, 0, true, store0 id, by decide +kernel⟩,
   ⟨0, 0, ⟨0, 0, 0, 1, 1, 0, false, false, false, 0, 64, false⟩, store0 id, by decide +kernel⟩,
   ⟨0, 1, true, store0 id, by decide +kernel⟩,
   ⟨0, 0, (ctState.ctEmit 0 0 0).get (by decide +kernel), ctState, by decide +kernel, by decide +kernel, by decide +kernel, by decide +kernel, (Option.some_get _).symm⟩,
   ⟨0, 0, ctState, by decide +kernel⟩,
   ⟨0, up, by decide +kernel⟩,
   ⟨0, up, by decide +kernel⟩,
   ⟨0, fly .sinkUnbind .unitDrain (dsc (hd 4 0) [(8, 1)]), flying .sinkUnbind .unitDrain (dsc (hd 4 0) [(8, 1)]) (withSink id), by decide +kernel⟩⟩

theorem test_witness_MpCommands :
    (∃ (d : Desc) (s : State), Ready .mpLoad d s ∧ (let a := accepted .mpLoad d s
      (d.handle ≠ 0 → (a.mp (hIdx d.handle)).st ≠ .running) ∧ a.sec.life ≠ .decommissioned ∧ d.clean [(0x08, 12)] = true ∧ addrOk (d.u 0x08 8) (d.u 0x10 4) 8 = true ∧ inR (d.u 0x10 4) 64 mpImageMax = true ∧ (d.handle = 0 → a.mpPick ≠ 0) ∧ (a.hostPort (a.flightPort d.ring.val).val).linkUp = true)) ∧
    (∃ (d : Desc) (buf : List (BitVec 8)) (t : State) (s : State) (h : Handle) (b : Nat), mpLoadData d buf s = .done .ok (hIdx h) b h t ∧ hIdx h < 16 ∧ num buf 0x10 4 = 0) ∧
    (∃ (d : Desc) (s : State), Ready .mpStart d s ∧ (let a := accepted .mpStart d s
      (let c := hIdx d.handle
      (let m := a.mp c
      (let n := (m.image.map fun g => g.data.length).getD 0
      a.valid 3 (mpIn d) = true ∧ a.valid 3 (mpOut d) = true ∧ (m.st = .loaded ∨ m.st = .trapped) ∧ (a.ringsWaiting fun f => f.op == .mpStart && f.stage == .power && f.d.handle == d.handle) = [] ∧ d.clean [(0x08, 14), (0x18, 4)] = true ∧ d.u 0x14 1 < 2 ∧ mpWinOk (d.u 0x10 2) = true ∧ mpWinOk (d.u 0x12 2) = true ∧ 2 * (d.u 0x10 2 + d.u 0x12 2) + n ≤ 16384 ∧ 2 * slotBytes (4 * d.u 0x12 2) ≤ (a.region (hIdx (mpOut d))).bytes ∧ a.writerBusy (hIdx (mpOut d)) (.mp c) = false ∧ mpIn d ≠ mpOut d ∧ (let b := a.setWriter (hIdx (mpOut d)) (.mp c)
      GrantedNow b 2 450 d.waitForPower)))))) ∧
    (∃ (d : Desc) (s : State), Ready .mpStop d s ∧ d.clean [(0x08, 1)] = true ∧ d.u 0x08 1 < 4 ∧ (let a := accepted .mpStop d s
      (let c := hIdx d.handle
      (dBit d 0x08 0 = false ∨ (a.mp c).drained = true)))) ∧
    (∃ (d : Desc) (s : State), Ready .mpStop d s ∧ d.clean [(0x08, 1)] = true ∧ d.u 0x08 1 < 4 ∧ (let a := accepted .mpStop d s
      (let c := hIdx d.handle
      dBit d 0x08 0 = true ∧ (a.mp c).drained = false))) ∧
    (∃ (d : Desc) (c : Fin 16) (s : State), (s.mp c.val).st = .running ∧ dBit d 0x08 1 = true) ∧
    (∃ (ring : Fin 16) (f : Inflight) (s : State), s.waitsAt ring.val .unitDrain = some f ∧ f.op = .mpStop) ∧
    (∃ (ring : Fin 16) (s : State), (∀ f, s.waitsAt ring.val .unitDrain = some f → f.op ≠ .mpStop)) :=
  ⟨⟨dsc 0 [(0x10, 64)], up, ready_of (by decide +kernel), by decide +kernel⟩,
   (let ⟨b, t, e⟩ := done_of (v := mpLoadData (dsc 0 [(0x10, 72)]) mpImg mpState) (c := 0) (h := hd 7 0) (by decide +kernel);
    ⟨dsc 0 [(0x10, 72)], mpImg, t, mpState, hd 7 0, b, e, by decide +kernel⟩),
   ⟨dsc (hd 7 0) [(8, 0x03000100), (0x0C, 0x03000101), (0x10, 64), (0x12, 4096)], reg 1 id (withMp fun m => { m with st := .loaded }), ready_of (by decide +kernel), by decide +kernel⟩,
   ⟨dsc (hd 7 0) [(8, 2)], withMp id, ready_of (by decide +kernel), by decide +kernel⟩,
   ⟨dsc (hd 7 0) [(8, 1)], withMp fun m => { m with filled := [(0, ⟨[], [], 0⟩)] }, ready_of (by decide +kernel), by decide +kernel⟩,
   ⟨dsc 0 [(8, 2)], 0, withMp id, by decide +kernel⟩,
   ⟨0, fly .mpStop .unitDrain (dsc (hd 7 0) [(8, 1)]), flying .mpStop .unitDrain (dsc (hd 7 0) [(8, 1)]) (withMp id), by decide +kernel⟩,
   ⟨0, up, (by intro f h; cases h)⟩⟩

theorem test_witness_MpCoreRows :
    (∃ (c : Fin 16) (err : MpErr) (m : Mp) (used : Bool) (s : State), (s.mp c.val).st = .running ∧ (s.mp c.val).waitIn = false ∧ (s.mp c.val).waitOut = false ∧ (s.mp c.val).instr err (Config.freeValue s.free) = .run m used false) ∧
    (∃ (c : Fin 16) (err : MpErr) (m : Mp) (used : Bool) (s : State), (s.mp c.val).st = .running ∧ (s.mp c.val).waitIn = false ∧ (s.mp c.val).waitOut = false ∧ (s.mp c.val).instr err (Config.freeValue s.free) = .run m used true) ∧
    (∃ (c : Fin 16) (err : MpErr) (s : State), (s.mp c.val).st = .running ∧ (s.mp c.val).waitIn = false ∧ (s.mp c.val).waitOut = false ∧ (s.mp c.val).instr err (Config.freeValue s.free) = .waitIn) ∧
    (∃ (c : Fin 16) (err : MpErr) (s : State), (s.mp c.val).st = .running ∧ (s.mp c.val).waitIn = false ∧ (s.mp c.val).waitOut = false ∧ (s.mp c.val).instr err (Config.freeValue s.free) = .waitOut) ∧
    (∃ (c : Fin 16) (err : MpErr) (s : State), ((s.mp c.val).st ≠ .running ∨ (s.mp c.val).waitIn = true ∨ (s.mp c.val).waitOut = true)) ∧
    (∃ (c : Fin 16) (detail : Nat) (s : State), (s.mp c.val).st = .running ∧ (s.mp c.val).waitIn = false ∧ (s.mp c.val).waitOut = false ∧ (s.mp c.val).instr .none (Config.freeValue s.free) = .trap 3 detail) ∧
    (∃ (i : MpIns) (m : Mp) (free : BitVec 64), i.aop = 0x0C ∧ i.mop = 0 ∧ i.d < 16 ∧ ∃ j : Nat, j ≠ i.d) ∧
    (∃ (i : MpIns) (m : Mp) (free : BitVec 64), i.aop = 0x0C ∧ i.mop = 0 ∧ i.d < 16 ∧ m.loops = []) ∧
    (∃ (i : MpIns) (m : Mp) (free : BitVec 64), i.aop = 0x01 ∧ i.mop = 0 ∧ i.a < 4 ∧ ∃ j : Nat, j ≠ i.a) ∧
    (∃ (pc : Nat) (l : MpLoop) (r : List MpLoop), l.last = pc ∧ 1 < l.left) ∧
    (∃ (pc : Nat) (l : MpLoop) (r : List MpLoop), l.last = pc ∧ l.left ≤ 1) ∧
    (∃ (c : Fin 16) (w : Nat) (s : State), (let m := s.mp c.val
      m.st = .running ∧ (m.waitIn = true ∧ m.filled ≠ [] ∨ m.waitOut = true ∧ m.freeOut = some w))) ∧
    (∃ (c : Fin 16) (s : State), (s.mp c.val).st ≠ .running) ∧
    (∃ (c : Fin 16) (s : State), (s.mp c.val).arriving = []) ∧
    (∃ (c : Fin 16) (s : State), (s.mp c.val).outq = []) ∧
    (∃ (c : Fin 16) (k : Nat) (x : MpIn) (rest : List MpIn) (s : State), (s.mp c.val).arriving = x :: rest ∧ (s.mp c.val).kind = some k ∧ num x.hdr 12 1 ≠ k) ∧
    (∃ (c : Fin 16) (x : MpIn) (rest : List MpIn) (w : Nat) (s : State), (let m := s.mp c.val
      m.arriving = x :: rest ∧ (∀ k, m.kind = some k → num x.hdr 12 1 = k) ∧ m.freeIn = none)) ∧
    (∃ (c : Fin 16) (x : MpIn) (rest : List MpIn) (w : Nat) (s : State), (let m := s.mp c.val
      m.arriving = x :: rest ∧ (∀ k, m.kind = some k → num x.hdr 12 1 = k) ∧ m.freeIn = some w)) ∧
    (∃ (c : Fin 16) (o : MpOut) (rest : List MpOut) (s : State), (let m := s.mp c.val
      m.outq = o :: rest ∧ (let p := padTo 8 (o.words.flatMap fun w => le 4 w.toNat)
      ∃ t : State, s.appendRecord (hIdx m.outReg) (o.header m.gapNext) p = some t))) ∧
    (∃ (c : Fin 16) (o : MpOut) (rest : List MpOut) (s : State), (let m := s.mp c.val
      m.outq = o :: rest ∧ (let p := padTo 8 (o.words.flatMap fun w => le 4 w.toNat)
      s.appendRecord (hIdx m.outReg) (o.header m.gapNext) p = none))) ∧
    (∃ (c : Fin 16) (s : State), (let m := s.mp c.val
      m.st = .running ∧ m.watchdog ≠ 0 ∧ (m.watchdog ≤ m.cycles ∨ m.waitIn = true ∨ m.waitOut = true))) ∧
    (∃ (c : Fin 16) (s : State), (let m := s.mp c.val
      m.watchdog = 0)) :=
  ⟨⟨0, .none, _, _, withMp id, by decide +kernel, by decide +kernel, by decide +kernel, rfl⟩,
   ⟨0, .none, _, _, withMp fun _ => mp0 0x80000000, by decide +kernel, by decide +kernel, by decide +kernel, rfl⟩,
   ⟨0, .none, withMp fun _ => mp0 0x60000000, by decide +kernel⟩,
   ⟨0, .none, withMp fun _ => outFull (mp0 0x70000000), by decide +kernel⟩,
   ⟨0, .none, up, by decide +kernel⟩,
   ⟨0, _, withMp fun _ => mp0 0xFFFFFFFFFFFFFFFF, by decide +kernel, by decide +kernel, by decide +kernel, rfl⟩,
   ⟨⟨0x0C, 0, 0, 1, 15, 0, 0, 0, 0, 0, 0, 0, 0⟩, Mp.reset, 0, by decide +kernel, by decide +kernel, by decide +kernel, 0, by decide +kernel⟩,
   ⟨⟨0x0C, 0, 0, 1, 15, 0, 0, 0, 0, 0, 0, 0, 0⟩, Mp.reset, 0, by decide +kernel⟩,
   ⟨⟨0x01, 3, 0, 1, 0, 0, 0, 0, 0, 0, 0, 0, 0⟩, Mp.reset, 0, by decide +kernel, by decide +kernel, by decide +kernel, 0, by decide +kernel⟩,
   ⟨5, ⟨0, 5, 2⟩, [], by decide +kernel⟩,
   ⟨5, ⟨0, 5, 1⟩, [], by decide +kernel⟩,
   ⟨0, 1, withMp fun m => { m with waitIn := true, filled := [(0, ⟨[], [], 0⟩)] }, by decide +kernel⟩,
   ⟨0, up, by decide +kernel⟩,
   ⟨0, up, by decide +kernel⟩,
   ⟨0, up, by decide +kernel⟩,
   ⟨0, 5, ⟨[], [], 0⟩, [], withMp fun m => { m with arriving := [⟨[], [], 0⟩], kind := some 5 }, by decide +kernel⟩,
   ⟨0, ⟨[], [], 0⟩, [], 0, withMp fun m => { m with arriving := [⟨[], [], 0⟩], filled := [(0, ⟨[], [], 0⟩), (1, ⟨[], [], 0⟩)] }, by decide +kernel, (fun k h => nomatch (show (none : Option Nat) = some k from h)), by decide +kernel⟩,
   ⟨0, ⟨[], [], 0⟩, [], 0, withMp fun m => { m with arriving := [⟨[], [], 0⟩] }, by decide +kernel, (fun k h => nomatch (show (none : Option Nat) = some k from h)), by decide +kernel⟩,
   ⟨0, ⟨0, [], [], false⟩, [], withMp fun m => { m with outq := [⟨0, [], [], false⟩] }, by decide +kernel, _, get_some (by decide +kernel)⟩,
   ⟨0, ⟨0, [], [], false⟩, [], reg 0 (fun r => { r with granules := [] }) (withMp fun m => { m with outq := [⟨0, [], [], false⟩] }), by decide +kernel, append_full _ _ _ _ (by decide +kernel)⟩,
   ⟨0, withMp fun m => { m with watchdog := 5, cycles := 5 }, by decide +kernel⟩,
   ⟨0, withMp id, by decide +kernel⟩⟩

theorem test_witness_ThimbleRuleCommands :
    (∃ (d : Desc) (s : State), Ready .aonRules d s ∧ (let a := accepted .aonRules d s
      (aonLog d ≠ 0 → a.valid 3 (aonLog d) = true ∧ a.writerBusy (hIdx (aonLog d)) .thimble = false) ∧ aonBodyOk d = true ∧ d.u 0x10 1 = 0)) ∧
    (∃ (d : Desc) (s : State), Ready .aonRules d s ∧ (let a := accepted .aonRules d s
      (aonLog d ≠ 0 → a.valid 3 (aonLog d) = true ∧ a.writerBusy (hIdx (aonLog d)) .thimble = false) ∧ aonBodyOk d = true ∧ d.u 0x10 1 ≠ 0 ∧ (a.hostPort (a.flightPort d.ring.val).val).linkUp = true)) ∧
    (∃ (d : Desc) (buf : List (BitVec 8)) (s : State), (let rules := (aonRules d buf).map fun raw => (⟨raw, .clear, 0⟩ : Rule)
      (aonLog d ≠ 0 → s.valid 3 (aonLog d) = true ∧ s.writerBusy (hIdx (aonLog d)) .thimble = false) ∧ rules.all Rule.ok = true ∧ (∀ r ∈ rules, r.act 2 = true → nth s.pins.func (20 + r.b 12) 0 = 5#4) ∧ dBit d 0x11 0 = false)) ∧
    (∃ (code : BitVec 16) (i : Nat) (s : State), s.thim.urgRun = some i) ∧
    (∃ (code : BitVec 16) (s : State), s.thim.urgRun = none ∧ s.thim.seqOn = true ∧ (s.thim.scanning = true → s.thim.mask ≠ [])) ∧
    (∃ (code : BitVec 16) (s : State), s.thim.urgRun = none ∧ (s.thim.seqOn = false ∨ s.thim.scanning = true ∧ s.thim.mask = [])) ∧
    (∃ (code : Nat) (s : State), 0 < s.thim.settle) ∧
    (∃ (k : Fin 8) (s : State), (nth s.thim.cmp k.val 0).getLsbD 31 = true ∧ nth s.thim.tripped k.val false = false) ∧
    (∃ (k : Fin 8) (s : State), (nth s.thim.tripped k.val false = true ∨ (nth s.thim.cmp k.val 0).getLsbD 31 = false)) ∧
    (∃ (i : Nat) (e : ThimEntry) (es : List ThimEntry) (t : State) (s : State), s.serving = true ∧ s.thim.logRegion = some i ∧ s.thim.pending = e :: es ∧ (let u := if 32 ≤ (e :: es).length then s else s.untilRtc (rtcOf74 e.time + unitS)
      (let hdr : Hdr := { Hdr.plain 0 0x0C 1 (execThimbleLogFlush.timeOf e.time) with journal := u.sec.jNext - 1 }
      u.appendRecord i hdr (padTo 8 (pack [(4, (e :: es).length), (4, 0)] ++ (e :: es).flatMap ThimEntry.bytes)) = some t))) ∧
    (∃ s : State, (s.serving = false ∨ s.thim.logRegion = none ∨ s.thim.pending = [])) :=
  ⟨⟨dsc 0 [], up, ready_of (by decide +kernel), by decide +kernel⟩,
   ⟨dsc 0 [(0x10, 1)], up, ready_of (by decide +kernel), by decide +kernel⟩,
   ⟨dsc 0 [], [], up, by decide +kernel⟩,
   ⟨5, 143, { up with thim := { up.thim with urgRun := some 143 } }, by decide +kernel⟩,
   ⟨5, { up with thim := { up.thim with cfg := 0x80000000 } }, by decide +kernel⟩,
   ⟨5, up, by decide +kernel⟩,
   ⟨5, { up with thim := { up.thim with settle := 1 } }, by decide +kernel⟩,
   ⟨7, { up with thim := { up.thim with cmp := upd up.thim.cmp 7 fun _ => 0x80000000 } }, by decide +kernel⟩,
   ⟨7, up, by decide +kernel⟩,
   ⟨0, entry0, List.replicate 31 entry0, _, logState, by decide +kernel, by decide +kernel, by decide +kernel, get_some (by decide +kernel)⟩,
   ⟨up, by decide +kernel⟩⟩

theorem test_witness_MonitorLines :
    (∃ (t : String) (n : Fin 16) (s : State), s.monOn = false) ∧
    (∃ (off : BitVec 24) (count : Nat) (v : Word) (n : Fin 16) (mask : Byte) (w : SelfTest) (s : State), s.monOn = true ∧ s.monOpen = false) ∧
    (∃ s : State, s.monOn = true) ∧
    (∃ (topic : String) (s : State), s.monOn = true ∧ topic ≠ "" ∧ (let found := monSyntax.find? fun x => x.1.toList.map upper == topic.toList.map upper
      ∃ x, found = some x)) ∧
    (∃ (topic : String) (s : State), s.monOn = true ∧ topic ≠ "" ∧ (let found := monSyntax.find? fun x => x.1.toList.map upper == topic.toList.map upper
      found = none)) ∧
    (∃ (sel : Option RingSel) (n : Fin 16) (thim sticky : Bool) (i : Option (Fin 144)) (s : State), s.monOn = true ∧ s.monOpen = true) ∧
    (∃ (h : Handle) (s : State), s.monOn = true ∧ s.monOpen = true) ∧
    (∃ (off : BitVec 24) (v : Word) (s : State), s.monOn = true ∧ s.monOpen = true ∧ off.toNat % 4 = 0) ∧
    (∃ (off : BitVec 24) (count : Nat) (s : State), s.monOn = true ∧ s.monOpen = true ∧ (inR count 1 64 = false ∨ off.toNat % 4 ≠ 0)) ∧
    (∃ (off : BitVec 24) (count : Nat) (s : State), s.monOn = true ∧ s.monOpen = true ∧ inR count 1 64 = true ∧ off.toNat % 4 = 0) ∧
    (∃ (lane : Fin 64) (s : State), s.monOn = true ∧ s.monOpen = true ∧ lane.val < laneCount s) ∧
    (∃ (lane : Fin 64) (s : State), s.monOn = true ∧ s.monOpen = true ∧ laneCount s ≤ lane.val) ∧
    (∃ (target second : Nat) (mask : Byte) (s : State), s.monOn = true ∧ s.monOpen = true ∧ s.pair.role ≠ .secondary ∧ s.pair.role ≠ .fenced ∧ s.sleepOk target mask.toNat second = true ∧ s.sleepGoes target = true) ∧
    (∃ (w : SelfTest) (f : List (SelfTest × String)) (s : State), s.monOn = true ∧ s.monOpen = true ∧ s.pwr.st ≠ .idle) ∧
    (∃ (w : SelfTest) (f : List (SelfTest × String)) (s : State), s.monOn = true ∧ s.monOpen = true ∧ s.pwr.st = .idle ∧ w = .rom ∧ f = []) ∧
    (∃ (w : SelfTest) (f : List (SelfTest × String)) (s : State), s.monOn = true ∧ s.monOpen = true ∧ s.pwr.st = .idle) ∧
    (∃ (token : List Byte) (s : State), s.monOn = true ∧ s.sec.monBlock = none) ∧
    (∃ (c : Byte) (s : State), s.pwr.wakeMask.getLsbD 1 = false ∧ s.thim.rx.length < 64 ∧ s.monOn = false) ∧
    (∃ (c : Byte) (s : State), s.pwr.wakeMask.getLsbD 1 = false ∧ s.thim.rx = [] ∧ s.monOn = true ∧ s.mon.cfg.getLsbD 30 = false ∧ c ∉ [8#8, 10#8, 13#8, 127#8] ∧ s.mon.line.length < 128) ∧
    (∃ (c : Byte) (s : State), (let u := s.wakeSleep 1
      u.thim.rx.length < 64)) ∧
    (∃ (c : Byte) (s : State), s.pwr.wakeMask.getLsbD 1 = false ∧ 64 ≤ s.thim.rx.length ∧ s.monOn = false) :=
  ⟨⟨"", 0, State.reset, by decide +kernel⟩,
   ⟨0, 1, 0, 0, 0, .rom, owned up, by decide +kernel⟩,
   ⟨up, by decide +kernel⟩,
   ⟨"id", up, by decide +kernel, by decide +kernel, ("id", "id"), by decide +kernel⟩,
   ⟨"zz", up, by decide +kernel⟩,
   ⟨none, 0, false, false, none, up, by decide +kernel⟩,
   ⟨hd 2 0, withChan id, by decide +kernel⟩,
   ⟨0, 0, up, by decide +kernel⟩,
   ⟨1, 1, up, by decide +kernel⟩,
   ⟨0, 2, up, by decide +kernel⟩,
   ⟨0, up, by decide +kernel⟩,
   ⟨63, { up with ident := { up.ident with small := true } }, by decide +kernel⟩,
   ⟨1, 0, 0, up, by decide +kernel⟩,
   ⟨.rom, [], up, by decide +kernel⟩,
   ⟨.rom, [], inSt .idle none up, by decide +kernel⟩,
   ⟨.rom, [], inSt .idle none up, by decide +kernel⟩,
   ⟨[], up, by decide +kernel⟩,
   ⟨65, { up with mon := { up.mon with cfg := 0 } }, by decide +kernel⟩,
   ⟨65, { up with mon := { up.mon with cfg := 0x80000000 } }, by decide +kernel⟩,
   ⟨65, up, by decide +kernel⟩,
   ⟨65, { up with mon := { up.mon with cfg := 0 }, thim := { up.thim with rx := List.replicate 64 65 } }, by decide +kernel⟩⟩

theorem test_witness_SealCommandsAndRows :
    (∃ (d : Desc) (s : State), Ready .sealOpen d s ∧ (let a := accepted .sealOpen d s
      sealOpenFields d a = true ∧ a.valid 3 (sealRegion d) = true ∧ a.sealBarred = false ∧ (a.hostPort (a.flightPort d.ring.val).val).linkUp = true ∧ ∃ k : Nat, sealClaim d a = .ok k)) ∧
    (∃ (d : Desc) (buf : List (BitVec 8)) (k : Fin 16) (s : State), buf.length ≤ d.u 0x10 4) ∧
    (∃ (d : Desc) (s : State), Ready .sealCheckpoint d s ∧ d.clean [] = true ∧ (let a := accepted .sealCheckpoint d s
      (a.session (hIdx d.handle)).closing = false ∧ a.midSeal (hIdx d.handle) = false)) ∧
    (∃ (d : Desc) (s : State), Ready .sealCheckpoint d s ∧ d.clean [] = true ∧ (let a := accepted .sealCheckpoint d s
      (a.session (hIdx d.handle)).closing = false ∧ a.midSeal (hIdx d.handle) = true)) ∧
    (∃ (d : Desc) (s : State), Ready .sealClose d s ∧ d.clean [] = true ∧ (let a := accepted .sealClose d s
      (a.session (hIdx d.handle)).closing = false ∧ (a.session (hIdx d.handle)).sink = none)) ∧
    (∃ (k : Fin 16) (s : State), (let x := s.session k.val
      x.isOpen = true ∧ x.closing = false ∧ x.t ≠ 0 ∧ (x.due.any fun c => c.1 == 1) = false)) ∧
    (∃ (k : Fin 16) (s : State), (let x := s.session k.val
      (x.isOpen = false ∨ x.closing = true ∨ x.t = 0 ∨ (x.due.any fun c => c.1 == 1) = true))) ∧
    (∃ (k : Fin 16) (c : Cut) (rest : List Cut) (t : State) (s : State), (s.session k.val).cuts = c :: rest ∧ s.unwritten k.val = [] ∧ c.ring = none ∧ (s.session k.val).closing = false ∧ s.appendRecord (s.session k.val).region (s.checkpoint k.val c).1 (s.checkpoint k.val c).2 = some t) ∧
    (∃ (k r : Fin 16) (c : Cut) (t : State) (s : State), (s.session k.val).cuts = [c] ∧ s.unwritten k.val = [] ∧ c.ring = some r ∧ c.kind = 3 ∧ (s.session k.val).closing = true ∧ s.appendRecord (s.session k.val).region (s.checkpoint k.val c).1 (s.checkpoint k.val c).2 = some t) ∧
    (∃ (k : Fin 16) (c : Cut) (rest : List Cut) (t : State) (s : State), (s.session k.val).cuts = c :: rest ∧ s.unwritten k.val ≠ [] ∧ c.ring = none ∧ (s.session k.val).closing = false ∧ s.appendRecord (s.session k.val).region (Hdr.plain (s.handleOf 8 k.val) 0x0D 2 (timeOf74 c.time)) (segmentBytes (s.unwritten k.val)) = some t ∧ (let v := t.setSession k.val fun x => { x with jNext := s.sec.jNext }
      ∃ u : State, v.appendRecord (v.session k.val).region (v.checkpoint k.val c).1 (v.checkpoint k.val c).2 = some u)) ∧
    (∃ (k : Fin 16) (s : State), (s.session k.val).cuts = []) ∧
    (∃ (k : Fin 16) (c : Cut) (rest : List Cut) (s : State), (s.session k.val).cuts = c :: rest ∧ s.unwritten k.val = [] ∧ s.appendRecord (s.session k.val).region (s.checkpoint k.val c).1 (s.checkpoint k.val c).2 = none) ∧
    (∃ (k : Fin 16) (tag : List (BitVec 8)) (s : State), (s.session k.val).due = [] ∧ (let x := s.session k.val
      (x.n = 0 ∨ x.since + 1 < x.n))) ∧
    (∃ (k : Fin 16) (tag : List (BitVec 8)) (s : State), (s.session k.val).due = [] ∧ (let x := s.session k.val
      x.n ≠ 0 ∧ x.n ≤ x.since + 1)) :=
  ⟨⟨dsc 0 [(0x10, 1665), (0x18, 0x03000100), (0x1C, 1), (0x24, 1)], reg 0 id up, ready_of (by decide +kernel), by decide +kernel, by decide +kernel, by decide +kernel, by decide +kernel, 0, by decide +kernel⟩,
   ⟨dsc 0 [], [], 15, up, by decide +kernel⟩,
   ⟨dsc (hd 8 0) [], withSeal id, ready_of (by decide +kernel), by decide +kernel⟩,
   ⟨dsc (hd 8 0) [], midState, ready_of (by decide +kernel), by decide +kernel⟩,
   ⟨dsc (hd 8 0) [], withSeal id, ready_of (by decide +kernel), by decide +kernel⟩,
   ⟨0, withSeal fun x => { x with t := 1 }, by decide +kernel⟩,
   ⟨1, withSeal id, by decide +kernel⟩,
   ⟨0, cut0, [], _, cutState, by decide +kernel, by decide +kernel, by decide +kernel, by decide +kernel, get_some (cut_room _ _ _ (by decide +kernel) (by decide +kernel))⟩,
   ⟨0, 0, { cut0 with kind := 3, ring := some 0 }, _, withSeal fun x => { x with cuts := [{ cut0 with kind := 3, ring := some 0 }], closing := true }, by decide +kernel, by decide +kernel, by decide +kernel, by decide +kernel, by decide +kernel, get_some (cut_room _ _ _ (by decide +kernel) (by decide +kernel))⟩,
   ⟨0, cut0, [], _, segState, by decide +kernel, by decide +kernel, by decide +kernel, by decide +kernel, get_some (append_room _ _ _ _ (by decide +kernel) (by decide +kernel)), _, get_some (cut_room _ _ _ (by decide +kernel) (by decide +kernel))⟩,
   ⟨1, up, by decide +kernel⟩,
   ⟨0, cut0, [], fullState, by decide +kernel, by decide +kernel, append_full _ _ _ _ (by decide +kernel)⟩,
   ⟨15, [], up, by decide +kernel⟩,
   ⟨0, [], withSeal id, by decide +kernel⟩⟩

theorem test_witness_SecurityRows :
    (∃ (p : Fin 2) (off len : Nat) (nonce : BitVec 256) (s : State), s.answers p = true) ∧
    (∃ (p : Fin 2) (off len : Nat) (nonce : BitVec 256) (i : BitVec 8) (s : State), s.answers p = false) ∧
    (∃ (r : LifeReq) (s : State), s.answers r.port = false) ∧
    (∃ (r : LifeReq) (s : State), s.answers r.port = true ∧ s.lifeFresh r.serial r.challenge = false) ∧
    (∃ (p : Fin 2) (s : State), s.answers p = true) ∧
    (∃ (p : Fin 2) (i : BitVec 8) (b : List (BitVec 8)) (s : State), s.answers p = true ∧ i ≠ 0 ∧ i ≠ 0xFF ∧ s.measurement i.toNat = some b) ∧
    (∃ (p : Fin 2) (i : BitVec 8) (b : List (BitVec 8)) (s : State), s.answers p = true ∧ i ≠ 0 ∧ i ≠ 0xFF ∧ s.measurement i.toNat = none) ∧
    (∃ (r : LifeReq) (k : Nat) (s : State), s.answers r.port = true ∧ s.lifeFresh r.serial r.challenge = true ∧ s.sec.life = .unowned ∧ s.sec.owners.toList.findIdx? (· == .blank) = some k ∧ r.key.length = 2689) ∧
    (∃ (r : LifeReq) (s : State), s.answers r.port = true ∧ (s.lifeFresh r.serial r.challenge = false ∨ s.sec.life ≠ .unowned)) ∧
    (∃ (r : LifeReq) (k : Nat) (s : State), s.answers r.port = true ∧ s.lifeFresh r.serial r.challenge = true ∧ s.sec.life = .owned ∧ s.sec.slot = some k ∧ (∀ j : Fin 16, (s.session j.val).isOpen = false)) ∧
    (∃ (r : LifeReq) (s : State), s.answers r.port = true ∧ s.lifeFresh r.serial r.challenge = true ∧ s.sec.life = .owned) ∧
    (∃ (r : LifeReq) (s : State), s.answers r.port = true ∧ s.lifeFresh r.serial r.challenge = true ∧ s.sec.life = .owned) ∧
    (∃ (r : LifeReq) (s : State), s.answers r.port = true ∧ s.lifeFresh r.serial r.challenge = true ∧ (s.sec.life = .unowned ∨ s.sec.life = .owned)) ∧
    (∃ (r : LifeReq) (s : State), s.answers r.port = true ∧ s.sec.life = .owned ∧ inR r.expiry 1 86400 = true ∧ r.mask.toNat < 4 ∧ s.lifeFresh r.serial r.challenge = true) ∧
    (∃ (r : LifeReq) (s : State), s.answers r.port = true ∧ s.sec.life = .owned ∧ inR r.expiry 1 86400 = true ∧ r.mask.toNat < 4 ∧ s.lifeFresh r.serial r.challenge = false) ∧
    (∃ (r : LifeReq) (s : State), s.answers r.port = true ∧ (s.sec.life ≠ .owned ∨ inR r.expiry 1 86400 = false ∨ 4 ≤ r.mask.toNat)) ∧
    (∃ (mask : Byte) (t : Nat) (s : State), s.sec.debugTok = some (mask, t)) ∧
    (∃ s : State, s.sec.debugTok = none) ∧
    (∃ (mask : Byte) (t : Nat) (s : State), s.sec.debugTok = some (mask, t)) :=
  ⟨⟨0, 0, 1, 0, up, by decide +kernel⟩,
   ⟨0, 0, 1, 0, 1, State.reset, by decide +kernel⟩,
   ⟨req, State.reset, by decide +kernel⟩,
   ⟨req, up, by decide +kernel⟩,
   ⟨0, up, by decide +kernel⟩,
   ⟨0, 1, _, up, by decide +kernel, by decide +kernel, by decide +kernel, get_some (by decide +kernel)⟩,
   ⟨0, 0xFE, [], up, by decide +kernel⟩,
   ⟨req, 0, fresh up, by decide +kernel⟩,
   ⟨req, up, by decide +kernel⟩,
   ⟨req, 0, owned (fresh up), by decide +kernel⟩,
   ⟨req, owned (fresh up), by decide +kernel⟩,
   ⟨req, owned (fresh up), by decide +kernel⟩,
   ⟨req, fresh up, by decide +kernel⟩,
   ⟨req, owned (fresh up), by decide +kernel⟩,
   ⟨req, owned up, by decide +kernel⟩,
   ⟨req, up, by decide +kernel⟩,
   ⟨3, 5, { up with sec := { up.sec with debugTok := some (3, 5) } }, by decide +kernel⟩,
   ⟨up, by decide +kernel⟩,
   ⟨3, 5, { up with sec := { up.sec with debugTok := some (3, 5) } }, by decide +kernel⟩⟩

theorem test_witness_PairCommands :
    (∃ (d : Desc) (s : State), Ready .pairJoin d s ∧ (let a := accepted .pairJoin d s
      d.clean [(0x08, 3), (0x0C, 2), (0x10, 8)] = true ∧ inR (d.u 0x08 1) 1 2 = true ∧ d.u 0x09 1 ≤ 1 ∧ d.u 0x0A 1 ≤ 1 ∧ inR (d.u 0x0C 2) 1 1000 = true ∧ (a.pair.role = .solo ∨ (a.pair.role = .fenced ∧ d.u 0x08 1 = 2)) ∧ (d.u 0x08 1 = 2 → a.liveHandles = []) ∧ a.pair.arb = (d.u 0x08 1 == 1) ∧ (a.ringsWaiting fun f => f.op == .pairJoin && (f.stage == .join || f.stage == .power)) = [] ∧ GrantedNow a 0 5400 d.waitForPower)) ∧
    (∃ (d : Desc) (s : State), Ready .pairRole d s ∧ d.clean [(0x08, 1)] = true ∧ (let a := accepted .pairRole d s
      d.u 0x08 1 = 0 ∧ (a.pair.role = .primary ∨ a.pair.role = .secondary))) ∧
    (∃ (d : Desc) (s : State), Ready .pairRole d s ∧ d.clean [(0x08, 1)] = true ∧ (let a := accepted .pairRole d s
      d.u 0x08 1 = 1 ∧ a.pair.role = .primary ∧ a.switching = false)) ∧
    (∃ (d : Desc) (s : State), Ready .pairRole d s ∧ d.clean [(0x08, 1)] = true ∧ (let a := accepted .pairRole d s
      d.u 0x08 1 = 2 ∧ a.pair.role = .fenced)) ∧
    (∃ (d : Desc) (s : State), Ready .pairStatus d s ∧ d.clean [(0x08, 12)] = true ∧ 64 ≤ d.u 0x10 4 ∧ addrOk (d.u 0x08 8) (d.u 0x10 4) 64 = true ∧ (let a := accepted .pairStatus d s
      (a.hostPort (a.flightPort d.ring.val).val).linkUp = true)) ∧
    (∃ (ring : Fin 16) (f : Inflight) (s : State), s.waitsAt ring.val .join = some f) ∧
    (∃ (ring : Fin 16) (f : Inflight) (s : State), s.waitsAt ring.val .switchover = some f) ∧
    (∃ (ring : Fin 16) (s : State), s.waitsAt ring.val .join = none) ∧
    (∃ (ring : Fin 16) (s : State), s.waitsAt ring.val .switchover = none) ∧
    (∃ (n : Fin 9) (s : State), s.joining = none ∧ s.inPair = false) ∧
    (∃ (n : Fin 9) (s : State), s.joining = none ∧ s.inPair = true ∧ n.val = 0) ∧
    (∃ (n : Fin 9) (s : State), s.joining = none ∧ s.inPair = true ∧ n.val ≠ 0) ∧
    (∃ (n : Fin 9) (r : Nat) (f : Inflight) (s : State), s.joining = some (r, f) ∧ n.val = 0) ∧
    (∃ (n : Fin 9) (r : Nat) (f : Inflight) (s : State), s.joining = some (r, f) ∧ n.val ≠ 0 ∧ s.pair.agreed = false) ∧
    (∃ (n : Fin 9) (r : Nat) (f : Inflight) (s : State), s.joining = some (r, f) ∧ n.val ≠ 0 ∧ s.pair.agreed = true) ∧
    (∃ n : Nat, n ≤ 8 ∧ n ≠ 0) :=
  ⟨⟨dsc 0 [(8, 1), (0x0C, 1000)], { up with pair := { up.pair with arb := true } }, ready_of (by decide +kernel), by decide +kernel⟩,
   ⟨dsc 0 [], role .primary up, ready_of (by decide +kernel), by decide +kernel⟩,
   ⟨dsc 0 [(8, 1)], role .primary up, ready_of (by decide +kernel), by decide +kernel⟩,
   ⟨dsc 0 [(8, 2)], role .fenced up, ready_of (by decide +kernel), by decide +kernel⟩,
   ⟨dsc 0 [(0x10, 64)], up, ready_of (by decide +kernel), by decide +kernel⟩,
   ⟨0, fly .pairJoin .join (dsc 0 []), flying .pairJoin .join (dsc 0 []) up, by decide +kernel⟩,
   ⟨0, fly .pairRole .switchover (dsc 0 []), flying .pairRole .switchover (dsc 0 []) (role .primary up), by decide +kernel⟩,
   ⟨0, up, by decide +kernel⟩,
   ⟨0, up, by decide +kernel⟩,
   ⟨3, up, by decide +kernel⟩,
   ⟨0, role .primary up, by decide +kernel⟩,
   ⟨3, role .primary up, by decide +kernel⟩,
   ⟨0, 0, fly .pairJoin .join (dsc 0 [(8, 1)]), flying .pairJoin .join (dsc 0 [(8, 1)]) up, by decide +kernel⟩,
   ⟨8, 0, fly .pairJoin .join (dsc 0 [(8, 1)]), flying .pairJoin .join (dsc 0 [(8, 1)]) up, by decide +kernel⟩,
   ⟨8, 0, fly .pairJoin .join (dsc 0 [(8, 1)]), { flying .pairJoin .join (dsc 0 [(8, 1)]) up with pair := { up.pair with agreed := true } }, by decide +kernel⟩,
   ⟨8, by decide +kernel⟩⟩

theorem test_witness_PairRows :
    (∃ s : State, s.inPair = true) ∧
    (∃ (w : Bool) (s : State), s.inPair = false) ∧
    (∃ s : State, s.inPair = true) ∧
    (∃ (cause : Nat) (s : State), s.pair.arb = false) ∧
    (∃ s : State, s.inPair = true ∧ s.pair.role = .secondary) ∧
    (∃ s : State, s.inPair = true ∧ s.pair.role = .primary ∧ (let sec := s.time.tb / unitS
      sec = s.pair.offsetSec)) ∧
    (∃ s : State, s.inPair = true ∧ s.pair.role = .primary ∧ (let sec := s.time.tb / unitS
      sec ≠ s.pair.offsetSec)) ∧
    (∃ (cause : Nat) (s : State), s.pair.arb = true) ∧
    (∃ s : State, s.pair.waitArb = none) ∧
    (∃ (w : Bool) (op : Op) (d : Desc) (data : List (BitVec 8)) (h : Handle) (ring : Fin 16) (code : BitVec 8) (s : State), s.inPair = true) ∧
    (∃ (w : Bool) (op : Op) (d : Desc) (data : List (BitVec 8)) (h : Handle) (ring : Fin 16) (code : BitVec 8) (s : State), s.inPair = false) ∧
    (∃ (w : Bool) (op : Op) (d : Desc) (data : List (BitVec 8)) (h : Handle) (ring : Fin 16) (code : BitVec 8) (s : State), s.pair.role = .secondary) ∧
    (∃ (w : Bool) (op : Op) (d : Desc) (data : List (BitVec 8)) (h : Handle) (ring : Fin 16) (code : BitVec 8) (s : State), s.pair.role ≠ .secondary) ∧
    (∃ (t : Nat) (s : State), s.pair.waitArb = some t) ∧
    (∃ s : State, s.pair.waitArb = none) ∧
    (∃ s : State, s.pair.waitArb ≠ none) ∧
    (∃ (n : Fin 160) (c : Word) (s : State), s.pair.role = .secondary) ∧
    (∃ (k : Fin 128) (q : Nat) (s : State), s.pair.role = .secondary) ∧
    (∃ (op : Op) (d : Desc) (data : List (BitVec 8)) (h : Handle) (s : State), s.pair.role = .secondary ∧ unmirrored s op d = false) ∧
    (∃ (op : Op) (d : Desc) (data : List (BitVec 8)) (h : Handle) (s : State), (s.pair.role ≠ .secondary ∨ unmirrored s op d = true)) ∧
    (∃ (ring : Fin 16) (f : Inflight) (s : State), s.pair.role = .primary ∧ s.waitsAt ring.val .mirror = some f ∧ ∃ code : BitVec 8, code ≠ 0) ∧
    (∃ (ring : Fin 16) (code : BitVec 8) (s : State), (s.pair.role ≠ .primary ∨ s.waitsAt ring.val .mirror = none)) ∧
    (∃ (f : SeamFrame) (l : List Emission) (s : State), s.pair.trained = true ∧ s.io.out = l ++ [.seam f]) ∧
    (∃ s : State, s.pair.trained = false) ∧
    (∃ s : State, s.pair.trained = true ∧ s.io.out = []) :=
  ⟨⟨role .primary up, by decide +kernel⟩,
   ⟨false, up, by decide +kernel⟩,
   ⟨role .primary up, by decide +kernel⟩,
   ⟨0, up, by decide +kernel⟩,
   ⟨role .secondary up, by decide +kernel⟩,
   ⟨role .primary up, by decide +kernel⟩,
   ⟨{ up with pair := { up.pair with role := .primary, trained := true, offsetSec := 5 } }, by decide +kernel⟩,
   ⟨0, { up with pair := { up.pair with arb := true } }, by decide +kernel⟩,
   ⟨up, by decide +kernel⟩,
   ⟨false, .timeSet, dsc 0 [], [], 0, 0, 0, role .primary up, by decide +kernel⟩,
   ⟨false, .timeSet, dsc 0 [], [], 0, 0, 0, up, by decide +kernel⟩,
   ⟨false, .timeSet, dsc 0 [], [], 0, 0, 0, role .secondary up, by decide +kernel⟩,
   ⟨false, .timeSet, dsc 0 [], [], 0, 0, 0, up, by decide +kernel⟩,
   ⟨5, { role .secondary up with pair := { up.pair with role := .secondary, waitArb := some 5 } }, by decide +kernel⟩,
   ⟨up, by decide +kernel⟩,
   ⟨{ role .secondary up with pair := { up.pair with role := .secondary, waitArb := some 5 } }, by decide +kernel⟩,
   ⟨159, 5, role .secondary up, by decide +kernel⟩,
   ⟨127, 4, role .secondary up, by decide +kernel⟩,
   ⟨.timeSet, dsc 0 [], [], 0, role .secondary up, by decide +kernel⟩,
   ⟨.timeSet, dsc 0 [], [], 0, up, by decide +kernel⟩,
   ⟨0, fly .timeSet .mirror (dsc 0 []), flying .timeSet .mirror (dsc 0 []) (role .primary up), by decide +kernel, by decide +kernel, 3, by decide +kernel⟩,
   ⟨0, 3, up, by decide +kernel⟩,
   ⟨.doorbell 5 7, [], { role .primary up with io := { up.io with out := [.seam (.doorbell 5 7)] } }, by decide +kernel⟩,
   ⟨up, by decide +kernel⟩,
   ⟨role .primary up, by decide +kernel⟩⟩

end Sys2Proof.Tests
end

section
/-! When a ring's command runs, when it waits, and what is checked first: the outcomes of `runCommand` and `precheck`, one rule each, and
the statements they settle. -/

namespace Sys2Proof.Machine

variable {op : Op} {d : Desc} {s : State} {st : Status}

/-- The shared path gives every opcode its meaning; an opcode byte of the table is not BAD_OPCODE's, hence the hypothesis. -/
theorem exec_ringInstr (h : Op.ofCode op.code = op) : exec (ringInstr op d) s = .next (runCommand op d s) := by
  cases op with
  | bad c => exact if_pos h
  | _ => rfl

/-! ### The outcomes of a descriptor before its body -/

/-- A ring that is not enabled and a device that serves nothing take no command (log entry 14). -/
theorem runCommand_unserved (h : (s.cmdRing d.ring.val).en = false ∨ s.serving = false) : runCommand op d s = s := by
  rcases h with h | h <;> simp [runCommand, h]

/-- A fetched command joins the backlog where something of its ring waits, it is another ring's turn, or firmware cannot accept (R69, R70). -/
theorem runCommand_parked (he : (s.cmdRing d.ring.val).en = true) (hs : s.serving = true)
    (hw : ((s.fetched d.ring.val).cmdRing d.ring.val).backlog ≠ [] ∨ (s.fetched d.ring.val).turnOf d.ring.val = false ∨
      (s.fetched d.ring.val).canAccept d.ring.val op d = false) :
    runCommand op d s = (s.fetched d.ring.val).park op d := by
  rcases hw with hw | hw | hw <;> simp [runCommand, he, hs, hw]

/-- An accepted command that is not mirrored and fails a check completes with the check's status (R67, R93). -/
theorem runCommand_refused (ho : Offered op d s) (hm : (accepted op d s).mirrors op d = false)
    (hp : precheck op d (accepted op d s) = some st) :
    runCommand op d s = (accepted op d s).complete d.ring.val st 0 0 d.handle := by
  unfold accepted at *
  simp [runCommand_offered ho, acceptRun, hm, hp]

/-- A primary checks a command that it mirrors against what the mirrored commands before it leave (R672). -/
theorem runCommand_mirror_refused (ho : Offered op d s) (hm : (accepted op d s).mirrors op d = true)
    (hp : precheck op d (accepted op d s).view = some st) :
    runCommand op d s = (accepted op d s).complete d.ring.val st 0 0 d.handle := by
  unfold accepted at *
  simp [runCommand_offered ho, acceptRun, hm, State.mirrorRun, hp]

/-! ### The checks before a command's own -/

/-- BAD_OPCODE is no row of the opcode table. -/
theorem bad_notMem_opTable (c : BitVec 8) : Op.bad c ∉ opTable := by
  simp [opTable]

/-- For a command of the table the checks are the pair's role and then the handle (R93, R669, R671). -/
theorem precheck_of_mem_opTable (h : op ∈ opTable) :
    precheck op d s =
      if s.pair.role = .fenced ∧ unmirrored s op d = false then some .pairFenced
      else if s.pair.role = .secondary ∧ unmirrored s op d = false then some .wrongState
      else if s.handleOk op d.handle = false then some .badHandle
      else none := by
  cases op with
  | bad c => exact absurd h (bad_notMem_opTable c)
  | _ => simp [precheck]

/-! ### The statements -/

/-- Settles O1: the queue's front is what `step` matches on. -/
theorem stepRunsFront : Obligations.StepRunsFront :=
  fun _ _ _ => rfl

/-- Settles O8: every row of the table runs the shared path, whose outcomes are the rules above. -/
theorem commandsWaitTheirTurn : Obligations.CommandsWaitTheirTurn := by
  unfold Obligations.CommandsWaitTheirTurn
  refine ⟨?unserved, ?parked, ?refused, ?mirrorRefused, ?ready, ?fenced, ?secondary, ?badHandle⟩
  case unserved =>
    intro op d s hop h
    rw [exec_ringInstr hop, runCommand_unserved h]
  case parked =>
    intro op d s hop he hs hw
    rw [exec_ringInstr hop, runCommand_parked he hs hw]
  case refused =>
    intro op d s st hop ho hm hp
    rw [exec_ringInstr hop, runCommand_refused ho hm hp]
  case mirrorRefused =>
    intro op d s st hop ho hm hp
    rw [exec_ringInstr hop, runCommand_mirror_refused ho hm hp]
  case ready =>
    intro op d s hop hr
    rw [exec_ringInstr hop, runCommand_ready hr]
  case fenced =>
    intro op d s hop hrole hu
    simp [precheck_of_mem_opTable hop, hrole, hu]
  case secondary =>
    intro op d s hop hrole hu
    simp [precheck_of_mem_opTable hop, hrole, hu]
  case badHandle =>
    intro op d s hop hf hs hh
    simp [precheck_of_mem_opTable hop, hf, hs, hh]

end Sys2Proof.Machine
end

section
/-! Command descriptors: the slot that spells a command decodes to it (R63, R103). -/

namespace Sys2Proof.Machine

/-- An opcode byte of the table is its row's: the bytes are all different (R103). -/
theorem ofCode_code_of_mem {op : Op} (h : op ∈ opTable) : Op.ofCode op.code = op := by
  revert op; decide

/-- An opcode byte outside the table is BAD_OPCODE's (R67). -/
theorem ofCode_of_not_mem {c : Byte} (h : ∀ op ∈ opTable, op.code ≠ c) : Op.ofCode c = .bad c := by
  have hnone : opTable.find? (fun o => o.code == c) = none := by
    rw [List.find?_eq_none]
    intro op hop
    simpa using h op hop
  simp [Op.ofCode, hnone]

/-- A field of a word is found above the bytes that are put below the word. -/
theorem extractLsb'_above {m k n i : Nat} {hi : BitVec m} {lo : BitVec n} {x : BitVec k} (h : hi.extractLsb' i k = x) :
    (hi ++ lo).extractLsb' (i + n) k = x := by
  rw [BitVec.extractLsb'_append_eq_of_le (by omega), Nat.add_sub_cancel, h]

/-- A slot gives back every field that it was put together from, whatever its opcode byte (R63). -/
theorem decodeDesc_encodeDesc (op : Op) (d : Desc) : decodeDesc d.ring (encodeDesc op d) = (Op.ofCode op.code, d) := by
  have low {m n : Nat} {hi : BitVec m} {lo : BitVec n} : (hi ++ lo).extractLsb' 0 n = lo := BitVec.extractLsb'_append_eq_right
  have hcode : (encodeDesc op d).extractLsb' 0 8 = op.code := low
  have hflags : (encodeDesc op d).extractLsb' 8 8 = d.flags := extractLsb'_above low
  have htag : (encodeDesc op d).extractLsb' 16 16 = d.tag := extractLsb'_above (extractLsb'_above low)
  have hhandle : (encodeDesc op d).extractLsb' 32 32 = d.handle := extractLsb'_above (extractLsb'_above (extractLsb'_above low))
  have hparams : (encodeDesc op d).extractLsb' 64 384 = d.params :=
    extractLsb'_above (extractLsb'_above (extractLsb'_above (extractLsb'_above low)))
  have hrsvd : (encodeDesc op d).extractLsb' 448 56 = d.rsvd :=
    extractLsb'_above (extractLsb'_above (extractLsb'_above (extractLsb'_above (extractLsb'_above low))))
  have hlast : (encodeDesc op d).extractLsb' 504 8 = d.last :=
    extractLsb'_above (extractLsb'_above (extractLsb'_above (extractLsb'_above (extractLsb'_above
      (extractLsb'_above (BitVec.extractLsb'_eq_self (x := d.last)))))))
  simp only [decodeDesc, hcode, hflags, htag, hhandle, hparams, hrsvd, hlast]

/-- Settles O7: the fields of a slot do not overlap, and the opcode byte names its row. -/
theorem descriptorDecodeOfEncode : Obligations.DescriptorDecodeOfEncode := by
  unfold Obligations.DescriptorDecodeOfEncode
  refine ⟨?_, ?_⟩
  · intro op d hop
    rw [decodeDesc_encodeDesc, ofCode_code_of_mem hop]
  · intro c d hc
    rw [decodeDesc_encodeDesc, show (Op.bad c).code = c from rfl, ofCode_of_not_mem hc]

end Sys2Proof.Machine
end

section
/-! SUPPORT. Frames, and what each operation of the control path does to its fields. -/

namespace Sys2Proof

open Sys2Proof.Machine

variable {s t u : State} {ps qs : List Part}

theorem Part.same_refl (p : Part) : p.same s s := by cases p <;> rfl

theorem Kept.refl (ps : List Part) (s : State) : Kept ps s s := ⟨rfl, fun p _ => p.same_refl⟩

theorem Part.same_trans {p : Part} (h : p.same s t) (h' : p.same t u) : p.same s u := by
  cases p <;> exact Eq.trans h' h

theorem Kept.trans (h : Kept ps s t) (h' : Kept ps t u) : Kept ps s u :=
  ⟨h'.1.trans h.1, fun p hp => Part.same_trans (h.2 p hp) (h'.2 p hp)⟩

theorem Kept.mono (h : Kept ps s t) (hsub : ps ⊆ qs) : Kept qs s t :=
  ⟨h.1, fun p hp => h.2 p fun hm => hp (hsub hm)⟩

/-- A change of the control path alone. -/
theorem kept_io (x : Io) : Kept [.io] s { s with io := x } := by
  refine ⟨rfl, fun p hp => ?_⟩
  cases p with
  | io => simp at hp
  | _ => rfl

/-- A change of the parts that a final completion may change. -/
theorem kept_completion (x : Io) (y : Pair) (z : Sec) : Kept completion s { s with io := x, pair := y, sec := z } := by
  refine ⟨rfl, fun p hp => ?_⟩
  cases p with
  | io | pair | sec => simp [completion] at hp
  | _ => rfl

end Sys2Proof

namespace Sys2Proof.Machine

variable {io : Io}

theorem Io.write_shape (p a : Nat) (bs : List Byte) (x : Bool) : ∃ ps out, io.write p a bs x = { io with ports := ps, out := out } := by
  unfold Io.write
  dsimp only
  split
  · exact ⟨_, _, rfl⟩
  · exact ⟨_, io.out, rfl⟩

/-- A write through a port changes the ports and the outputs. -/
@[simp] theorem Io.write_parts (p a : Nat) (bs : List Byte) (x : Bool) :
    (io.write p a bs x).cmd = io.cmd ∧ (io.write p a bs x).evt = io.evt ∧ (io.write p a bs x).data = io.data ∧
    (io.write p a bs x).dbBad = io.dbBad ∧ (io.write p a bs x).accepted = io.accepted ∧ (io.write p a bs x).fence = io.fence := by
  obtain ⟨ps, out, h⟩ := Io.write_shape (io := io) p a bs x
  simp [h]

theorem Io.message_shape (p : Fin 2) (v : Nat) : ∃ ps out, io.message p v = { io with ports := ps, out := out } := by
  unfold Io.message
  dsimp only
  split
  · exact ⟨_, io.out, rfl⟩
  · exact ⟨io.ports, _, rfl⟩

/-- Signalling clears the ring's unsignalled records and sends or holds a message (R84). -/
theorem Io.signal_shape (n : Nat) : ∃ ps out, io.signal n =
    { io with evt := upd io.evt n fun r => { r with unsig := 0 }, ports := ps, out := out } := by
  unfold Io.signal
  dsimp only
  split
  · exact ⟨_, io.out, rfl⟩
  · obtain ⟨ps, out, h⟩ := Io.message_shape (io := { io with evt := upd io.evt n fun r => { r with unsig := 0 } })
      (nth io.evt n .reset).port (nth io.evt n .reset).vector.toNat
    exact ⟨ps, out, h⟩

/-- An update depends on its function's value at the element alone. -/
theorem upd_congr {α : Type} {n i : Nat} {v : Vector α n} {f g : α → α} {d : α} (h : f (nth v i d) = g (nth v i d)) :
    upd v i f = upd v i g := by
  unfold upd nth at *
  split
  · next hi => simp only [hi, dif_pos] at h; rw [h]
  · rfl

/-- The event ring that takes a record: its next place, the mark of LOST cleared, the record among the last 16 (R74, R81). -/
def EvtRing.put (r : EvtRing) (e : EvtRecord) : EvtRing :=
  { r with
    written := r.written + 1, lostNext := false, unsig := r.unsig + 1
    recent := (r.recent ++ [{ e with lost := e.lost || r.lostNext }]).drop ((r.recent.length + 1) - 16) }

/-- What writing a record puts on the bus: the record at the ring's next place, and on a primary the count to its peer before and after. -/
def Io.sendRecord (io : Io) (n : Nat) (e : EvtRecord) : Io :=
  let r := nth io.evt n .reset
  let io := io.leaveL1 r.port.val
  let io := if io.mirrors then io.emit (.seam (.evtReserved (Fin.ofNat 16 n) r.written)) else io
  let io := io.emit (.hostWrite r.port (r.base.toNat + 32 * (r.written.toNat % 2 ^ r.size))
    (evtBytes r.size r.written.toNat { e with lost := e.lost || r.lostNext }) false)
  if io.mirrors then io.emit (.seam (.evtWritten (Fin.ofNat 16 n) r.written)) else io

theorem Io.sendRecord_shape (n : Nat) (e : EvtRecord) : ∃ ps out, io.sendRecord n e = { io with ports := ps, out := out } := by
  unfold Io.sendRecord
  by_cases h : io.mirrors = true
  · simp only [Io.leaveL1, Io.emit, h, if_true]
    exact ⟨_, _, rfl⟩
  · simp only [Io.leaveL1, Io.emit, h, if_false, Bool.false_eq_true]
    exact ⟨_, _, rfl⟩

/-- A write sends the record, takes the ring's next place, and signals where moderation or the record's severity asks for it (R84). -/
theorem Io.evtWrite_eq (n : Nat) (e : EvtRecord) : io.evtWrite n e =
    (let io1 := { io.sendRecord n e with evt := upd io.evt n fun r => r.put e }
     if (nth io1.evt n .reset).signals || e.sev.toNat ≥ 3 then io1.signal n else io1) := by
  have hsend : (io.sendRecord n e).evt = io.evt := by
    obtain ⟨ps, out, h⟩ := Io.sendRecord_shape (io := io) n e
    rw [h]
  have hput : upd io.evt n (fun r => r.put e) = upd (io.sendRecord n e).evt n fun r => { r with
      written := r.written + 1, lostNext := false, unsig := r.unsig + 1
      recent := (r.recent ++ [{ e with lost := e.lost || (nth io.evt n .reset).lostNext }]).drop ((r.recent.length + 1) - 16) } := by
    rw [hsend]
    exact upd_congr (d := .reset) rfl
  rw [hput]
  rfl

/-- Writing a record changes its event ring, the ports and the outputs; a signal clears the unsignalled count. -/
theorem Io.evtWrite_shape (n : Nat) (e : EvtRecord) : ∃ ps out,
    io.evtWrite n e = { io with evt := upd io.evt n fun r => r.put e, ports := ps, out := out } ∨
    io.evtWrite n e = { io with evt := upd (upd io.evt n fun r => r.put e) n fun r => { r with unsig := 0 }, ports := ps, out := out } := by
  obtain ⟨ps, out, hsend⟩ := Io.sendRecord_shape (io := io) n e
  rw [Io.evtWrite_eq, hsend]
  dsimp only
  split
  · obtain ⟨ps, out, hsig⟩ := Io.signal_shape (io := { io with evt := upd io.evt n fun r => r.put e, ports := ps, out := out }) n
    exact ⟨ps, out, .inr hsig⟩
  · exact ⟨_, _, .inl rfl⟩

/-- Writing a record leaves the command and data rings and the fence. -/
@[simp] theorem Io.evtWrite_parts (n : Nat) (e : EvtRecord) :
    (io.evtWrite n e).cmd = io.cmd ∧ (io.evtWrite n e).data = io.data ∧ (io.evtWrite n e).dbBad = io.dbBad ∧
    (io.evtWrite n e).fence = io.fence := by
  obtain ⟨ps, out, h | h⟩ := Io.evtWrite_shape (io := io) n e <;> simp [h]

/-- The ring that a record is written to. -/
theorem Io.evtWrite_evt {n : Nat} (hn : n < 16) (e : EvtRecord) : ∃ k,
    nth (io.evtWrite n e).evt n .reset = { (nth io.evt n .reset).put e with unsig := k } := by
  obtain ⟨ps, out, h | h⟩ := Io.evtWrite_shape (io := io) n e
  · exact ⟨((nth io.evt n .reset).put e).unsig, by rw [h]; simp only [nth_upd_same hn]⟩
  · exact ⟨0, by rw [h]; simp only [nth_upd_same hn]⟩

/-- Posting a completion leaves the command and data rings and the fence. -/
@[simp] theorem Io.donePost_parts (n : Nat) (e : EvtRecord) :
    (io.donePost n e).cmd = io.cmd ∧ (io.donePost n e).data = io.data ∧ (io.donePost n e).dbBad = io.dbBad ∧
    (io.donePost n e).fence = io.fence := by
  unfold Io.donePost
  dsimp only
  split <;> simp

end Sys2Proof.Machine
end

section
/-! Acceptance, final completions and event records: what each does to the control path, and the statements they settle. -/

namespace Sys2Proof.Machine

variable {s : State}

/-! ### Acceptance -/

/-- A doorbell or a fetch wakes no device but an IDLE one (R627). -/
theorem wakeIdle_of_active {src : Nat} (h : s.pwr.st = .active) : s.wakeIdle src = s := by
  simp [State.wakeIdle, h]

/-- A ring's count of what it has fetched, one slot on (R53). -/
def CmdRing.next (c : CmdRing) : CmdRing :=
  { c with
    prod := if below c.cons c.fetched c.prod then c.prod else c.fetched + 1, fetched := c.fetched + 1
    asked := if c.asked = c.fetched then c.fetched + 1 else c.asked, reads := dropSlot c.fetched c.reads, parked := false }

/-- Fetching on an ACTIVE device moves on one command ring alone. -/
theorem fetched_of_active (r : Nat) (h : s.pwr.st = .active) :
    s.fetched r = { s with io := { s.io with cmd := upd s.io.cmd r CmdRing.next } } :=
  wakeIdle_of_active h

/-- Settles O10: on an ACTIVE device fetching and accepting are two updates of the control path, one ring each. -/
theorem acceptanceReserves : Obligations.AcceptanceReserves := by
  unfold Obligations.AcceptanceReserves
  intro op d s hactive
  have hr : d.ring.val < 16 := d.ring.isLt
  simp only [accepted, fetched_of_active _ hactive, State.accept, State.cmdRing, nth_upd_same hr]
  refine ⟨⟨_, rfl, rfl, rfl, rfl, rfl, rfl⟩, rfl, rfl, ?reserved, ?fenced, ?unfenced, ?others, trivial, trivial, trivial, trivial, ?frame⟩
  case reserved => simp [CmdRing.next, nth_upd_same]
  case fenced => intro hf; simp [hf]
  case unfenced => intro hf; simp [hf]
  case others => intro q hq; rw [nth_upd_ne (Ne.symm hq), nth_upd_ne (Ne.symm hq)]
  case frame => exact kept_io _

/-! ### Event records -/

/-- A record that cannot be written waits while the holding queue has a free entry, else it is dropped and counted (R79, R81). -/
theorem Io.evtPost_blocked {io : Io} {n : Nat} {e : EvtRecord} (hw : (nth io.evt n .reset).held ≠ [] ∨ io.evtRoom n = false) :
    io.evtPost n e =
      if (nth io.evt n .reset).en && 0 < (nth io.evt n .reset).free then
        { io with evt := upd io.evt n fun r => { r with held := r.held ++ [e] } }
      else { io with evt := upd io.evt n fun r => { r with lost := satN 65535 (r.lost + 1), lostNext := true } } := by
  have hblocked : (decide ((nth io.evt n .reset).held = []) && io.evtRoom n) = false := by
    rcases hw with hw | hw <;> simp [hw]
  simp [Io.evtPost, hblocked]

/-- Settles O12: a record's fate is decided by the room of its ring and then by its holding queue. -/
theorem eventPosting : Obligations.EventPosting := by
  unfold Obligations.EventPosting
  refine ⟨?write, ?hold, ?drop, ?place, ?frame⟩
  case write =>
    intro io n e hheld hroom
    simp [Io.evtPost, hheld, hroom]
  case hold =>
    intro io n e hw hen hfree
    have hspace : 0 < (nth io.evt n.val .reset).free := by simp only [EvtRing.free]; omega
    rw [Io.evtPost_blocked hw]
    simp [hen, hspace, nth_upd_same n.isLt]
  case drop =>
    intro io n e hw hfull
    have hnone : ((nth io.evt n.val .reset).en && decide (0 < (nth io.evt n.val .reset).free)) = false := by
      rcases hfull with hoff | hfull
      · simp [hoff]
      · have : (nth io.evt n.val .reset).free = 0 := by simp only [EvtRing.free]; omega
        simp [this]
    rw [Io.evtPost_blocked hw, hnone]
    simp [nth_upd_same n.isLt, satN]
  case place =>
    intro io n e
    obtain ⟨k, hput⟩ := Io.evtWrite_evt (io := io) n.isLt e
    rw [hput]
    refine ⟨rfl, rfl, ?_⟩
    simp only [EvtRing.put]
    rw [List.getLast?_drop]
    simp
  case frame =>
    intro s e h l
    obtain ⟨x, hx⟩ := note_shape (s := s) e h l
    rw [hx]
    exact kept_io x

/-! ### Final completions -/

/-- A final completion frees its ring for the next command and counts it, unless the ring was set up anew since (R55, log entry 58). -/
theorem complete_cmd {r : Nat} {f : Inflight} {st : Status} {a b : Nat} {h : Handle} (hf : (s.cmdRing r).inflight = some f) :
    (s.complete r st a b h).io.cmd = upd s.io.cmd r fun c => { c with
      inflight := none, old := false, cons := if c.old then c.cons else c.cons + 1 } := by
  simp only [State.complete, hf]
  simp only [apply_ite State.io, apply_ite Io.cmd, journal_parts, Io.donePost_parts, Io.write_parts, ite_self]

/-- A completion that makes no journal entry leaves the security state. -/
theorem complete_sec_of_unjournalled {r : Nat} {f : Inflight} {st : Status} {a b : Nat} {h : Handle} (hf : (s.cmdRing r).inflight = some f)
    (hj : st ≠ .ok ∨ f.op.unjournalled = true) : (s.complete r st a b h).sec = s.sec := by
  have hno : (decide (st = .ok) && !f.op.unjournalled) = false := by rcases hj with hj | hj <;> simp [hj]
  simp only [State.complete, hf, hno, Bool.false_eq_true, if_false, apply_ite State.sec, ite_self]

/-- An entry that is appended is the journal's last, with the next index (R699). -/
theorem journalAdd_last (src : Nat) (opc : Byte) (tag : BitVec 16) (h : Handle) (dg : BitVec 384) :
    ∃ e, (s.journalAdd src opc tag h dg).sec.journal.getLast? = some e ∧ e.source = src ∧ e.opcode = opc ∧ e.tag = tag ∧
      e.handle = h ∧ (s.journalAdd src opc tag h dg).sec.jNext = e.index + 1 := by
  refine ⟨⟨s.sec.jNext, src, opc, tag, s.time74, h, dg⟩, ?_, rfl, rfl, rfl, rfl, rfl⟩
  simp only [State.journalAdd]
  rw [List.getLast?_drop]
  simp

/-- Settles O11: the parts of `State.complete`, and its journal entry as the journal's last. -/
theorem finalCompletion : Obligations.FinalCompletion := by
  unfold Obligations.FinalCompletion
  intro s r f st a b h hf
  have hcmd := complete_cmd (st := st) (a := a) (b := b) (h := h) hf
  refine ⟨?free, ?count, ?others, ?frame, ?failed, ?journalled, ?unjournalled⟩
  case free => simp only [State.cmdRing, hcmd, nth_upd_same r.isLt]
  case count => rw [State.cmdRing, hcmd, nth_upd_same r.isLt]; rfl
  case others => intro q hq; simp only [State.cmdRing, hcmd, nth_upd_ne (Ne.symm hq)]
  case frame =>
    obtain ⟨x, y, z, hshape⟩ := complete_shape (s := s) r.val st a b h
    rw [hshape]
    exact kept_completion x y z
  case failed => exact fun hst => complete_sec_of_unjournalled hf (.inl hst)
  case journalled =>
    intro hst hj
    simp only [State.complete, hf, hst, hj, decide_true, Bool.not_false, Bool.and_self, if_true]
    exact journalAdd_last ..
  case unjournalled => exact fun _ hj => complete_sec_of_unjournalled hf (.inr hj)

end Sys2Proof.Machine
end

section
/-! How a command whose body ends at once with another status than OK settles (R64, R72), and the statements that this settles. -/

namespace Sys2Proof.Machine

variable {op : Op} {d : Desc} {s : State}

/-- What acceptance puts in flight: the command, with its descriptor's handle. -/
theorem accepted_inflight (op : Op) (d : Desc) (s : State) : ∃ f, ((accepted op d s).cmdRing d.ring.val).inflight = some f ∧
    f.op = op ∧ f.d = d ∧ f.handle = d.handle := by
  simp only [accepted, State.accept, State.cmdRing, nth_upd_same d.ring.isLt]
  exact ⟨_, rfl, rfl, rfl, rfl⟩

/-- The handle of a command just accepted is its descriptor's. -/
theorem accepted_flightHandle : (accepted op d s).flightHandle d.ring.val = d.handle := by
  obtain ⟨f, hf, -, -, hh⟩ := accepted_inflight op d s
  simp [State.flightHandle, hf, hh]

/-- Claims that go leave the control path. -/
theorem dropClaims_io (r : Nat) : (s.dropClaims r).io = s.io := by
  unfold State.dropClaims
  split
  · rfl
  · dsimp only [State.syncLog]
    refine List.foldlRecOn (motive := fun t : State => t.io = s.io) _ _ rfl fun t ht ch _ => ?_
    split
    · exact ht
    · exact ht

/-- An accepted command that ends with the handle h loses the ring's claims, and h unless its descriptor names it. -/
theorem unclaim_accepted (h : Handle) : (accepted op d s).unclaim d.ring.val h =
    if h = d.handle then (accepted op d s).dropClaims d.ring.val else ((accepted op d s).dropClaims d.ring.val).handBack h := by
  obtain ⟨f, hf, -, hd, -⟩ := accepted_inflight op d s
  have hany : (((accepted op d s).dropClaims d.ring.val).cmdRing d.ring.val).inflight.any (fun f => f.d.handle == h) = (d.handle == h) := by
    rw [State.cmdRing, dropClaims_io, ← State.cmdRing, hf]
    simp [hd]
  simp only [State.unclaim, hany, beq_iff_eq, eq_comm (a := h)]

/-- A ready command settles what its body decides on the accepted state. -/
theorem exec_ready (hop : Op.ofCode op.code = op) (hr : Ready op d s) :
    exec (ringInstr op d) s = .next (settle d.ring.val (accepted op d s) (bodyOf op d (accepted op d s))) := by
  rw [exec_ringInstr hop, runCommand_ready hr]

/-- A ready command whose body fails loses what it claimed and has no other effect but its completion (R72). -/
theorem runCommand_failed {u : State} {st : Status} {x y : Nat} {h : Handle} (hr : Ready op d s) (hst : st ≠ .ok)
    (hb : bodyOf op d (accepted op d s) = .done st x y h u) (hu : u.flightHandle d.ring.val = d.handle) :
    runCommand op d s = ((accepted op d s).dropClaims d.ring.val).complete d.ring.val st x y h := by
  rw [runCommand_ready hr, hb, settle_fail hst, unclaim_accepted, if_pos hu]

/-- A ready command whose request for power is denied at once loses what it claimed, with a handle that it claimed, and completes with
POWER_DENIED (R606). -/
theorem runCommand_denied {u : State} {n : Need} {cls cost : Nat} {h : Handle} {k : State → Verdict} (hr : Ready op d s)
    (hb : bodyOf op d (accepted op d s) = .need n cls cost h u k)
    (hdenied : u.toActive.powerAnswer cls cost ((u.toActive.cmdRing d.ring.val).inflight.any fun f => f.d.waitForPower) = .denied) :
    runCommand op d s = (if h = d.handle then (accepted op d s).dropClaims d.ring.val
      else ((accepted op d s).dropClaims d.ring.val).handBack h).complete d.ring.val .powerDenied 0 0 d.handle := by
  obtain ⟨f, hf, -, hd, -⟩ := accepted_inflight op d s
  rw [runCommand_ready hr, hb]
  simp only [settle, hdenied, unclaim_accepted, hf, hd, Option.map_some, Option.getD_some]

/-! ### REGION_ALLOC up to its wakes -/

/-- The state in which REGION_ALLOC has claimed index i, its granules and its window, with the region's handle in flight (R517–R519). -/
def regionClaimed (d : Desc) (i : Nat) (gs : List Nat) (w : Option Nat) (a : State) : State :=
  let c : State := if gs.any fun g => a.hbm.selfRef.getLsbD (g / 12288) then a.toActive else a
  let b : State := { c with regions := upd c.regions i fun x => { Region.reset with gen := x.gen, alloc := true, granules := gs, window := w } }
  b.setInflight d.ring.val (Option.map fun f => { f with handle := b.handleOf 3 i })

/-- REGION_ALLOC that finds an index, granules and a window waits for the zeroing, unless the wake of a stack is refused (R606, R802). -/
theorem regionAllocBody_claims {i : Nat} {gs : List Nat} {w : Option Nat} {a : State}
    (hok : allocOk a d = true) (hi : a.claimIdx 256 (fun i => !(a.region i).alloc) = some i)
    (hgs : allocGranules a (d.u 0x08 4) (if dBit d 0x0C 1 then some (d.u 0x0D 1) else none) = some gs)
    (hw : (if dBit d 0x0C 0 then (windowFor a (d.u 0x08 4)).map some else some none) = some w) :
    bodyOf .regionAlloc d a =
      let b := regionClaimed d i gs w a
      (wakeStacks d.ring.val (b.handleOf 3 i) d.waitForPower (b.asleep i) b).elim (fail .powerDenied d b) (.wait .zeroing (b.handleOf 3 i)) := by
  simp only [bodyOf, regionAllocBody, hok, hi, hgs, hw, Bool.not_true, Bool.false_eq_true, if_false]
  split
  · next t hwake => exact (congrArg (Option.elim · _ _) hwake).symm
  · next hwake => exact (congrArg (Option.elim · _ _) hwake).symm

/-- Leaving IDLE changes nothing of the control path. -/
theorem toActive_io (a : State) : a.toActive.io = a.io := by
  simp only [State.toActive, State.restartTime]
  split
  · split <;> rfl
  · split <;> rfl

/-- The handle in flight is the claimed region's. -/
theorem regionClaimed_flightHandle {i : Nat} {gs : List Nat} {w : Option Nat} :
    (regionClaimed d i gs w (accepted .regionAlloc d s)).flightHandle d.ring.val =
      (regionClaimed d i gs w (accepted .regionAlloc d s)).handleOf 3 i := by
  obtain ⟨f, hf, -, -, -⟩ := accepted_inflight .regionAlloc d s
  have hio : (if (gs.any fun g => (accepted .regionAlloc d s).hbm.selfRef.getLsbD (g / 12288)) = true then (accepted .regionAlloc d s).toActive
      else accepted .regionAlloc d s).io = (accepted .regionAlloc d s).io := by
    rw [apply_ite State.io, toActive_io, ite_self]
  rw [State.cmdRing] at hf
  simp only [regionClaimed, State.flightHandle, State.cmdRing, State.setInflight, hio, nth_upd_same d.ring.isLt, hf]
  rfl

/-! ### The statement of commands that fail -/

/-- A handle goes back by its kind: one vector of objects, or the security state, changes (R91). -/
theorem kept_handBack (h : Handle) : Kept [.streams, .chans, .regions, .sinks, .groups, .sweeps, .mps, .sec] s (s.handBack h) := by
  unfold State.handBack
  dsimp only
  refine ⟨by split <;> rfl, fun p hp => ?_⟩
  cases p with
  | streams | chans | regions | sinks | groups | sweeps | mps | sec => simp at hp
  | _ => split <;> rfl

/-- A region's handle goes back as the next generation of its index (R92). -/
theorem handBack_region (i : Fin 256) : s.handBack (BitVec.ofNat 32 (3 * 2 ^ 24 + i.val)) =
    { s with regions := upd s.regions i.val fun x => { x with gen := nextGen x.gen } } := by
  have hnat : (BitVec.ofNat 32 (3 * 2 ^ 24 + i.val)).toNat = 3 * 2 ^ 24 + i.val := by
    rw [BitVec.toNat_ofNat]
    omega
  have hkind : (3 * 2 ^ 24 + i.val) / 2 ^ 24 = 3 := by omega
  have hidx : (3 * 2 ^ 24 + i.val) % 256 = i.val := by omega
  simp only [State.handBack, hIdx, hnat, hkind, hidx]

/-- A final completion with another status than OK leaves everything but the control path and the mirrored completions. -/
theorem kept_complete (r : Nat) (st : Status) (a b : Nat) (h : Handle) : Kept completion s (s.complete r st a b h) := by
  obtain ⟨x, y, z, hshape⟩ := complete_shape (s := s) r st a b h
  rw [hshape]
  exact kept_completion x y z

/-- Settles O9: a failed body and a denied request settle on the accepted state, less the ring's claims. -/
theorem failedCommandHasNoEffect : Obligations.FailedCommandHasNoEffect := by
  unfold Obligations.FailedCommandHasNoEffect
  refine ⟨?failed, ?denied, fun r s => dropClaims_none, ?region, fun s h => kept_handBack h, ?generation⟩
  case failed =>
    intro op d s u st x y h hop hr hst a hb hu
    have hexec : exec (ringInstr op d) s = .next ((a.dropClaims d.ring.val).complete d.ring.val st x y h) := by
      rw [exec_ringInstr hop, runCommand_failed hr hst hb hu]
    refine ⟨hexec, fun hc => ⟨by rw [hexec, dropClaims_none hc], kept_complete .., ?_⟩⟩
    obtain ⟨f, hf, -⟩ := accepted_inflight op d s
    exact complete_sec_of_unjournalled hf (.inl hst)
  case denied =>
    intro op d s u n cls cost h k hop hr a hb hdenied
    rw [exec_ringInstr hop, runCommand_denied hr hb hdenied]
  case region =>
    intro d i gs w s hr a hok hi hgs hw c b h b' hrefused
    have hb : bodyOf .regionAlloc d a = fail .powerDenied d b' :=
      (regionAllocBody_claims hok hi hgs hw).trans (congrArg (Option.elim · _ _) (Option.isNone_iff_eq_none.1 hrefused))
    have hh : b'.flightHandle d.ring.val = h := regionClaimed_flightHandle
    refine (exec_ready rfl hr).trans ?_
    rw [hb, fail, settle_fail (by decide), hh, unclaim_accepted]
  case generation =>
    intro s i
    rw [handBack_region]
    simp [State.region, nth_upd_same i.isLt]

/-! ### NOP with a parameter -/

/-- NOP with a parameter completes with BAD_PARAM; claims that an earlier command of its ring has left go (R16, R72). -/
theorem exec_nop_unclean (hr : Ready .nop d s) (hc : d.clean [] = false) :
    exec (.nop d) s = .next (((accepted .nop d s).dropClaims d.ring.val).complete d.ring.val .badParam 0 0 d.handle) := by
  have hb : bodyOf .nop d (accepted .nop d s) = .done .badParam 0 0 d.handle (accepted .nop d s) := by
    simp [bodyOf, nopBody, fail, hc]
  exact congrArg Host.Outcome.next (runCommand_failed hr (by decide) hb accepted_flightHandle)

/-- A device that serves ring 0, on which a claim of an earlier command on the Thimble log's region is left. -/
def claimLeft : State :=
  let r := State.reset
  { r with
    io := { r.io with cmd := upd r.io.cmd 0 fun c => { c with en := true }, evt := upd r.io.evt 0 fun c => { c with en := true } }
    boot := { r.boot with die := .serving, ready := true }
    pwr := { r.pwr with st := .active }
    thim := { r.thim with claims := [(0, 0)] } }

/-- NOP on ring 0 with a parameter byte set. -/
def uncleanNop : Desc := { ring := 0, flags := 0, tag := 0, handle := 0, params := 1, rsvd := 0, last := 0 }

/-- The ring is enabled, firmware may accept, and NOP's handle is 0. -/
theorem ready_claimLeft : Ready .nop uncleanNop claimLeft where
  enabled := by decide +kernel
  serves := by decide +kernel
  first := by decide +kernel
  turn := by decide +kernel
  accepts := by decide +kernel
  passes := by decide +kernel
  alone := by decide +kernel

/-- Refutes O13: a NOP that completes with BAD_PARAM drops what an earlier command of its ring had claimed, here the claim on the Thimble
log's region, so its completion is not its only effect. -/
theorem not_badOpcodeAndNop : ¬ Obligations.BadOpcodeAndNop := by
  unfold Obligations.BadOpcodeAndNop
  rintro ⟨-, hunclean, -⟩
  have hsame := hunclean uncleanNop claimLeft ready_claimLeft (by decide +kernel)
  rw [exec_nop_unclean ready_claimLeft (by decide +kernel)] at hsame
  have hthim := congrArg (fun t : State => t.thim.claims) (Host.Outcome.next.inj hsame)
  simp only [complete_parts] at hthim
  exact absurd hthim (by decide +kernel)

end Sys2Proof.Machine
end

section
/-! Doorbells, the interrupt timer, and the set-up of rings (R47, R48, R57–R59, R84), and the statements they settle. -/

namespace Sys2Proof.Machine

variable {s : State}

/-! ### Doorbells -/

/-- A write of four bytes to a page of BAR2 names that page's doorbell (R57). -/
theorem doorbellOf_page {k : Nat} (hk : k < 256) : doorbellOf (BitVec.ofNat 20 (4096 * k)) 4 = some k := by
  have hoff : (BitVec.ofNat 20 (4096 * k)).toNat = 4096 * k := by
    rw [BitVec.toNat_ofNat]
    omega
  simp [doorbellOf, hoff]

/-- A command doorbell of a served port is taken when its count is in range, else counted (R58). -/
theorem exec_commandDoorbell {n : Fin 16} {port : Fin 2} {value : Word} {slots : List (BitVec 512)} (hs : s.serving = true)
    (hp : s.hasPort port.val = true) : exec (.commandDoorbell port (BitVec.ofNat 20 (4096 * n.val)) 4 value slots) s = .next
      (if !(s.cmdRing n.val).en || (s.cmdRing n.val).port ≠ port || 2 ^ (s.cmdRing n.val).size < (value - (s.cmdRing n.val).cons).toNat then
        s.badDoorbell n.val
      else (((s.rung n.val value).setCmd n.val fun c => { c with prod := value, parked := false }).fetchCmd n.val).takeCmds n.val slots) := by
  have hn : ¬16 ≤ n.val := by omega
  simp only [exec, execCommandDoorbell, doorbellOf_page (Nat.lt_trans n.isLt (by decide)), hs, hp, hn, Bool.not_true, decide_false,
    Bool.or_false, Bool.false_eq_true, if_false]

/-- A data doorbell of a served port is taken when its count is in range, else counted (R58). -/
theorem exec_dataDoorbell {n : Fin 128} {port : Fin 2} {value : Word} {slots : List (BitVec 256)} (hs : s.serving = true)
    (hp : s.hasPort port.val = true) : exec (.dataDoorbell port (BitVec.ofNat 20 (4096 * (n.val + 32))) 4 value slots) s = .next
      (if !(s.dring n.val).en || (s.dring n.val).port ≠ port || 2 ^ (s.dring n.val).size < (value - (s.dring n.val).cons).toNat then
        s.badDoorbell (n.val + 32)
      else
        let t := (s.rung (n.val + 32) value).setDring n.val fun r => { r with prod := value, parked := false }
        if t.ringHalted n.val then t else (t.fetchData n.val).takeData n.val slots) := by
  have hhi : n.val + 32 < 160 := by omega
  have hlo : ¬n.val + 32 < 32 := by omega
  simp only [exec, execDataDoorbell, doorbellOf_page (Nat.lt_trans hhi (by decide)), hs, hp, Nat.not_le.2 hhi, hlo, Nat.add_sub_cancel,
    Bool.not_true, decide_false, Bool.or_false, Bool.false_eq_true, if_false]

/-- An event doorbell of a served port is taken when its count is in range, else counted (R59). -/
theorem exec_eventDoorbell {n : Fin 16} {port : Fin 2} {value : Word} (hs : s.serving = true) (hp : s.hasPort port.val = true) :
    exec (.eventDoorbell port (BitVec.ofNat 20 (4096 * (n.val + 16))) 4 value) s = .next
      (if !(nth s.io.evt n.val .reset).en || (nth s.io.evt n.val .reset).port ≠ port ||
          2 ^ (nth s.io.evt n.val .reset).size < ((nth s.io.evt n.val .reset).written - value).toNat then s.badDoorbell (n.val + 16)
      else
        let t := s.rung (n.val + 16) value
        { t with io := Io.evtDrain 64 { t.io with evt := upd t.io.evt n.val fun r => { r with consumed := value } } n.val }) := by
  have hhi : n.val + 16 < 32 := by omega
  have hlo : ¬n.val + 16 < 16 := by omega
  simp only [exec, execEventDoorbell, doorbellOf_page (Nat.lt_trans hhi (by decide)), hs, hp, Nat.not_le.2 hhi, hlo, Nat.add_sub_cancel,
    Bool.not_true, decide_false, Bool.or_false, Bool.false_eq_true, if_false]

/-- An accepted doorbell of an ACTIVE device tells a primary's peer, and wakes nothing. -/
theorem rung_of_active (n : Nat) (value : Word) (h : s.pwr.st = .active) :
    s.rung n value = if s.pair.role = .primary then s.emit (.seam (.doorbell (Fin.ofNat 160 n) value)) else s := by
  unfold State.rung
  refine wakeIdle_of_active ?_
  split
  · exact h
  · exact h

/-- An accepted doorbell of an ACTIVE device changes the control path alone. -/
theorem kept_rung (n : Nat) (value : Word) (h : s.pwr.st = .active) : Kept [.io] s (s.rung n value) := by
  rw [rung_of_active n value h]
  split
  · exact kept_io _
  · exact Kept.refl _ _

/-- Asking for slots sends read requests. -/
theorem fetch_shape (port : Fin 2) (base k bytes : Nat) (i : Word) (n : Nat) : ∃ ps out,
    s.fetch port base k bytes i n = { s with io := { s.io with ports := ps, out := out } } := by
  unfold State.fetch
  dsimp only
  split
  · exact ⟨_, _, rfl⟩
  · exact ⟨_, _, rfl⟩

/-- Asking for a data ring's slots changes the control path, and no producer count (R53). -/
theorem fetchData_parts {k : Nat} (hk : k < 128) : Kept [.io] s (s.fetchData k) ∧ ((s.fetchData k).dring k).prod = (s.dring k).prod := by
  unfold State.fetchData
  dsimp only
  split
  · obtain ⟨ps, out, h⟩ := fetch_shape (s := s) (s.dring k).port (s.dring k).base.toNat (s.dring k).size 32 (s.dring k).asked
      ((s.dring k).prod - (s.dring k).asked).toNat
    rw [h]
    exact ⟨kept_io _, by simp [State.setDring, State.dring, nth_upd_same hk]⟩
  · exact ⟨Kept.refl _ _, rfl⟩

/-- A slot that comes leaves the producer count. -/
@[simp] theorem DataRing.take_prod (r : DataRing) (i : Word) (w : BitVec 256) : (r.take i w).prod = r.prod := by
  unfold DataRing.take
  split
  · rfl
  · split <;> rfl

/-- Taking a data ring's slots changes the control path, and no producer count (R82). -/
theorem takeData_parts {k : Nat} (hk : k < 128) (slots : List (BitVec 256)) :
    Kept [.io] s (s.takeData k slots) ∧ ((s.takeData k slots).dring k).prod = (s.dring k).prod := by
  induction slots generalizing s with
  | nil => exact ⟨Kept.refl _ _, rfl⟩
  | cons w rest ih =>
    unfold State.takeData
    split
    · exact ⟨Kept.refl _ _, rfl⟩
    · next i reads _ =>
      obtain ⟨hkept, hprod⟩ := @ih (s.setDring k fun r => { r.take i w with reads := reads })
      refine ⟨(kept_io _).trans hkept, hprod.trans ?_⟩
      simp [State.setDring, State.dring, nth_upd_same hk]

/-- An accepted data doorbell makes its count the producer count, whatever slots come, and changes the control path of an ACTIVE device. -/
theorem dataDoorbell_accepted (n : Fin 128) (value : Word) (slots : List (BitVec 256)) :
    let t := (s.rung (n.val + 32) value).setDring n.val fun r => { r with prod := value, parked := false }
    let u := if t.ringHalted n.val then t else (t.fetchData n.val).takeData n.val slots
    (u.dring n.val).prod = value ∧ (s.pwr.st = .active → Kept [.io] s u) := by
  intro t
  have hprod : (t.dring n.val).prod = value := by simp [t, State.setDring, State.dring, nth_upd_same n.isLt]
  have hrung (h : s.pwr.st = .active) : Kept [.io] s t := (kept_rung _ _ h).trans (kept_io _)
  obtain ⟨hfetch, hfetchProd⟩ := fetchData_parts n.isLt (s := t)
  obtain ⟨htake, htakeProd⟩ := takeData_parts n.isLt slots (s := t.fetchData n.val)
  dsimp only
  split
  · exact ⟨hprod, hrung⟩
  · exact ⟨htakeProd.trans (hfetchProd.trans hprod), fun h => ((hrung h).trans hfetch).trans htake⟩

/-- Settles O14: a count in range is taken and the ring's slots are asked for; any other is counted. -/
theorem doorbellCountsInRange : Obligations.DoorbellCountsInRange := by
  unfold Obligations.DoorbellCountsInRange
  refine ⟨?command, ?commandBad, ?data, ?dataBad⟩
  case command =>
    intro n value slots s hs hp hen hin
    rw [exec_commandDoorbell hs hp, if_neg (by simp [hen, hin, -BitVec.toNat_sub])]
    rfl
  case commandBad =>
    intro n value slots s hs hp hen hout
    rw [exec_commandDoorbell hs hp, if_pos (by simp [hout, -BitVec.toNat_sub])]
    rfl
  case data =>
    intro n value slots s hs hp hen hin
    rw [exec_dataDoorbell hs hp, if_neg (by simp [hen, hin, -BitVec.toNat_sub])]
    exact ⟨_, rfl, dataDoorbell_accepted n value slots⟩
  case dataBad =>
    intro n value slots s hs hp hen hout
    rw [exec_dataDoorbell hs hp, if_pos (by simp [hout, -BitVec.toNat_sub])]
    rfl

/-- Settles O15: an event doorbell in range becomes the consumer count, an expired timer signals. -/
theorem eventDoorbellAndTimer : Obligations.EventDoorbellAndTimer := by
  unfold Obligations.EventDoorbellAndTimer
  refine ⟨?good, ?bad, ?quiet, ?timer⟩
  case good =>
    intro n value s hs hp hen hin
    rw [exec_eventDoorbell hs hp, if_neg (by simp [hen, hin, -BitVec.toNat_sub])]
  case bad =>
    intro n value s hs hp hen hout
    rw [exec_eventDoorbell hs hp, if_pos (by simp [hout, -BitVec.toNat_sub])]
    rfl
  case quiet =>
    intro n value s hactive hrole
    rw [rung_of_active n value hactive, if_neg hrole]
  case timer =>
    intro n s hen htimer hunsig
    simp only [exec, execInterruptTimerExpiry, hen, htimer, hunsig, ne_eq, not_false_eq_true, decide_true, Bool.and_self, if_true]

/-! ### Enabling and disabling rings -/

/-- A one-bit field of a register word, as a port. -/
theorem port_val (v : Nat) : (Fin.ofNat 2 (bits v 27 27)).val = bits v 27 27 := by
  simp [bits]

/-- A change of a command ring depends on its function's value at the ring alone. -/
theorem setCmd_congr {n : Nat} {f g : CmdRing → CmdRing} (h : f (s.cmdRing n) = g (s.cmdRing n)) : s.setCmd n f = s.setCmd n g := by
  rw [State.setCmd, upd_congr (d := .reset) h, State.setCmd]

/-- A change of a data ring depends on its function's value at the ring alone. -/
theorem setDring_congr {n : Nat} {f g : DataRing → DataRing} (h : f (s.dring n) = g (s.dring n)) : s.setDring n f = s.setDring n g := by
  rw [State.setDring, upd_congr (d := .reset) h, State.setDring]

/-- Settles O16: each ring's set-up register, its guards met, stores the set-up. -/
theorem ringEnableAndDisable : Obligations.RingEnableAndDisable := by
  unfold Obligations.RingEnableAndDisable
  refine ⟨?cmdOn, ?cmdOff, fun n io => rfl, ?fence, ?evtOn, ?evtOff, ?dataOn, ?dataOff⟩
  case cmdOn =>
    intro n v s hs hon hoff hsize hbase hwb hport hevt hevtPort
    simp only [exec, execCmdRingEnable, State.cmdRingCfg, hs, hon, hoff, hsize, hbase, hwb, port_val, hport, hevt, hevtPort, Bool.and_self,
      Bool.and_true, Bool.not_true, Bool.false_eq_true, ne_eq, not_true_eq_false, decide_false, Bool.or_self, if_true, if_false]
    exact congrArg Host.Outcome.next (setCmd_congr (by rfl))
  case cmdOff =>
    intro n v s hs hoff hen
    simp only [exec, execCmdRingDisable, State.cmdRingCfg, hs, hoff, hen, Bool.and_self, Bool.and_false, Bool.not_false, Bool.false_eq_true,
      if_true, if_false]
    exact congrArg Host.Outcome.next (setCmd_congr (by rfl))
  case fence =>
    intro n f io hf
    by_cases hring : f.ring.val = n
    · cases hany : (nth io.cmd n .reset).inflight.any fun g => g.d.fence <;> simp [Io.dropFence, hf, hring, hany, Option.filter]
    · simp [Io.dropFence, hf, hring, Option.filter]
  case evtOn =>
    intro n v s hs hon hoff hsize hbase hport
    simp only [exec, execEvtRingEnable, State.evtRingCfg, hs, hon, hoff, hsize, hbase, port_val, hport, Bool.and_self,
      Bool.not_true, Bool.false_eq_true, ne_eq, not_true_eq_false, decide_false, Bool.or_self, if_true, if_false]
    congr 4
    exact upd_congr (d := .reset) rfl
  case evtOff =>
    intro n v s hs hoff hen howes hnamed
    have hfree : (s.io.cmd.toList.any fun c => c.en && c.evt.val == n.val) = false := by
      rw [List.any_eq_false]
      intro c hc
      obtain ⟨i, hi, rfl⟩ := Vector.getElem_of_mem (Vector.mem_toList_iff.1 hc)
      have hne := hnamed ⟨i, hi⟩
      rw [show s.cmdRing (⟨i, hi⟩ : Fin 16).val = s.io.cmd[i] by simp [State.cmdRing, nth, hi]] at hne
      simpa [Fin.val_inj] using hne
    simp only [exec, execEvtRingDisable, State.evtRingCfg, hs, hoff, hen, howes, hfree, Bool.and_self, Bool.not_false, Bool.or_self,
      Bool.false_eq_true, if_true, if_false]
    congr 3
    exact upd_congr (d := .reset) rfl
  case dataOn =>
    intro n v s hs hon hoff hsize hbase hport
    simp only [exec, execDataRingEnable, State.dataRingCfg, hs, hon, hoff, hsize, hbase, port_val, hport, Bool.and_self,
      Bool.not_true, Bool.false_eq_true, ne_eq, not_true_eq_false, decide_false, Bool.or_self, if_true, if_false]
    exact congrArg Host.Outcome.next (setDring_congr (by rfl))
  case dataOff =>
    intro n v s hs hoff hen hserves
    simp only [exec, execDataRingDisable, State.dataRingCfg, hs, hoff, hen, hserves, Bool.and_self, Bool.not_false, Bool.false_eq_true,
      if_true, if_false]
    exact congrArg Host.Outcome.next (setDring_congr (by rfl))

end Sys2Proof.Machine
end

section
/-! Core reloads, the watchdog, host reads and the persistent store (R65, R546, R551, R596, R663, R749), and the statement they settle. -/

namespace Sys2Proof.Machine

variable {s : State}

/-- A command that is not mirrored settles what its host data decides. -/
theorem mirrorOr_unmirrored {r : Nat} {op : Op} {d : Desc} {data : List Byte} {v : Verdict} (h : s.mirrors op d = false) :
    mirrorOr r op d data s v = settle r s v := by
  cases v <;> simp [mirrorOr, h]

theorem exec_hostReadCompletion (t : HostTarget) (r : ReadResult) : exec (.hostReadCompletion t r) s = execHostReadCompletion t r s := rfl

/-- Host data that comes for a command that waits for it. -/
theorem exec_buffer_ok {ring : Fin 16} {f : Inflight} {data : List Byte} (h : s.waitsAt ring.val .hostRead = some f) :
    exec (.hostReadCompletion (.buffer ring) (.ok data)) s =
      let t := s.setInflight ring.val (Option.map fun f => { f with buffer := data })
      .next (mirrorOr ring.val f.op f.d data t (dataWith f.op f.d data t)) := by
  rw [exec_hostReadCompletion]
  unfold execHostReadCompletion
  dsimp only
  rw [h]

/-- Settles O22: each row with its guard met, and the verdict of a command's host data. -/
theorem firmwareFaultRows : Obligations.FirmwareFaultRows := by
  unfold Obligations.FirmwareFaultRows
  refine ⟨?reload, ?stage1, ?stage2, ?data, ?failed, ?cmdFetch, ?dataFetch, ?save, ?saveFailed⟩
  case reload =>
    intro s hs
    simp only [exec, execMgmtCoreReload, hs, if_true]
  case stage1 =>
    intro s hdie hstage
    simp only [exec, execWatchdogStage1, hdie, hstage, ne_eq, not_true_eq_false, decide_false, Bool.or_self, Bool.false_eq_true, if_false]
    rfl
  case stage2 =>
    intro s hdie hstage
    simp only [exec, execWatchdogStage2, State.setThim, satN, hdie, hstage, ne_eq, not_true_eq_false, decide_false, Bool.or_self,
      Bool.false_eq_true, if_false]
  case data =>
    intro ring f data s hf t
    refine ⟨exec_buffer_ok hf, fun hm => ?_, fun hh => if_pos hh⟩
    rw [exec_buffer_ok hf]
    exact congrArg _ (mirrorOr_unmirrored hm)
  case failed =>
    intro ring f r s hf hr
    cases r with
    | ok l => exact absurd rfl (hr l)
    | ur | ca | poisoned | timeout => rw [exec_hostReadCompletion]; unfold execHostReadCompletion; dsimp only; rw [hf]
  case cmdFetch =>
    intro ring data s hen
    rw [exec_hostReadCompletion]
    unfold execHostReadCompletion
    dsimp only
    rw [hen]
    rfl
  case dataFetch =>
    intro ring data s hen
    rw [exec_hostReadCompletion]
    unfold execHostReadCompletion
    dsimp only
    rw [hen]
    rfl
  case save =>
    intro s hs
    simp only [exec, execPersistentStoreSave, hs, Bool.not_true, Bool.false_eq_true, if_false]
  case saveFailed =>
    intro s hs
    simp only [exec, execPersistentStoreSave, hs, Bool.not_true, Bool.not_false, Bool.false_eq_true, if_false, if_true]

end Sys2Proof.Machine
end

section
/-! SUPPORT. HBM bytes outside what is written, and inside what is zeroed. -/

namespace Sys2Proof.Machine

namespace Mem

/-- A list thinned out by address keeps every byte of the addresses that stay, and reads 0 at the others. -/
theorem read_filter {p : Nat → Bool} {m : List Host.Cell} {x : Nat} : read (m.filter fun c => p c.1) x = if p x then read m x else 0 := by
  induction m with
  | nil => simp [read]
  | cons c r ih =>
    obtain ⟨a, b⟩ := c
    by_cases hax : a = x
    · subst hax
      by_cases hp : p a = true
      · simp [hp, read]
      · simp [hp, ih]
    · by_cases hp : p a = true
      · simp [hp, read, hax, ih]
      · simp [hp, read, hax, ih]

/-- A zeroed range reads 0, the rest what it did. -/
theorem read_clear {m : List Host.Cell} {lo hi x : Nat} : read (clear m lo hi) x = if lo ≤ x ∧ x < hi then 0 else read m x := by
  rw [clear, read_filter (p := fun a => a < lo || hi ≤ a)]
  by_cases h : lo ≤ x ∧ x < hi
  · simp [h, Nat.not_lt.2 h.1, Nat.not_le.2 h.2]
  · have hout : x < lo ∨ hi ≤ x := by omega
    simp [h, hout]

/-- Writing bytes changes no byte outside their range. -/
theorem read_writes_outside {bs : List Byte} {m : List Host.Cell} {x y : Nat} (hm : wf m = true) (hy : y < x ∨ x + bs.length ≤ y) :
    read (writes m x bs) y = read m y := by
  induction bs generalizing m x with
  | nil => rfl
  | cons b bs ih =>
    rw [List.length_cons] at hy
    have hne : x ≠ y := by omega
    rw [writes, ih (wf_write hm) (by omega), read_write hm, if_neg hne]

/-- Writing bytes of a region changes no byte that none of them lies at. -/
theorem read_writeRegion_outside {failed : BitVec 4} {r : Region} {bs : List Byte} {m : List Host.Cell} {o y : Nat} (hm : wf m = true)
    (hy : ∀ k < bs.length, r.addr (o + k) ≠ y) : read (writeRegion failed r m o bs) y = read m y := by
  induction bs generalizing m o with
  | nil => rfl
  | cons b bs ih =>
    have hfirst : r.addr o ≠ y := hy 0 (by simp)
    have hrest : ∀ k < bs.length, r.addr (o + 1 + k) ≠ y := fun k hk => by
      rw [Nat.add_right_comm, Nat.add_assoc]
      exact hy (k + 1) (by simpa using hk)
    rw [writeRegion]
    split
    · exact ih hm hrest
    · rw [ih (wf_write hm) hrest, read_write hm, if_neg hfirst]

end Mem

/-- Bytes of one granule of a region lie one after another. -/
theorem Region.addr_add {r : Region} {o k : Nat} (h : o % granuleBytes + k < granuleBytes) : r.addr (o + k) = r.addr o + k := by
  have hdiv : (o + k) / granuleBytes = o / granuleBytes := by unfold granuleBytes at *; omega
  have hmod : (o + k) % granuleBytes = o % granuleBytes + k := by unfold granuleBytes at *; omega
  simp only [Region.addr, hdiv, hmod]
  omega

/-- A byte of a region lies in one of its granules. -/
theorem Region.addr_mem {r : Region} {o : Nat} (h : o < r.bytes) :
    ∃ g ∈ r.granules, g * granuleBytes ≤ r.addr o ∧ r.addr o < (g + 1) * granuleBytes := by
  have hpos : 0 < granuleBytes := by decide
  have hlt : o / granuleBytes < r.granules.length := Nat.div_lt_of_lt_mul (by rwa [Region.bytes, Nat.mul_comm] at h)
  refine ⟨r.granules[o / granuleBytes], List.getElem_mem hlt, ?_⟩
  have hmod := Nat.mod_lt o hpos
  simp only [Region.addr, List.getElem?_eq_getElem hlt, Option.getD_some, Nat.add_mul, Nat.one_mul]
  omega

/-- Zeroed granules read 0 (R520). -/
theorem read_clears {gs : List Nat} {m : List Host.Cell} {x : Nat}
    (h : Mem.read m x = 0 ∨ ∃ g ∈ gs, g * granuleBytes ≤ x ∧ x < (g + 1) * granuleBytes) :
    Mem.read (gs.foldl (fun m g => Mem.clear m (g * granuleBytes) ((g + 1) * granuleBytes)) m) x = 0 := by
  induction gs generalizing m with
  | nil => simpa using h
  | cons g gs ih =>
    refine ih ?_
    rw [Mem.read_clear]
    split
    · exact .inl rfl
    · next hout =>
      rcases h with h | ⟨g', hg', hin⟩
      · exact .inl h
      · rcases List.mem_cons.1 hg' with rfl | hg'
        · exact absurd hin hout
        · exact .inr ⟨g', hg', hin⟩

end Sys2Proof.Machine
end

section
/-! Regions and the BAR4 window (R517–R524, R538, R542, R556), and the statement they settle. -/

namespace Sys2Proof.Machine

variable {s : State} {d : Desc}

/-! ### Allocation and freeing -/

/-- A ready REGION_ALLOC that claims its operands and whose wakes are not refused waits for its zeroing. -/
theorem runCommand_regionAlloc {i : Nat} {gs : List Nat} {w : Option Nat} {t : State} (hr : Ready .regionAlloc d s)
    (hok : allocOk (accepted .regionAlloc d s) d = true)
    (hi : (accepted .regionAlloc d s).claimIdx 256 (fun i => !((accepted .regionAlloc d s).region i).alloc) = some i)
    (hgs : allocGranules (accepted .regionAlloc d s) (d.u 0x08 4) (if dBit d 0x0C 1 then some (d.u 0x0D 1) else none) = some gs)
    (hw : (if dBit d 0x0C 0 then (windowFor (accepted .regionAlloc d s) (d.u 0x08 4)).map some else some none) = some w)
    (ht : let b := regionClaimed d i gs w (accepted .regionAlloc d s)
      wakeStacks d.ring.val (b.handleOf 3 i) d.waitForPower (b.asleep i) b = some t) :
    runCommand .regionAlloc d s = t.setInflight d.ring.val (Option.map fun f =>
      { f with stage := .zeroing, handle := (regionClaimed d i gs w (accepted .regionAlloc d s)).handleOf 3 i }) := by
  have hb := (regionAllocBody_claims hok hi hgs hw).trans (congrArg (Option.elim · _ _) ht)
  rw [runCommand_ready hr, hb]
  rfl

/-- What the stacks' rest does leaves the regions. -/
theorem restStacks_regions : s.restStacks.regions = s.regions := by
  unfold State.restStacks
  split <;> rfl

/-- REGION_FREE of a region that nothing writes, no sink is bound to, no allocation waits for and no running processor reads (R523). -/
theorem regionFreeBody_unused (hclean : d.clean [] = true) (hwriter : (s.region (hIdx d.handle)).writer = .none)
    (hsink : (s.region (hIdx d.handle)).sink = none)
    (hfresh : (s.ringsWaiting fun f => f.op == .regionAlloc && f.stage == .zeroing && f.handle == d.handle) = [])
    (hmps : (s.mps.toList.any fun m => m.st == .running && m.inReg == d.handle) = false) :
    bodyOf .regionFree d s = .done .ok 0 0 d.handle (s.freeRegion (hIdx d.handle)) := by
  simp [bodyOf, regionFreeBody, hclean, hwriter, hsink, hfresh, hmps]

/-! ### BAR4 -/

/-- An access that lies in one codeword is one piece. -/
theorem codewordPieces_one {a n : Nat} (hn : 0 < n) (h : a % 32 + n ≤ 32) : codewordPieces a n = [(a, n)] := by
  have hlo : max a (a / 32 * 32 + 32 * 0) = a := by omega
  have hhi : min (a + n) (a / 32 * 32 + 32 * (0 + 1)) = a + n := by omega
  have hlater (k : Nat) : ¬ max a (a / 32 * 32 + 32 * (k + 1)) < min (a + n) (a / 32 * 32 + 32 * (k + 1 + 1)) := by omega
  rw [codewordPieces, show n / 32 + 2 = n / 32 + 1 + 1 from rfl, List.range_succ_eq_map]
  simp only [List.filterMap_cons, hlo, hhi, Nat.lt_add_of_pos_right hn, if_true, Nat.add_sub_cancel_left, List.filterMap_map,
    Function.comp_def, Nat.succ_eq_add_one, hlater, if_false]
  simp

/-- The offset behind a BAR4 address lies as the address does within its granule (R519). -/
theorem bar4Byte_offset {a i o : Nat} (h : s.bar4Byte a = some (i, o)) : o % granuleBytes = a % granuleBytes := by
  obtain ⟨i', o', hr⟩ : ∃ i' o', bar4Region s a = some (i', o') ∧ o' = o := by
    unfold State.bar4Byte at h
    split at h
    · next i' o' hr =>
      split at h
      · exact absurd h (by simp)
      · exact ⟨i', o', hr, (Prod.mk.inj (Option.some.inj h)).2⟩
    · exact absurd h (by simp)
  obtain ⟨hr, rfl⟩ := hr
  obtain ⟨k, -, hk⟩ := List.exists_of_findSome?_eq_some hr
  dsimp only at hk
  split at hk
  · next w _ _ =>
    split at hk
    · next hin =>
      simp only [Bool.and_eq_true, decide_eq_true_eq] at hin
      simp only [Option.some.injEq, Prod.mk.injEq] at hk
      rw [← hk.2, Nat.mul_comm w, Nat.sub_mul_mod (Nat.mul_comm w _ ▸ hin.1)]
    · exact absurd hk (by simp)
  · exact absurd hk (by simp)

/-- A read in one codeword is one piece's (R524). -/
theorem exec_bar4Read_one {port : Fin 2} {addr len : Nat} (hlen : 0 < len) (hcw : addr % 32 + len ≤ 32) (hp : s.hasPort port.val = true) :
    exec (.bar4Read port addr len []) s = .next
      (let p := s.bar4Piece addr len .none
       (if (s.bar4Byte addr).isNone then p.1.bar4Drop else p.1).emit (.bar4 port p.2.1 p.2.2)) := by
  simp only [exec, execBar4Read, Nat.ne_of_gt hlen, hp, codewordPieces_one hlen hcw, Bool.not_true, Bool.false_eq_true, if_false,
    List.foldl_cons, List.foldl_nil, List.any_cons, List.any_nil, List.find?_nil, Bool.or_false, Bool.false_or, List.nil_append]

/-- A good codeword of a stack in service gives its bytes. -/
theorem bar4Piece_good {a n i o : Nat} (hb : s.bar4Byte a = some (i, o)) (hfit : s.hbm.failed.getLsbD (s.cwAt i o / 65536 / 12288) = false)
    (hgood : s.integ.poison.contains (s.cwAt i o) = false) :
    s.bar4Piece a n .none = (s, readRegion s.hbm.mem (s.region i) o n, false) := by
  simp only [State.bar4Piece, hb, hfit, hgood, reduceCtorEq, decide_false, Bool.or_self, Bool.false_eq_true, if_false]

/-- A poisoned codeword gives its bytes with the EP bit and is logged (R546). -/
theorem bar4Piece_poisoned {a n i o : Nat} (hb : s.bar4Byte a = some (i, o)) (hfit : s.hbm.failed.getLsbD (s.cwAt i o / 65536 / 12288) = false)
    (hbad : s.integ.poison.contains (s.cwAt i o) = true) :
    s.bar4Piece a n .none = (s.uncorrectable (locHbm (s.cwAt i o)) 2 8, readRegion s.hbm.mem (s.region i) o n, true) := by
  simp only [State.bar4Piece, hb, hfit, hbad, reduceCtorEq, decide_false, Bool.or_self, Bool.true_or, Bool.false_eq_true, if_false, if_true]

/-- A write in one codeword to a byte of a region: of a whole codeword, of a part, or dropped (R524, R556). -/
theorem exec_bar4Write_one {port : Fin 2} {addr i o : Nat} {data : List Byte} (hlen : 0 < data.length) (hcw : addr % 32 + data.length ≤ 32)
    (hp : s.hasPort port.val = true) (hb : s.bar4Byte addr = some (i, o)) :
    exec (.bar4Write port addr data) s = .next
      (if (s.region i).writer.hostMay && !s.hbm.failed.getLsbD (s.cwAt i o / 65536 / 12288) then
        if data.length = 32 then s.putBytes i o data else s.partial_ (locHbm (s.cwAt i o)) (addr % 32) data .none 8
      else s.bar4Drop) := by
  have hne : data.isEmpty = false := List.isEmpty_eq_false_iff.2 (List.length_pos_iff.1 hlen)
  simp only [exec, execBar4Write, hne, hp, codewordPieces_one hlen hcw, hb, Bool.not_true, Bool.false_eq_true, if_false,
    List.foldl_cons, List.foldl_nil, List.any_cons, List.any_nil, Bool.or_false, Nat.sub_self, List.drop_zero, List.take_length]
  cases hmay : (s.region i).writer.hostMay && !s.hbm.failed.getLsbD (s.cwAt i o / 65536 / 12288)
  · simp
  · simp

/-- A write in one codeword outside every region is dropped (R524). -/
theorem exec_bar4Write_none {port : Fin 2} {addr : Nat} {data : List Byte} (hlen : 0 < data.length) (hcw : addr % 32 + data.length ≤ 32)
    (hp : s.hasPort port.val = true) (hb : s.bar4Byte addr = none) : exec (.bar4Write port addr data) s = .next s.bar4Drop := by
  have hne : data.isEmpty = false := List.isEmpty_eq_false_iff.2 (List.length_pos_iff.1 hlen)
  simp only [exec, execBar4Write, hne, hp, codewordPieces_one hlen hcw]
  simp [hb]

/-- A codeword's index comes back from its location (R544). -/
theorem locIdx_locHbm {cw : Nat} (h : cw < 4 * 12288 * 65536) : locIdx (locHbm cw) = cw := by
  have hmem : cw / 65536 / 12288 < 4 := by omega
  have hsmall : cw / 65536 / 12288 * 2 ^ 56 + cw < 2 ^ 64 := by omega
  rw [locIdx, locHbm, BitVec.toNat_ofNat, Nat.mod_eq_of_lt hsmall]
  omega

/-- A partial write touches the memory by its merged codeword alone, whatever its read met. -/
theorem partial_mem (loc : BitVec 64) (off : Nat) (data : List Byte) (old : MemErr) (src : Nat) :
    (s.partial_ loc off data old src).hbm = (s.putCw (locIdx loc) off data).hbm := by
  unfold State.partial_
  dsimp only
  split
  · simp [State.poisonCw]
  · split <;> simp

/-- A write in one codeword changes no byte outside it. -/
theorem bar4Write_outside {port : Fin 2} {addr i o : Nat} {data : List Byte} {t : State} (hlen : 0 < data.length)
    (hcw : addr % 32 + data.length ≤ 32) (hp : s.hasPort port.val = true) (hb : s.bar4Byte addr = some (i, o))
    (hwf : Mem.wf s.hbm.mem = true) (hin : (s.region i).addr o < 4 * 12288 * granuleBytes)
    (ht : exec (.bar4Write port addr data) s = .next t) {x : Nat} (hx : x < (s.region i).addr o ∨ (s.region i).addr o + data.length ≤ x) :
    Mem.read t.hbm.mem x = Mem.read s.hbm.mem x := by
  rw [exec_bar4Write_one hlen hcw hp hb] at ht
  obtain rfl := Host.Outcome.next.inj ht
  have hoff : o % granuleBytes = addr % granuleBytes := bar4Byte_offset hb
  have hlow : (s.region i).addr o % 32 = addr % 32 := by
    simp only [Region.addr, granuleBytes] at hoff ⊢
    omega
  split
  · split
    · refine Mem.read_writeRegion_outside hwf fun k hk => ?_
      rw [Region.addr_add (by simp only [granuleBytes] at hoff ⊢; omega)]
      omega
    · have hidx : locIdx (locHbm (s.cwAt i o)) = (s.region i).addr o / 32 :=
        locIdx_locHbm (by simp only [State.cwAt, codeword, granuleBytes] at hin ⊢; omega)
      rw [partial_mem, hidx, State.putCw]
      split
      · rfl
      · exact Mem.read_writes_outside hwf (by omega)
  · rfl

/-- Settles O48: the claims and the zeroing of REGION_ALLOC, the end of REGION_FREE, and BAR4's accesses in one codeword. -/
theorem regionCommandsAndBar4 : Obligations.RegionCommandsAndBar4 := by
  unfold Obligations.RegionCommandsAndBar4
  refine ⟨?alloc, ?zeroed, ?notYet, ?zeros, ?free, ?freed, ?read, ?readAny, ?readNone, ?write, ?outside, ?writeNone, ?writeAny⟩
  case alloc =>
    intro d i gs w s hr a hok hi hgs hw c b h b'
    refine ⟨fun hawake => congrArg Host.Outcome.next (runCommand_regionAlloc hr hok hi hgs hw ?_),
      fun t ht => congrArg Host.Outcome.next (runCommand_regionAlloc hr hok hi hgs hw ht)⟩
    change wakeStacks d.ring.val h d.waitForPower (b'.asleep i) b' = some b'
    rw [hawake]
    rfl
  case zeroed =>
    intro ring f s hf hawake
    simp only [exec, execRegionZeroingDone, hf, hawake, List.isEmpty_nil, Bool.not_true, Bool.false_eq_true, if_false]
  case notYet =>
    intro ring s h
    rcases h with hnone | ⟨f, hf, hasleep⟩
    · simp only [exec, execRegionZeroingDone, hnone]
    · simp [exec, execRegionZeroingDone, hf, hasleep]
  case zeros =>
    intro i o s ho
    exact read_clears (.inr (Region.addr_mem ho))
  case free =>
    intro d s hr a x hclean hwriter hsink hfresh hmps
    refine (exec_ready rfl hr).trans ?_
    rw [regionFreeBody_unused hclean hwriter hsink hfresh hmps, settle_ok]
  case freed =>
    intro i s
    simp [State.freeRegion, State.region, restStacks_regions, nth_upd_same i.isLt, Region.reset]
  case read =>
    intro port addr len i o s hlen hcw hp hb hfit data
    rw [exec_bar4Read_one hlen hcw hp]
    refine ⟨fun hgood => ?_, fun hbad => ?_⟩
    · simp only [bar4Piece_good hb hfit hgood, hb, Option.isNone_some, Bool.false_eq_true, if_false, data]
    · simp only [bar4Piece_poisoned hb hfit hbad, hb, Option.isNone_some, Bool.false_eq_true, if_false, data]
  case readAny =>
    intro port addr len errs s hlen
    cases hp : s.hasPort port.val
    · exact ⟨s, by simp only [exec, execBar4Read, Nat.ne_of_gt hlen, hp, Bool.not_false, if_true, if_false], fun _ => rfl⟩
    · simp only [exec, execBar4Read, Nat.ne_of_gt hlen, hp, Bool.not_true, Bool.false_eq_true, if_false]
      exact ⟨_, rfl, fun h => absurd h (by decide)⟩
  case readNone =>
    intro port addr len s hlen hp hcw hb
    rw [exec_bar4Read_one hlen hcw hp]
    simp [State.bar4Piece, hb]
  case write =>
    intro port addr i o data s hlen hcw hp hb hfit
    rw [exec_bar4Write_one hlen hcw hp hb, hfit]
    exact ⟨fun hmay => by simp [hmay], fun hmay => by simp [hmay]⟩
  case outside =>
    intro port addr i o data s t hlen hcw hp hb hwf hin ht x hx
    exact bar4Write_outside hlen hcw hp hb hwf hin ht hx
  case writeNone => exact fun port addr data s hlen hcw hp hb => exec_bar4Write_none hlen hcw hp hb
  case writeAny =>
    intro port addr data s hlen
    have hne : data.isEmpty = false := List.isEmpty_eq_false_iff.2 (List.length_pos_iff.1 hlen)
    cases hp : s.hasPort port.val
    · exact ⟨s, by simp only [exec, execBar4Write, hne, hp, Bool.not_false, Bool.false_eq_true, if_true, if_false], fun _ => rfl⟩
    · simp only [exec, execBar4Write, hne, hp, Bool.not_true, Bool.false_eq_true, if_false]
      exact ⟨_, rfl, fun h => absurd h (by decide)⟩

end Sys2Proof.Machine
end

section
/-! DEV_INFO, MEM_RETIRE, the error log, the Darner and partial writes (R105, R553–R563), and the statement they settle. -/

namespace Sys2Proof.Machine

variable {s : State} {d : Desc}

/-- Two updates of one element are one. -/
theorem upd_upd {α : Type} {n i : Nat} {v : Vector α n} {f g : α → α} : upd (upd v i f) i g = upd v i fun x => g (f x) := by
  unfold upd
  split <;> simp [*]

/-- A result block whose port's link is up is written at once (R66). -/
theorem result_linkUp {addr a b : Nat} {bytes : List Byte} (h : (s.hostPort (s.flightPort d.ring.val).val).linkUp = true) :
    result d addr bytes a b s = .done .ok a b d.handle { s with io := s.io.write (s.flightPort d.ring.val).val addr bytes false } := by
  rw [State.hostPort] at h
  simp only [result, h, if_true]

/-! ### Commands -/

theorem devInfoBody_ok (hclean : d.clean [(0x08, 12)] = true) (hlen : 64 ≤ d.u 0x10 4) (haddr : addrOk (d.u 0x08 8) (d.u 0x10 4) 64 = true) :
    bodyOf .devInfo d s = result d (d.u 0x08 8) s.devInfo 0 0 s := by
  simp [bodyOf, devInfoBody, hclean, Nat.not_lt.2 hlen, haddr]

/-- MEM_RETIRE's claim: the granule in the list, its log entries marked, and whether a region held it kept for the completion (R559). -/
def retireEntered (s : State) (d : Desc) : State :=
  { s.setInflight d.ring.val (Option.map fun f => { f with buffer := [(BitVec.ofBool (s.granuleUsed (d.u 0x08 4))).setWidth 8] }) with
    integ := { s.integ with
      retired := s.integ.retired ++ [d.u 0x08 4]
      log := s.integ.log.map fun e => if locMem e.loc < 4 && locIdx e.loc / 65536 == d.u 0x08 4 then { e with retired := true } else e } }

theorem memRetireBody_ok (hclean : d.clean [(0x08, 4)] = true) (hg : d.u 0x08 4 < 12288 * stacksFitted s) (hnew : d.u 0x08 4 ∉ s.integ.retired)
    (hlife : s.sec.life ≠ .decommissioned) (hroom : s.integ.retired.length < 256) :
    bodyOf .memRetire d s = .wait .point d.handle (retireEntered s d) := by
  have hnew : s.integ.retired.contains (d.u 0x08 4) = false := by simpa using hnew
  simp only [bodyOf, memRetireBody, hclean, Nat.not_le.2 hg, hnew, hlife, Nat.not_le.2 hroom, Bool.not_true, decide_false, Bool.or_self,
    Bool.false_eq_true, if_false]
  rfl

@[simp] theorem length_le (n v : Nat) : (le n v).length = n := by
  induction n generalizing v with
  | zero => rfl
  | succ n ih => simp [le, ih]

/-- The 32 bytes that LOG_READ writes before its n entries (R562). -/
def logHead (s : State) (n : Nat) : List Byte :=
  pack [(1, s.integ.log.length), (1, n), (2, s.integ.retired.length), (4, s.integ.overflow), (8, s.time74.toNat), (8, 0), (8, 0)]

theorem length_logHead (n : Nat) : (logHead s n).length = 32 := by
  simp [logHead, pack]

theorem logReadBody_ok (hclean : d.clean [(0x08, 13)] = true) (hsel : d.u 0x14 1 ≤ 1) (hlen : 64 ≤ d.u 0x10 4)
    (haddr : addrOk (d.u 0x08 8) (d.u 0x10 4) 64 = true) : bodyOf .logRead d s =
      let out := (s.integ.byAge.filter fun e => !dBit d 0x14 0 || e.sticky).take ((d.u 0x10 4 - 32) / 32)
      result d (d.u 0x08 8) (logHead s out.length ++ out.flatMap LogEntry.bytes) out.length s.integ.overflow s := by
  simp only [bodyOf, logReadBody, hclean, Nat.not_lt.2 hsel, Nat.not_lt.2 hlen, haddr, Bool.not_true, decide_false, Bool.or_self,
    Bool.false_eq_true, if_false]
  rfl

/-- LOG_CLEAR without a location: closed entries go, STICKY ones only with the bit (R563). -/
theorem logClearBody_all (hclean : d.clean [(0x08, 1), (0x10, 8)] = true) (hsel : d.u 0x08 1 ≤ 3) (hall : dBit d 0x08 1 = false) :
    bodyOf .logClear d s = .done .ok 0 0 d.handle { s with integ := { s.integ with
      log := s.integ.log.filter fun e => e.isOpen || (e.sticky && !dBit d 0x08 0), overflow := 0 } } := by
  simp only [bodyOf, logClearBody, hclean, Nat.not_lt.2 hsel, hall, Bool.not_true, decide_false, Bool.or_self, Bool.false_eq_true, if_false]
  rfl

/-- LOG_CLEAR of a location with no entry does nothing. -/
theorem logClearBody_absent (hclean : d.clean [(0x08, 1), (0x10, 8)] = true) (hsel : d.u 0x08 1 ≤ 3) (hone : dBit d 0x08 1 = true)
    (habsent : ∀ e ∈ s.integ.log, e.loc ≠ BitVec.ofNat 64 (d.u 0x10 8)) : bodyOf .logClear d s = .done .ok 0 0 d.handle s := by
  have hfind : (s.integ.log.find? fun e => e.loc == BitVec.ofNat 64 (d.u 0x10 8)) = none := by
    rw [List.find?_eq_none]
    exact fun e he => by simpa using habsent e he
  simp only [bodyOf, logClearBody, hclean, Nat.not_lt.2 hsel, hone, hfind, Bool.not_true, decide_false, Bool.or_self, Bool.false_eq_true,
    if_false, if_true]

/-- LOG_CLEAR of a location removes its entry, unless that is open; a STICKY one only with the bit (R563). -/
theorem logClearBody_one {e : LogEntry} (hclean : d.clean [(0x08, 1), (0x10, 8)] = true) (hsel : d.u 0x08 1 ≤ 3) (hone : dBit d 0x08 1 = true)
    (hfind : (s.integ.log.find? fun e => e.loc == BitVec.ofNat 64 (d.u 0x10 8)) = some e) (hsticky : e.sticky = true → dBit d 0x08 0 = true) :
    bodyOf .logClear d s = .done .ok 0 0 d.handle (if e.isOpen then s else { s with integ := { s.integ with
      log := s.integ.log.filter fun x => x.loc != BitVec.ofNat 64 (d.u 0x10 8) } }) := by
  have hmay : (e.sticky && !dBit d 0x08 0) = false := by
    cases h : e.sticky
    · rfl
    · simp [hsticky h]
  simp only [bodyOf, logClearBody, hclean, Nat.not_lt.2 hsel, hone, hfind, hmay, Bool.not_true, decide_false, Bool.or_self,
    Bool.false_eq_true, if_false, if_true]
  rfl

/-! ### Partial writes -/

/-- Recording an error changes the log and its overflow count (R548). -/
theorem record_shape (g : Integ) (loc : BitVec 64) (cls src : Nat) (t : BitVec 64) :
    ∃ log n, g.record loc cls src t = { g with log := log, overflow := n } := by
  unfold Integ.record
  dsimp only
  split
  · exact ⟨_, g.overflow, rfl⟩
  · split
    · exact ⟨_, g.overflow, rfl⟩
    · split
      · exact ⟨_, _, rfl⟩
      · exact ⟨g.log, _, rfl⟩

/-- A codeword's write changes the HBM alone. -/
theorem putCw_shape (cw off : Nat) (data : List Byte) : ∃ x, s.putCw cw off data = { s with hbm := x } := by
  unfold State.putCw
  split
  · exact ⟨s.hbm, rfl⟩
  · exact ⟨_, rfl⟩

/-- A partial write of a good codeword whose read met nothing merges its bytes and ends an open episode (R556). -/
theorem partial_good {loc : BitVec 64} {off src : Nat} {data : List Byte} (hgood : s.integ.poison.contains (locIdx loc) = false) :
    s.partial_ loc off data .none src =
      { s.putCw (locIdx loc) off data with integ := (s.putCw (locIdx loc) off data).integ.endEpisode loc false } := by
  simp only [State.partial_, hgood, reduceCtorEq, decide_false, Bool.or_self, Bool.false_eq_true, if_false]
  rfl

/-- A partial write of a poisoned codeword leaves it poisoned and reports POISON_WRITE (R556, R557). -/
theorem partial_poisoned {loc : BitVec 64} {off src : Nat} {data : List Byte} (hbad : s.integ.poison.contains (locIdx loc) = true) :
    ∃ x y z, s.partial_ loc off data .none src = { s with hbm := x, integ := y, io := z } ∧ y.poison.contains (locIdx loc) = true := by
  obtain ⟨x, hput⟩ := putCw_shape (s := s) (locIdx loc) off data
  obtain ⟨log, n, hrec⟩ := record_shape s.integ loc 4 src s.time74
  have htime (y : Integ) : State.time74 { s with hbm := x, integ := y } = s.time74 := rfl
  simp only [State.partial_, hput, hbad, Bool.true_or, if_true, State.poisonCw, State.setInteg, htime, hrec]
  exact ⟨x, _, _, (note_shape _ _ _).choose_spec, hbad⟩

/-- A partial write to HBM takes a free value for its port (log entry 2). -/
theorem exec_partialWrite_hbm {loc : BitVec 64} {off : Nat} {data : List Byte} {old : MemErr} (h : locMem loc < 4) :
    exec (.partialWrite loc off data old) s = .next (s.freeTake.2.partial_ loc off data old (s.freeTake.1.toNat % 12)) :=
  congrArg Host.Outcome.next (if_pos h)

/-- Settles O50: the bodies and rows with their guards met. -/
theorem errorLogCommandsAndRows : Obligations.ErrorLogCommandsAndRows := by
  unfold Obligations.ErrorLogCommandsAndRows
  refine ⟨?devInfo, ?memRetire, ?logRead, ?logClear, ?scrub, ?scrubNone, ?burst, ?burstPos, ?burstNone, ?sramNil,
    ?sramSnoc, ?good, ?poisoned, ?sram⟩
  case devInfo =>
    intro d s hr hclean hlen haddr a hlink
    refine (exec_ready rfl hr).trans ?_
    rw [devInfoBody_ok hclean hlen haddr, result_linkUp hlink, settle_ok]
  case memRetire =>
    intro d s hr a g hclean hg hnew hlife hroom
    refine (exec_ready rfl hr).trans ?_
    rw [memRetireBody_ok hclean hg hnew hlife hroom]
    simp only [settle, retireEntered, State.setInflight, upd_upd, Option.map_map]
    rfl
  case logRead =>
    intro d s hr hclean hsel hlen haddr a hlink out
    refine ⟨logHead a out.length, length_logHead _, ?_⟩
    refine (exec_ready rfl hr).trans ?_
    rw [logReadBody_ok hclean hsel hlen haddr]
    dsimp only
    rw [result_linkUp hlink, settle_ok]
  case logClear =>
    intro d s hr hclean hsel a loc
    rw [show exec (.logClear d) s = _ from exec_ready rfl hr]
    refine ⟨fun hall => ?_, fun hone habsent => ?_, fun e hone hfind hsticky => ?_⟩
    · rw [logClearBody_all hclean hsel hall, settle_ok]
    · rw [logClearBody_absent hclean hsel hone habsent, settle_ok]
    · rw [logClearBody_one hclean hsel hone hfind hsticky, settle_ok]
  case scrub =>
    intro loc s hmem hopen
    have hrun : (decide (4 ≤ locMem loc) || !(s.integ.episode loc).1) = false := by simp [hmem, hopen]
    refine ⟨?_, ?_, ?_⟩ <;> simp only [exec, execDarnerScrub, hrun, Bool.false_eq_true, if_false, State.setInteg]
  case scrubNone =>
    intro loc o s h
    rcases h with h | h <;> simp [exec, execDarnerScrub, h]
  case burst =>
    intro errs s hs hactive hon hgrant
    simp [exec, execDarnerPatrolBurst, hs, hactive, hon, hgrant, -BitVec.getLsbD_eq_getElem]
  case burstPos => exact fun s => ⟨rfl, rfl⟩
  case burstNone =>
    intro errs s h
    rcases h with h | h | h <;> simp [exec, execDarnerPatrolBurst, h, -BitVec.getLsbD_eq_getElem]
  case sramNil => exact fun s => rfl
  case sramSnoc =>
    intro errs loc e s t ht
    obtain rfl := Host.Outcome.next.inj ht
    simp [exec, execSramPatrol, List.foldl_append]
  case good =>
    intro loc off data s hmem hgood t
    rw [exec_partialWrite_hbm hmem, partial_good (s := s.freeTake.2) hgood]
  case poisoned =>
    intro loc off data s hbad hmem
    obtain ⟨x, y, z, hwrite, hstill⟩ := partial_poisoned (s := s.freeTake.2) (off := off) (src := s.freeTake.1.toNat % 12) (data := data) hbad
    refine ⟨_, exec_partialWrite_hbm hmem, ?_⟩
    rw [hwrite]
    refine ⟨hstill, rfl, fun p hp => ?_⟩
    cases p with
    | free | hbm | integ | io | pair => simp at hp
    | _ => rfl
  case sram =>
    intro loc off data s hmem t
    have hsram : ¬locMem loc < 4 := Nat.not_lt.2 hmem
    exact ⟨congrArg Host.Outcome.next (if_neg hsram), congrArg Host.Outcome.next (if_neg hsram), congrArg Host.Outcome.next (if_neg hsram)⟩

end Sys2Proof.Machine
end

section
/-! SUPPORT. The signal path's operations leave time, clocks, identity and flash alone: one frame for all of them. -/

namespace Sys2Proof

open Sys2Proof.Machine

variable {s t u : State} {ps : List Part}

/-- A fold keeps what each of its steps keeps. -/
theorem Kept.foldl {α : Type} {f : State → α → State} (h : ∀ t a, Kept ps t (f t a)) (l : List α) (s : State) : Kept ps s (l.foldl f s) := by
  induction l generalizing s with
  | nil => exact Kept.refl ps s
  | cons a l ih => exact (h s a).trans (ih _)

/-- A choice keeps what both of its branches keep. -/
theorem Kept.ite {c : Prop} {_ : Decidable c} (h : Kept ps s t) (h' : Kept ps s u) : Kept ps s (if c then t else u) := by
  split
  · exact h
  · exact h'

/-- An operation that is left out keeps everything. -/
theorem Kept.when {c : Prop} {_ : Decidable c} (h : Kept ps s t) : Kept ps s (if c then t else s) := h.ite (Kept.refl ps s)

/-- An operation that is left out keeps everything. -/
theorem Kept.unless {c : Prop} {_ : Decidable c} (h : Kept ps s t) : Kept ps s (if c then s else t) := (Kept.refl ps s).ite h

/-- The parts that the signal path works on, with the completions of commands that wait for it. -/
def signalPath : List Part :=
  [.free, .io, .lanes, .eye, .streams, .chans, .planes, .drives, .groups, .sweeps, .acqs, .mps, .hbm, .regions, .integ, .pau, .pair, .sec]

/-- A change of the signal path's parts. -/
theorem kept_signal (a : Nat) (b : Io) (c : Vector Lane 64) (d : Eye) (e : Vector Stream 32) (f : Vector Chan 128) (g : Vector Plane 8)
    (h : Vector Drive 4) (i : Vector Group 64) (j : Vector Sweep 2) (k : Vector Acq 128) (l : Vector Mp 16) (m : Hbm) (n : Vector Region 256)
    (o : Integ) (p : Pau) (q : Pair) (r : Sec) : Kept signalPath s { s with
      free := a, io := b, lanes := c, eye := d, streams := e, chans := f, planes := g, drives := h, groups := i, sweeps := j, acqs := k
      mps := l, hbm := m, regions := n, integ := o, pau := p, pair := q, sec := r } := by
  refine ⟨rfl, fun x hx => ?_⟩
  cases x with
  | now | ident | boot | regErr | pins | clk | time | created | store | sinks | dma | storeQ | pwr | thim | flash | mon => rfl
  | _ => simp [signalPath] at hx

/-- The parts that a completion changes are among the signal path's. -/
theorem Kept.ofCompletion (h : Kept completion s t) : Kept signalPath s t := h.mono (by decide)

end Sys2Proof

namespace Sys2Proof.Machine

variable {s : State}

/-! ### Events, completions, memory -/

theorem kept_finish (r : Nat) (st : Status) (a b : Nat) : Kept completion s (s.finish r st a b) := by
  obtain ⟨x, y, z, h⟩ := finish_shape (s := s) r st a b
  rw [h]
  exact kept_completion x y z

theorem signal_finish (r : Nat) (st : Status) (a b : Nat) : Kept signalPath s (s.finish r st a b) := (kept_finish r st a b).ofCompletion

theorem signal_complete (r : Nat) (st : Status) (a b : Nat) (h : Handle) : Kept signalPath s (s.complete r st a b h) :=
  (kept_complete r st a b h).ofCompletion

theorem signal_note (e : Ev) (h : Handle) (l : List (Nat × Nat)) : Kept signalPath s (s.note e h l) := by
  obtain ⟨x, h⟩ := note_shape (s := s) e h l
  rw [h]
  exact (kept_io x).mono (by decide)

theorem signal_freeTake : Kept signalPath s s.freeTake.2 := kept_signal ..

theorem signal_setInteg (f : Integ → Integ) : Kept signalPath s (s.setInteg f) := kept_signal ..
theorem signal_setAcq (u : Nat) (f : Acq → Acq) : Kept signalPath s (s.setAcq u f) := kept_signal ..
theorem signal_setChan (c : Nat) (f : Chan → Chan) : Kept signalPath s (s.setChan c f) := kept_signal ..
theorem signal_setStream (i : Nat) (f : Stream → Stream) : Kept signalPath s (s.setStream i f) := kept_signal ..
theorem signal_setDrive (d : Nat) (f : Drive → Drive) : Kept signalPath s (s.setDrive d f) := kept_signal ..
theorem signal_setPlane (p : Nat) (f : Plane → Plane) : Kept signalPath s (s.setPlane p f) := kept_signal ..
theorem signal_setSweep (u : Nat) (f : Sweep → Sweep) : Kept signalPath s (s.setSweep u f) := kept_signal ..

theorem signal_uncorrectable (loc : BitVec 64) (cls src : Nat) : Kept signalPath s (s.uncorrectable loc cls src) := by
  have event (t : State) : Kept signalPath t (t.uncorrectableEvent loc cls src) := by
    refine Kept.trans ?_ (((signal_setInteg _).trans (signal_note ..)).ite (signal_setInteg _))
    exact (signal_setInteg _).when
  exact ((signal_setInteg _).trans (signal_setInteg _)).trans (event _)

theorem signal_sramFaults {α : Type} (mem inst : Nat) (lost : List α) : Kept signalPath s (s.sramFaults mem inst lost) :=
  Kept.foldl (fun _ _ => signal_freeTake.trans (signal_uncorrectable ..)) ..

theorem signal_regionFaults {α : Type} (i src : Nat) (lost : List α) : Kept signalPath s (s.regionFaults i src lost) :=
  Kept.foldl (fun _ _ => signal_freeTake.trans (signal_uncorrectable ..)) ..

theorem signal_putRecord (i off : Nat) (ready : Bool) (h : Hdr) (payload : List Byte) : Kept signalPath s (s.putRecord i off ready h payload) :=
  kept_signal ..

/-! ### Acquisition units -/

theorem signal_recordDone (u : Nat) (flags : Flags) : Kept signalPath s (s.recordDone u flags) := by
  unfold State.recordDone
  dsimp only
  split
  · exact signal_note ..
  · exact Kept.refl ..

theorem signal_acqRecord (u off level : Nat) (ready : Bool) (items : List Item) (flags : Flags) (m : AcqMark) (pre : Nat) :
    Kept signalPath s (s.acqRecord u off level ready items flags m pre) := by
  cases items with
  | nil => exact Kept.refl ..
  | cons x rest =>
    refine Kept.trans ?_ (Kept.when ((signal_putRecord ..).trans (signal_recordDone ..)))
    exact ((signal_putRecord ..).trans (signal_setAcq ..)).trans (signal_recordDone ..).unless

theorem signal_acqLost (u : Nat) (lost : List Nat) (items : List Item) : Kept signalPath s (s.acqLost u lost items).1 := by
  unfold State.acqLost
  dsimp only
  split
  · exact Kept.refl ..
  · exact kept_signal ..

theorem signal_acqIdle (u : Nat) : Kept signalPath s (s.acqIdle u) :=
  (signal_setAcq ..).trans (Kept.foldl (fun _ _ => signal_complete ..) ..)

theorem signal_afterRecord (u tEnd : Nat) : Kept signalPath s (s.afterRecord u tEnd) :=
  (signal_setAcq ..).trans (signal_acqIdle u).unless

theorem signal_acqSpectra (u level off : Nat) (flags : Flags) (m : AcqMark) (c : Capture) (items : List Item) :
    Kept signalPath s (s.acqSpectra u level off flags m c items) := by
  induction items generalizing s off with
  | nil => exact Kept.refl ..
  | cons x rest ih => exact (signal_acqRecord ..).trans (ih ..)

theorem signal_closeCapture (u upTo : Nat) (extra : Flags) (lost : List Nat) (zeroed : List (Nat × Nat)) :
    Kept signalPath s (s.closeCapture u upTo extra lost zeroed) := by
  unfold State.closeCapture
  dsimp only
  split
  · exact Kept.refl ..
  · next c _ =>
    have read (t : State) (items : List Item) : Kept signalPath t (t.acqZeroed u zeroed items).1 := signal_regionFaults ..
    refine Kept.trans (Kept.trans ?_ ((signal_acqSpectra ..).ite (signal_acqRecord ..))) ((signal_setAcq ..).trans (signal_afterRecord ..))
    exact (signal_acqLost ..).trans (read ..)

/-- A dump's summary. (The definition is unfolded as a function: at its arguments the kernel would compute with 2^20 in unary.) -/
theorem signal_dumpSummary (u : Nat) (c : Capture) (extra : Flags) : Kept signalPath s (s.dumpSummary u c extra) := by
  conv in State.dumpSummary => delta State.dumpSummary
  extract_lets +onlyGivenNames a ch r payload first len lo
  split
  · exact signal_setAcq ..
  · exact ((signal_putRecord ..).trans (signal_setAcq ..)).trans (signal_recordDone ..)

theorem signal_dumpDone (u : Nat) (extra : Flags) : Kept signalPath s (s.dumpDone u extra) := by
  unfold State.dumpDone
  extract_lets +onlyGivenNames a
  split
  · exact Kept.refl ..
  · exact (signal_dumpSummary ..).trans (signal_afterRecord ..)

theorem signal_ringDrop (u : Nat) : Kept signalPath s (s.ringDrop u) :=
  ((signal_setAcq ..).trans (Kept.when ((signal_setAcq ..).trans (signal_dumpDone ..)))).trans (signal_setAcq ..)

/-- A chunk goes to its place, or is dropped. (Unfolded as a function, as before.) -/
theorem signal_putChunk (u : Nat) (items : List Item) (flags : Flags) : Kept signalPath s (s.putChunk u items flags) := by
  conv in State.putChunk => delta State.putChunk
  split
  · exact Kept.refl ..
  · extract_lets +onlyGivenNames a lastNo
    split
    · split
      · exact signal_ringDrop u
      · extract_lets +onlyGivenNames seq no hold t t'
        have put : Kept signalPath s t' := (signal_acqRecord ..).trans (signal_setAcq ..)
        split
        · exact put.trans (signal_dumpDone ..).when
        · exact put
    · extract_lets +onlyGivenNames r pay len
      split
      · exact signal_setAcq ..
      · exact (signal_acqRecord ..).trans (signal_setAcq ..)

theorem signal_newLevel (u : Nat) : Kept signalPath s (s.newLevel u) := signal_setAcq ..

theorem signal_cutChunk (u : Nat) (extra : Flags) : Kept signalPath s (s.cutChunk u extra) :=
  ((signal_putChunk ..).trans (signal_setAcq ..)).trans (signal_newLevel u)

theorem signal_acqBreak (u : Nat) (extra : Flags) : Kept signalPath s (s.acqBreak u extra) := by
  have closed : Kept signalPath s (
      if !(s.acq u).live then s
      else if (s.acq u).par.mode ≤ 2 then
        (if (s.acq u).cap.isSome && !(s.acq u).hist.isEmpty then s.closeCapture u (((s.acq u).hist.getLast?.map (·.no)).getD 0) extra [] []
          else s.setAcq u fun a => { a with cap := none })
      else if (s.acq u).par.source = 3 then s
      else
        if (s.acq u).par.mode = 4 && ((s.cutChunk u extra).acq u).cap.isSome then
          ((s.cutChunk u extra).setAcq u fun a => { a with cap := a.cap.map fun c => { c with trunc := true } }).dumpDone u extra
        else s.cutChunk u extra) := by
    refine Kept.unless (Kept.ite ((signal_closeCapture ..).ite (signal_setAcq ..)) (Kept.unless ?_))
    exact (signal_cutChunk ..).trans (Kept.when ((signal_setAcq ..).trans (signal_dumpDone ..)))
  exact (closed.trans (signal_setAcq ..)).trans (signal_acqIdle u).when

end Sys2Proof.Machine
end

section
/-! SUPPORT. The signal path's frame for products, planes, sweep units, channels and streams. -/

namespace Sys2Proof.Machine

variable {s : State}

/-! ### Items and conditions -/

/-- An item for a unit. (A product unit's step is unfolded as a function, like a dump's summary.) -/
theorem signal_acqItem (u : Nat) (it : Item) : Kept signalPath s (s.acqItem u it) := by
  have product (t : State) : Kept signalPath t (t.acqProduct u it) := by
    conv in State.acqProduct => delta State.acqProduct
    extract_lets +onlyGivenNames a r len
    split
    · exact signal_setAcq ..
    · exact (signal_acqRecord ..).trans (signal_setAcq ..)
  unfold State.acqItem
  extract_lets +onlyGivenNames a
  refine Kept.unless (Kept.unless ?_)
  extract_lets +onlyGivenNames t
  have started : Kept signalPath s t := signal_setAcq ..
  refine started.trans ((product t).ite ?_)
  extract_lets +onlyGivenNames t' t''
  have joined : Kept signalPath t t' := by
    unfold t'
    split
    · exact (signal_acqBreak ..).unless
    · exact Kept.refl ..
  have taken : Kept signalPath t' t'' := signal_setAcq ..
  exact (joined.trans taken).trans ((signal_setAcq ..).ite (signal_setAcq ..))

theorem signal_feed (source srcIdx code : Nat) (it : Item) : Kept signalPath s (s.feed source srcIdx code it) :=
  Kept.foldl (fun _ _ => (signal_acqItem ..).when) ..

theorem signal_evalCond (ch letter idx : Nat) (v : Option (Bool × Bool)) : Kept signalPath s (s.evalCond ch letter idx v) := by
  have hit (t : State) : Kept signalPath t (t.condHit ch letter idx) := kept_signal ..
  cases v with
  | none => exact Kept.refl ..
  | some v => exact (signal_setChan ..).trans (hit _).when

/-! ### Spectral products -/

theorem signal_emitAcc (ch code shift : Nat) (a : ProdAcc) (extra : Flags) (zeroed : List Nat) :
    Kept signalPath s (s.emitAcc ch code shift a extra zeroed) := (signal_feed ..).unless

theorem signal_bankRead (ch code : Nat) : Kept signalPath s (s.bankRead ch code).2 := (signal_sramFaults ..).trans (signal_setChan ..)

/-- A bank that holds nothing is not read. -/
theorem signal_bankRead_unless (c : Prop) [Decidable c] (ch code : Nat) (l : List Nat) :
    Kept signalPath s (if c then (l, s) else s.bankRead ch code).2 := by
  split
  · exact Kept.refl ..
  · exact signal_bankRead ..

theorem signal_closeInterval (ch code : Nat) (extra : Flags) : Kept signalPath s (s.closeInterval ch code extra) := by
  unfold State.closeInterval
  split
  · exact Kept.refl ..
  · next a _ => exact (signal_bankRead_unless (a.added = 0) ch code []).trans ((signal_emitAcc ..).trans (signal_setChan ..))

theorem signal_closeDue (ch m : Nat) : Kept signalPath s (s.closeDue ch m) :=
  (signal_setChan ..).trans (Kept.foldl (fun _ _ => (signal_closeInterval ..).when) ..)

theorem signal_closeSk (ch : Nat) (extra : Flags) : Kept signalPath s (s.closeSk ch extra) := by
  unfold State.closeSk
  dsimp only
  split
  · exact Kept.refl ..
  · next a _ =>
    refine (signal_bankRead_unless (a.added = 0) ch 8 []).trans ?_
    refine ((signal_setChan ..).trans (signal_feed ..).unless).trans (Kept.unless ?_)
    exact Kept.foldl (fun _ _ => (signal_evalCond ..).when) ..

/-- Complex and power spectra. -/
theorem signal_singleProducts (ch : Nat) (x : Spectrum) : Kept signalPath s (s.singleProducts ch x) := by
  unfold State.singleProducts
  extract_lets +onlyGivenNames c pr n one t
  have complex : Kept signalPath s t := (signal_feed ..).when
  refine complex.trans (Kept.unless ?_)
  extract_lets +onlyGivenNames p e
  refine Kept.ite (signal_feed ..) ?_
  extract_lets +onlyGivenNames t'
  have closed : Kept signalPath t t' := by
    unfold t'
    split
    · exact ((signal_emitAcc ..).trans (signal_setChan ..)).when
    · exact Kept.refl ..
  refine closed.trans (Kept.ite (signal_feed ..) ?_)
  exact ((signal_emitAcc ..).trans (signal_setChan ..)).ite (signal_setChan ..)

theorem signal_addPair (i j : Nat) (x y : Spectrum) : Kept signalPath s (s.addPair i j x y) := (signal_closeDue ..).trans (signal_setChan ..)

theorem signal_pairProducts (ch : Nat) (x : Spectrum) : Kept signalPath s (s.pairProducts ch x) := by
  unfold State.pairProducts
  extract_lets +onlyGivenNames t
  have asX : Kept signalPath s t := by
    unfold t
    split
    · exact Kept.refl ..
    · split
      · exact (signal_setChan ..).trans (signal_addPair ..)
      · exact signal_setChan ..
  refine asX.trans (Kept.foldl (fun v i => Kept.when ?_) ..)
  split
  · exact (signal_setChan ..).trans (signal_addPair ..)
  · exact signal_setChan ..

theorem signal_products (ch : Nat) (x : Spectrum) : Kept signalPath s (s.products ch x) := by
  have interval (t : State) : Kept signalPath t (t.intervalProducts ch x) := signal_setChan ..
  have sk (t : State) : Kept signalPath t (t.skProduct ch x) := by
    unfold State.skProduct
    extract_lets +onlyGivenNames c pr
    refine Kept.unless ?_
    extract_lets +onlyGivenNames t'
    have closed : Kept signalPath t t' := (signal_closeSk ..).when
    exact closed.trans (signal_setChan ..)
  unfold State.products
  extract_lets +onlyGivenNames t1 t2 t3 t4
  have due : Kept signalPath s t1 := signal_closeDue ..
  have singles : Kept signalPath t1 t2 := signal_singleProducts ..
  exact (((due.trans singles).trans (interval t2)).trans (sk t3)).trans (signal_pairProducts ..)

theorem signal_cutProducts (ch : Nat) (extra : Flags) : Kept signalPath s (s.cutProducts ch extra) := by
  unfold State.cutProducts
  extract_lets +onlyGivenNames f t1 next t2 t3 t4 t5 t6
  have pairs : Kept signalPath s t1 := signal_setChan ..
  have due : Kept signalPath t1 t2 := signal_closeDue ..
  have sk : Kept signalPath t2 t3 := (signal_closeSk ..).when
  have intervals : Kept signalPath t3 t4 := Kept.foldl (fun _ _ => signal_closeInterval ..) ..
  have sk' : Kept signalPath t4 t5 := signal_closeSk ..
  have power : Kept signalPath t5 t6 := by
    unfold t6
    split
    · exact signal_emitAcc ..
    · exact Kept.refl ..
  exact (((((pairs.trans due).trans sk).trans intervals).trans sk').trans power).trans (signal_setChan ..)

/-! ### Density planes -/

/-- A snapshot goes to a slot, or is lost. (Unfolded as a function, as before.) -/
theorem signal_snapshot (p : Nat) (extra : Flags) (zeroed : List Nat) : Kept signalPath s (s.snapshot p extra zeroed).1 := by
  conv in State.snapshot => delta State.snapshot
  extract_lets +onlyGivenNames x payload
  split
  · exact (signal_putRecord ..).trans (signal_setPlane ..)
  · exact signal_setPlane ..

theorem signal_snapDone (p : Nat) (slot : Option Nat) (last : Nat) : Kept signalPath s (s.snapDone p slot last) := by
  refine (signal_setPlane ..).trans (Kept.foldl (fun t r => ?_) ..)
  split
  · exact signal_finish ..
  · exact signal_finish ..

/-- A snapshot that is taken ends the commands that wait for it. -/
theorem signal_snap (p last : Nat) (extra : Flags) (zeroed : List Nat) :
    Kept signalPath s ((s.snapshot p extra zeroed).1.snapDone p (s.snapshot p extra zeroed).2 last) :=
  (signal_snapshot ..).trans (signal_snapDone ..)

theorem signal_rebind (p : Nat) : Kept signalPath s (s.rebind p) := by
  have sync (t : State) : Kept signalPath t (t.syncPlane p 16) :=
    (show Kept signalPath t (t.dropWriter (.density p)) from kept_signal ..).trans (Kept.foldl (fun _ _ => kept_signal ..) ..)
  unfold State.rebind
  dsimp only
  split
  · exact Kept.refl ..
  · exact (signal_setPlane ..).trans (sync _)

theorem signal_frameBoundary (p : Nat) (extra : Flags) (zeroed : List Nat) : Kept signalPath s (s.frameBoundary p extra zeroed) := by
  have conditions : Kept signalPath s (s.densConditions p) := by
    unfold State.densConditions
    dsimp only
    split
    · exact Kept.refl ..
    · exact Kept.unless (Kept.foldl (fun _ _ => (signal_evalCond ..).when) ..)
  exact ((conditions.trans (signal_snap ..).when).trans (signal_setPlane ..)).trans (signal_rebind p)

theorem signal_densTurn (ch m : Nat) : Kept signalPath s (s.densTurn ch m) := by
  have start (t : State) (p : Nat) : Kept signalPath t (t.startPlane p m) := by
    unfold State.startPlane
    dsimp only
    split
    · exact (signal_rebind p).when
    · exact Kept.refl ..
  exact Kept.foldl (fun _ p => Kept.unless (((signal_frameBoundary ..).when.trans (start _ p)).trans (signal_setPlane ..))) ..

theorem signal_densLeave (ch : Nat) : Kept signalPath s (s.densLeave ch) := Kept.foldl (fun _ _ => (signal_snap ..).when) ..

/-! ### Sweep units -/

/-- A unit's record is written, or waits. -/
theorem signal_sweepRecord (u : Nat) : Kept signalPath s (s.sweepRecord u).1 := by
  fun_cases State.sweepRecord s u
  · exact Kept.refl ..
  · exact Kept.refl ..
  · exact (signal_putRecord ..).trans (signal_setSweep ..)

theorem signal_sweepStop (u : Nat) : Kept signalPath s (s.sweepStop u) := by
  unfold State.sweepStop
  extract_lets +onlyGivenNames t
  have halted : Kept signalPath s t := signal_setSweep ..
  refine (halted.trans (signal_sweepRecord u)).trans (Kept.when ?_)
  exact (signal_setSweep ..).trans (Kept.foldl (fun _ _ => signal_finish ..) ..)

theorem signal_sweepSpectrum (ch : Nat) (x : Spectrum) : Kept signalPath s (s.sweepSpectrum ch x) := by
  have mask (t : State) (u n : Nat) : Kept signalPath t (t.sweepMask u n) := by
    unfold State.sweepMask
    split
    · exact Kept.refl ..
    · exact (signal_setSweep ..).trans (Kept.foldl (fun _ _ => signal_finish ..) ..)
  have stored (t : State) (u : Nat) : Kept signalPath t (t.sweepStore u) := by
    unfold State.sweepStore
    dsimp only
    split
    · exact kept_signal ..
    · exact Kept.refl ..
  refine Kept.foldl (fun t u => Kept.unless ((signal_sweepStop u).ite ?_)) ..
  exact ((signal_setSweep ..).when.trans (mask ..).when).trans ((signal_setSweep ..).trans (stored _ u))

theorem signal_sweepBreak (ch : Nat) : Kept signalPath s (s.sweepBreak ch) :=
  Kept.foldl (fun _ u => Kept.when ((signal_setSweep ..).trans (signal_sweepStop u).unless)) ..

/-! ### Calibration and frames -/

theorem signal_calSpectrum (ch : Nat) (x : Spectrum) : Kept signalPath s (s.calSpectrum ch x) := by
  unfold State.calSpectrum
  dsimp only
  split
  · exact Kept.refl ..
  · refine ((signal_setChan ..).trans (signal_setChan ..).when).trans (Kept.when ?_)
    exact Kept.foldl (fun _ _ => (signal_setChan ..).when) ..

theorem signal_emitSpectrum (ch : Nat) (x : Spectrum) : Kept signalPath s (s.emitSpectrum ch x) := by
  have counted (t : State) : Kept signalPath t (t.densities ch x) := Kept.foldl (fun _ _ => signal_setPlane ..) ..
  have masks (t : State) : Kept signalPath t (t.maskConditions ch x) := Kept.foldl (fun _ _ => (signal_evalCond ..).when) ..
  exact (((((signal_setChan ..).trans (signal_products ..)).trans (counted _)).trans (masks _)).trans (signal_sweepSpectrum ..)).trans
    (signal_calSpectrum ..)

theorem signal_frameDone (ch : Nat) (lost : List Nat) : Kept signalPath s (s.frameDone ch lost) := by
  have transformed (t : State) (u : List Cx) : Kept signalPath t (t.transform ch lost u).2 := by
    unfold State.transform
    dsimp only
    split
    · exact Kept.refl ..
    · exact kept_signal ..
  unfold State.frameDone
  dsimp only
  split
  · exact Kept.refl ..
  · refine ((signal_densTurn ..).trans (signal_setChan ..)).trans (Kept.unless ?_)
    exact (transformed _ _).trans (signal_emitSpectrum ..)

theorem signal_flushFrames (ch : Nat) : Kept signalPath s (s.flushFrames ch) := by
  have go (n : Nat) (t : State) : Kept signalPath t (t.flushGo ch n) := by
    induction n generalizing t with
    | zero => exact Kept.refl ..
    | succ n ih => exact Kept.unless ((signal_frameDone ..).trans (ih _))
  exact (go ..).when

/-! ### Channels -/

theorem signal_flushDet (ch : Nat) (extra : Flags) : Kept signalPath s (s.flushDet ch extra) := by
  have appended (i : Nat) (h : Hdr) (payload : List Byte) : Kept signalPath s ((s.appendRecord i h payload).getD s) := by
    unfold State.appendRecord
    cases (s.region i).appendAt (padTo 8 payload).length with
    | none => exact Kept.refl ..
    | some o => exact signal_putRecord ..
  exact Kept.unless ((appended ..).trans (signal_setChan ..))

theorem signal_closeChan (ch : Nat) (extra : Flags) : Kept signalPath s (s.closeChan ch extra) := by
  have records (t : State) : Kept signalPath t (t.closeChanRecords ch extra) := Kept.foldl (fun _ _ => signal_acqBreak ..) ..
  exact (((signal_flushFrames ch).trans (signal_cutProducts ..)).trans (records _)).trans (signal_flushDet ..)

theorem signal_leaveRunning (ch : Nat) : Kept signalPath s (s.leaveRunning ch) := by
  have fires (t : State) : Kept signalPath t (t.dropFires ch) :=
    Kept.foldl (fun _ _ => (signal_setChan ..).trans (Kept.foldl (fun _ _ => signal_finish ..) ..)) ..
  have restart (t : State) (ref : Nat) : Kept signalPath t (t.calRestart ref) := by
    unfold State.calRestart
    split
    · exact Kept.refl ..
    · exact (signal_setDrive ..).trans (Kept.foldl (fun _ _ => signal_setChan ..) ..)
  exact ((signal_densLeave ch).trans (fires _)).trans (restart ..).when

theorem signal_enterStopped (ch : Nat) (extra : Flags) : Kept signalPath s (s.enterStopped ch extra) := by
  have stops (t : State) : Kept signalPath t (t.stopsDone ch) := Kept.foldl (fun _ _ => signal_finish ..) ..
  have grant (t : State) : Kept signalPath t ((t.dequeue (.chan ch)).setGrant (.chan ch) 0) := kept_signal ..
  have withdrawn (t : State) (st : Status) (only : Option Op) : Kept signalPath t (t.withdrawStart ch st only) := by
    unfold State.withdrawStart
    extract_lets +onlyGivenNames mine rings
    refine Kept.unless ?_
    extract_lets +onlyGivenNames t'
    have free : Kept signalPath t t' := (grant t).trans (signal_setChan ..)
    exact free.trans (Kept.foldl (fun _ _ => signal_finish ..) ..)
  unfold State.enterStopped
  extract_lets +onlyGivenNames t1 t2
  have closed : Kept signalPath s t1 := signal_closeChan ..
  have stopped : Kept signalPath t1 t2 := signal_setChan ..
  exact (((closed.trans stopped).trans (signal_sweepBreak ch)).trans (stops _)).trans (withdrawn ..)

theorem signal_starveChan (ch : Nat) (extra : Flags) : Kept signalPath s (s.starveChan ch extra) := by
  unfold State.starveChan
  split
  · refine Kept.trans ?_ ((signal_setChan ..).trans (signal_sweepBreak ch))
    exact ((signal_flushFrames ch).trans (signal_leaveRunning ch)).trans (signal_closeChan ..)
  · exact signal_enterStopped ..
  · exact Kept.refl ..

end Sys2Proof.Machine
end

section
/-! What a loss of lock leaves: the lock flags, the marks on PPSIN and the time base, and the statement that this settles (R131, R132, R140,
R142). -/

namespace Sys2Proof.Machine

variable {s t u : State}

/-! ### Streams under a loss of lock -/

theorem signal_closeClocked (i : Nat) : Kept signalPath s (s.closeClocked i) := by
  have closed : Kept signalPath s ((s.chansOf i).foldl (fun s ch => if (s.chan ch).emits then s.closeChan ch fClockLoss else s) s) :=
    Kept.foldl (fun _ _ => (signal_closeChan ..).when) ..
  exact closed.trans (Kept.foldl (fun _ _ => signal_acqBreak ..) ..)

theorem signal_markDown (i cause lane : Nat) : Kept signalPath s (s.markDown i cause lane) := by
  have event (t : State) : Kept signalPath t (t.streamDownEvent i cause lane) := by
    unfold State.streamDownEvent
    cases (t.stream i).lastReleased with
    | none => exact signal_freeTake.trans (signal_note ..)
    | some k => exact signal_note ..
  exact (signal_setStream ..).trans (event _)

theorem signal_setLanes (ls : List Nat) (f : Lane → Lane) : Kept signalPath s (s.setLanes ls f) :=
  Kept.foldl (fun _ _ => kept_signal ..) ..

theorem signal_eyeLeave (ls : List Nat) : Kept signalPath s (s.eyeLeave ls) := Kept.when (kept_signal ..)

theorem signal_clockDown (i : Nat) : Kept signalPath s (s.clockDown i) := by
  unfold State.clockDown
  extract_lets +onlyGivenNames x t1 t2 t3 t4
  have marked : Kept signalPath s t1 := (signal_markDown ..).when
  have lanes : Kept signalPath t1 t2 := signal_setLanes ..
  have eye : Kept signalPath t2 t3 := (signal_eyeLeave ..).when
  have skewed : Kept signalPath t3 t4 := signal_setStream ..
  exact (((marked.trans lanes).trans eye).trans skewed).trans (Kept.foldl (fun _ _ => signal_starveChan ..) ..)

/-! ### The lock flags -/

/-- What no operation below a loss of lock touches: the lock flags, time, identity, flash. -/
structure LockKept (s t : State) : Prop where
  lock : t.clk.lock = s.clk.lock
  coast : t.clk.coast = s.clk.coast
  lost : t.clk.lost = s.clk.lost
  time : t.time = s.time
  ident : t.ident = s.ident
  flash : t.flash = s.flash

theorem LockKept.refl (s : State) : LockKept s s := ⟨rfl, rfl, rfl, rfl, rfl, rfl⟩

theorem LockKept.trans (h : LockKept s t) (h' : LockKept t u) : LockKept s u :=
  ⟨h'.lock.trans h.lock, h'.coast.trans h.coast, h'.lost.trans h.lost, h'.time.trans h.time, h'.ident.trans h.ident, h'.flash.trans h.flash⟩

theorem LockKept.foldl {α : Type} {f : State → α → State} (h : ∀ t a, LockKept t (f t a)) (l : List α) (s : State) :
    LockKept s (l.foldl f s) := by
  induction l generalizing s with
  | nil => exact LockKept.refl s
  | cons a l ih => exact (h s a).trans (ih _)

theorem LockKept.setLost (h : LockKept s t) :
    LockKept (s.setClk fun c => { c with lost := true }) (t.setClk fun c => { c with lost := true }) :=
  ⟨h.lock, h.coast, rfl, h.time, h.ident, h.flash⟩

/-- The signal path touches neither. -/
theorem lockKept_of_signal (h : Kept signalPath s t) : LockKept s t := by
  obtain ⟨-, same⟩ := h
  have clk : t.clk = s.clk := same .clk (by decide)
  exact ⟨congrArg Clk.lock clk, congrArg Clk.coast clk, congrArg Clk.lost clk, same .time (by decide), same .ident (by decide),
    same .flash (by decide)⟩

theorem lockKept_refreshOut (n : Nat) : LockKept s (s.refreshOut n) := by
  unfold State.refreshOut
  dsimp only
  split
  · exact ⟨rfl, rfl, rfl, rfl, rfl, rfl⟩
  · exact ⟨rfl, rfl, rfl, rfl, rfl, rfl⟩

theorem lockKept_gateOut (n : Nat) (gated : Bool) : LockKept s (s.gateOut n gated) :=
  (show LockKept s { s with clk := { s.clk with calGated := upd s.clk.calGated n fun _ => gated } } from ⟨rfl, rfl, rfl, rfl, rfl, rfl⟩).trans
    (lockKept_refreshOut n)

theorem lockKept_driveSource (d : Nat) (on : Bool) : LockKept s (s.driveSource d on) := by
  unfold State.driveSource
  extract_lets +onlyGivenNames v t1 pins t2
  have pin : LockKept s t2 := by
    unfold t2
    split
    · exact ⟨rfl, rfl, rfl, rfl, rfl, rfl⟩
    · exact ⟨rfl, rfl, rfl, rfl, rfl, rfl⟩
  refine pin.trans ?_
  cases v.gate with
  | none => exact LockKept.refl _
  | some n => exact lockKept_gateOut ..

theorem lockKept_drivesOff : LockKept s s.drivesOff := by
  refine LockKept.foldl (fun t d => ?_) ..
  split
  · exact lockKept_driveSource ..
  · exact LockKept.refl t

/-! ### The marks of a loss -/

/-- A slew cut short: the loop no longer slews, and its TIME_SUSPECT stays (R137). -/
theorem abortSlew_eq : s.abortSlew = { s with
    clk := { s.clk with slewing := false }
    time := { s.time with groupSuspect := if s.clk.slewing then Vector.replicate 16 true else s.time.groupSuspect } } := by
  unfold State.abortSlew
  split
  · rfl
  · next h =>
    have off : { s.clk with slewing := false } = s.clk := by rw [← Bool.eq_false_iff.mpr h]
    rw [off]

/-- PLL_S neither locked nor coasting, LOST set. -/
def State.unlocked (s : State) : State := { s with clk := { s.clk with
  lock := false, coast := false, lost := true, measuring := false, coastStart := none } }

/-- The marks that a loss leaves on the slew, on PPSIN and on the epochs. -/
def State.lossMarked (s : State) : State := { s with
  clk := { s.clk with slewing := false, ppsValid := false, ppsGood := 0, ppsBad := 0, comparePps := false }
  time := { s.time with groupSuspect := Vector.replicate 16 true, afterLoss := 0xFFFF#16, lastEdge := none } }

/-- A loss of lock: the flags, the steps that touch none of them, the marks, and the completions of the epochs that waited. -/
theorem loseLock_marks (cause : Nat) (drift : Int) : ∃ t, LockKept s.unlocked t ∧ Kept completion t.lossMarked (s.loseLock cause drift) := by
  unfold State.loseLock
  extract_lets +onlyGivenNames t1 t2 t3 t4 mine t5 units t6 t7 t8 t9 t10 t11 time t12
  have outputs : LockKept t1 t2 := (LockKept.foldl (fun _ _ => lockKept_refreshOut _) _ _).trans lockKept_drivesOff
  have lost : LockKept s.unlocked t3 := (outputs.trans (lockKept_of_signal (signal_note ..))).setLost
  have forgotten : Kept signalPath t3 t4 := kept_signal ..
  have flushed : Kept signalPath t4 t5 := Kept.foldl (fun _ _ => Kept.foldl (fun _ _ => signal_flushFrames ..) ..) ..
  have closed : Kept signalPath t5 t6 := Kept.foldl (fun _ _ => signal_closeClocked ..) ..
  have idle : Kept signalPath t6 t7 := Kept.foldl (fun _ _ => signal_acqIdle ..) ..
  have down : Kept signalPath t7 t8 := Kept.foldl (fun _ _ => signal_clockDown ..) ..
  have groups : Kept signalPath t8 t9 := kept_signal ..
  have streams := ((((forgotten.trans flushed).trans closed).trans idle).trans down).trans groups
  have marks : t12 = t9.lossMarked := by unfold t12 time t11 t10; rw [abortSlew_eq]; rfl
  refine ⟨t9, lost.trans (lockKept_of_signal streams), ?_⟩
  rw [← marks]
  exact Kept.foldl (fun _ _ => kept_finish ..) ..

/-- Settles O29: each event by the branch that its condition takes, and the marks of a loss. -/
theorem lossOfLockRows : Obligations.LossOfLockRows := by
  unfold Obligations.LossOfLockRows
  refine ⟨?window, ?drift, ?held, ?free, ?phase, ?crystal, ?loss⟩
  case window =>
    intro s t hcoast hstart
    simp only [exec, execCoastWindowExpiry, hcoast, hstart]
  case drift =>
    intro ppb s hcoast hbeyond
    simp only [exec, execCoastDriftExceeded, hcoast, hbeyond, Bool.not_true, Bool.false_eq_true, if_false, if_true]
  case held =>
    intro ppb s hcoast hwithin
    simp only [exec, execCoastDriftExceeded, State.setClk, hcoast, Nat.not_lt.mpr hwithin, Bool.not_true, Bool.false_eq_true, if_false]
  case free => exact fun cause s hcoast => if_pos hcoast
  case phase =>
    intro s hlock
    simp only [exec, execPllSPhaseError, hlock, if_true]
  case crystal =>
    intro s t
    exact ⟨rfl, by simp [State.safeMayEnd, t]⟩
  case loss =>
    intro s cause drift t
    obtain ⟨v, kept, -, same⟩ := loseLock_marks (s := s) cause drift
    have clk : t.clk = v.lossMarked.clk := same .clk (by decide)
    have time : t.time = v.lossMarked.time := same .time (by decide)
    have ident : t.ident = s.ident := (same .ident (by decide)).trans kept.ident
    have flash : t.flash = s.flash := (same .flash (by decide)).trans kept.flash
    have tb : v.time.tb = s.time.tb := congrArg TimeBase.tb kept.time
    rw [clk, time]
    exact ⟨kept.lock, kept.coast, kept.lost, rfl, rfl, rfl, rfl, rfl, rfl, rfl, tb, ident, flash⟩

end Sys2Proof.Machine
end

section
/-! What the reference and the fabric PLLs do to the clocks, and the statements that this settles (R108, R109, R130-R138, R143-R147). -/

namespace Sys2Proof.Machine

variable {s : State}

/-! ### The reference and the lock of PLL_S -/

/-- The reference is gone. -/
def State.refLost (s : State) : State := { s with clk := { s.clk with refPresent := false, measuring := false } }

/-- The loop is closed again after a coast. -/
def State.loopClosed (s : State) : State := { s with clk := { s.clk with
  lock := true, coast := false, measuring := false, coastStart := none, comparePps := true
  coastUs := (s.now - s.clk.coastStart.getD s.now) / 1000 } }

/-- A measured offset loses lock, or closes the loop in one of three ways (R135-R138). -/
theorem exec_phaseOffsetMeasured (ps : Int) (hcoast : s.clk.coast = true) (hmeasuring : s.clk.measuring = true) :
    let inside := ps.natAbs ≤ 10 * bits s.clk.coastCfg.toNat 11 4
    (inside → exec (.phaseOffsetMeasured ps) s = .next (s.loopClosed.restored 0)) ∧
    (¬ inside → exec (.phaseOffsetMeasured ps) s = .next (
      if s.clk.policy = 2 then s.loseLockFree 2
      else if s.clk.policy = 0 then
        (((s.loopClosed.setClk fun c => { c with realign := c.realign + c.vcoCycles ps }).timeBreak 0 ps 0).restored 1).suspectAll
      else s.loopClosed.beginSlew ps)) := by
  intro inside
  have exec_eq : exec (.phaseOffsetMeasured ps) s = .next (
      if !(s.clk.coast && s.clk.measuring) then s
      else if !decide inside && s.clk.policy = 2 then s.loseLockFree 2
      else if decide inside then s.loopClosed.restored 0
      else if s.clk.policy = 0 then
        (((s.loopClosed.setClk fun c => { c with realign := c.realign + c.vcoCycles ps }).timeBreak 0 ps 0).restored 1).suspectAll
      else s.loopClosed.beginSlew ps) := rfl
  constructor
  · intro hin
    simp [exec_eq, hcoast, hmeasuring, hin]
  · intro hout
    simp [exec_eq, hcoast, hmeasuring, hout]

/-- A slew takes a free offset of 1 to 1000 ppb toward the phase (R137). -/
theorem beginSlew_ppb (ps : Int) : ∃ k : Nat, 1 ≤ k ∧ k ≤ 1000 ∧ s.beginSlew ps = { s with
    free := s.free + 1, clk := { s.clk with slewing := true, slewPpb := if ps < 0 then -(k : Int) else k } } :=
  ⟨s.freeTake.1.toNat % 1000 + 1, by omega, by omega, rfl⟩

/-- Settles O28: each event by the branch that its conditions take. -/
theorem referenceEventsOfPllS : Obligations.ReferenceEventsOfPllS := by
  unfold Obligations.ReferenceEventsOfPllS
  refine ⟨?coast, ?noWindow, ?unlocked, fun s => rfl, ?offset, ?slewEnd, ?lock⟩
  case coast =>
    intro cause s hlock hwindow
    rw [Clk.window] at hwindow
    simp [exec, execRefinAbsent, State.setClk, abortSlew_eq, Clk.window, hlock, hwindow]
  case noWindow =>
    intro cause s hlock hwindow
    have closed : (!s.clk.lock) = false := by rw [hlock]; rfl
    exact (congrArg Host.Outcome.next (if_neg (by simp [closed]))).trans (congrArg Host.Outcome.next (if_pos hwindow))
  case unlocked =>
    intro cause s hlock
    exact congrArg Host.Outcome.next (if_pos (by simp [hlock]))
  case offset =>
    intro ps s hcoast hmeasuring inside us closed
    obtain ⟨hinside, houtside⟩ := exec_phaseOffsetMeasured ps hcoast hmeasuring
    refine ⟨hinside, ?step, ?policy2, ?slew⟩
    case step =>
      intro hout hpolicy moved
      rw [houtside hout, hpolicy]
      simp only [State.timeBreak, State.restored, note_parts]
      rfl
    case policy2 =>
      intro hout hpolicy
      rw [houtside hout, if_pos hpolicy]
    case slew =>
      intro hout hstep hlose
      obtain ⟨k, hmin, hmax, hslew⟩ := beginSlew_ppb (s := s.loopClosed) ps
      refine ⟨k, hmin, hmax, ?_⟩
      rw [houtside hout, if_neg hlose, if_neg hstep, hslew]
      rfl
  case slewEnd =>
    intro s hslewing
    exact congrArg Host.Outcome.next (if_pos hslewing)
  case lock =>
    intro s hen hcfg href hlock hcoast hoff
    simp only [exec, execPllSLock, State.setClk, hen, hcfg, href, hlock, hcoast, hoff, Bool.not_false, Bool.and_self, if_true]

/-! ### The fabric PLLs -/

/-- A change of the clocks, of the time base and of the RTC. -/
theorem kept_clocks (a : Nat) (b : TimeBase) (c : Thim) (d : Clk) :
    Kept [.now, .time, .thim, .clk] s { s with now := a, time := b, thim := c, clk := d } := by
  refine ⟨rfl, fun p hp => ?_⟩
  cases p with
  | now | time | thim | clk => simp at hp
  | _ => rfl

/-- The standby has taken over after a pause. -/
def State.onStandby (s : State) (pause : Nat) : State :=
  { s.pass pause with clk := { s.clk with
      fActive := !s.clk.fActive, switches := min 65535 (s.clk.switches + 1)
      f0Lock := s.clk.f0Lock && s.clk.fActive, f1Lock := s.clk.f1Lock && !s.clk.fActive } }

/-- With the standby locked the fabric switches to it (R144). -/
theorem exec_fabricPllSwitch (pauseNs : Nat) (hactive : s.pwr.st = .active)
    (hstandby : (if s.clk.fActive then s.clk.f0Lock else s.clk.f1Lock) = true) :
    exec (.fabricPllSwitch pauseNs) s = .next ((s.onStandby (min 2000 pauseNs)).note .fabricPllSwitch 0
      [(1, b2n (!s.clk.fActive)), (3, 0), (4, min 2000 pauseNs), (4, 0)]) := by
  cases hf : s.clk.fActive with
  | false =>
    have h1 : s.clk.f1Lock = true := by simpa [hf] using hstandby
    simp [exec, execFabricPllSwitch, State.onStandby, satN, hactive, hf, h1]
  | true =>
    have h0 : s.clk.f0Lock = true := by simpa [hf] using hstandby
    simp [exec, execFabricPllSwitch, State.onStandby, satN, hactive, hf, h0]

/-- Settles O32: the standby's lock decides a switch; the active PLL decides which one a relock or a loss of the standby means. -/
theorem fabricPllRows : Obligations.FabricPllRows := by
  unfold Obligations.FabricPllRows
  refine ⟨?to1, ?to0, ?safe, ?relock, ?lose1, ?lose0⟩
  case to1 =>
    intro pauseNs s hactive hf h1
    refine ⟨s.onStandby (min 2000 pauseNs), ?_, ?_, rfl, kept_clocks ..⟩
    · rw [exec_fabricPllSwitch pauseNs hactive (by simp [hf, h1]), hf]
      rfl
    · simp [State.onStandby, hf]
  case to0 =>
    intro pauseNs s hactive hf h0
    refine ⟨s.onStandby (min 2000 pauseNs), ?_, ?_, rfl, kept_clocks ..⟩
    · rw [exec_fabricPllSwitch pauseNs hactive (by simp [hf, h0]), hf]
      rfl
    · simp [State.onStandby, hf]
  case safe =>
    intro pauseNs s hactive hnone
    cases hf : s.clk.fActive with
    | false =>
      have h1 : s.clk.f1Lock = false := by simpa [hf] using hnone
      simp [exec, execFabricPllSwitch, hactive, hf, h1]
    | true =>
      have h0 : s.clk.f0Lock = false := by simpa [hf] using hnone
      simp [exec, execFabricPllSwitch, hactive, hf, h0]
  case relock =>
    intro s hactive
    exact congrArg Host.Outcome.next (if_pos hactive)
  case lose1 =>
    intro s hactive hf
    simp [exec, execStandbyPllLockLoss, hactive, hf]
  case lose0 =>
    intro s hactive hf
    simp [exec, execStandbyPllLockLoss, hactive, hf]

end Sys2Proof.Machine
end

section
/-! What PPS edges do to PPSIN and the time base, and the statement that this settles (R110-R112, R139, R803). -/

namespace Sys2Proof.Machine

variable {s : State}

/-- An edge comes at its instant and is good or bad. -/
theorem exec_ppsEdge (ns : Int) :
    let e := s.time.run + ((s.nextEdge ns).1 - s.time.tb)
    exec (.ppsEdge ns) s = .next (if s.inPlace (if s.pllOk then 100 else 2000) e
      then ((s.untilTb (s.nextEdge ns).1).goodEdge ns (s.nextEdge ns).2).sawEdge (some e)
      else (s.untilTb (s.nextEdge ns).1).badEdge (some e)) := rfl

/-- Letting time pass changes the clock readings only. -/
theorem kept_untilTb (t : Nat) : Kept [.now, .time, .thim, .clk] s (s.untilTb t) := kept_clocks ..

/-- A misplaced or missing edge of a valid PPSIN counts, short of the third (R111). -/
theorem badEdge_counts (edge : Option Nat) (hvalid : s.clk.ppsValid = true) (hbad : s.clk.ppsBad < 2) : s.badEdge edge =
    { s with clk := { s.clk with ppsBad := s.clk.ppsBad + 1, missed := min 65535 (s.clk.missed + 1) } } := by
  have few : ¬ 3 ≤ s.clk.ppsBad + 1 := by omega
  exact (if_pos hvalid).trans (if_neg few)

/-- The third edge in a row with the loop locked or coasting is accepted. -/
theorem goodEdge_accepts (ns : Int) (t : Nat) (hok : s.pllOk = true) (hgood : 2 ≤ s.clk.ppsGood) : s.goodEdge ns t =
    ((s.setClk fun c => { c with ppsGood := 3, ppsValid := true }).acceptEdge ns t).edgeRtc := by
  have three : satN 3 (s.clk.ppsGood + 1) = 3 := by rw [satN]; omega
  unfold State.goodEdge
  simp only [State.setClk, three, Nat.lt_irrefl, if_false]
  exact if_pos hok

/-- A comparison after a coast may raise TIME_BREAK and suspect the groups (R139). -/
theorem compare_shape (jump : Bool) (diff periods : Int) : ∃ x g, (if jump then (s.timeBreak 1 diff periods).suspectAll else s) =
    { s with io := x, time := { s.time with groupSuspect := g } } := by
  cases jump with
  | false => exact ⟨s.io, s.time.groupSuspect, rfl⟩
  | true =>
    obtain ⟨x, hx⟩ := note_shape (s := s) .timeBreak 0
      [(1, 1), (3, 0), (4, twos 32 (max (-(2 ^ 31 - 1 : Int)) (min (2 ^ 31 - 1) diff))), (4, twos 32 periods)]
    exact ⟨x, Vector.replicate 16 true, congrArg State.suspectAll hx⟩

/-- An accepted edge: its marks on PPSIN, and the second boundary at the edge (R112, R139). (The definition is unfolded as a function: at its
arguments the kernel would compute with the ps of a second.) -/
theorem acceptEdge_shape (ns : Int) (t : Nat) : ∃ x g, s.acceptEdge ns t = { s with
    io := x
    clk := { s.clk with edgeErr := max (-32767) (min 32767 ns), comparePps := false, ppsBad := 0 }
    time := { s.time with tb := t, groupSuspect := g } } := by
  conv in State.acceptEdge => delta State.acceptEdge
  extract_lets +onlyGivenNames pd diff jump t1 t2
  obtain ⟨x, g, compared⟩ := compare_shape (s := t1) jump diff ((2 * diff + pd) / (2 * pd : Nat))
  refine ⟨x, g, ?_⟩
  rw [show t2 = _ from compared]
  rfl

/-- Disciplining the RTC leaves all else. -/
theorem edgeRtc_shape : ∃ r, s.edgeRtc = { s with thim := r } := by
  unfold State.edgeRtc
  split
  · exact ⟨_, rfl⟩
  · exact ⟨s.thim, rfl⟩

/-- Settles O30: an edge in its place is accepted, another counts against PPSIN. -/
theorem ppsEdgeRows : Obligations.PpsEdgeRows := by
  unfold Obligations.PpsEdgeRows
  refine ⟨?place, ?good, ?misplaced, ?missing, ?third, ?invalid⟩
  case place =>
    intro w e l s hlast hvalid
    simp [State.inPlace, hlast, hvalid]
  case good =>
    intro ns s hok hgood e hplace
    rw [exec_ppsEdge, hok, if_pos rfl, if_pos hplace]
    have arrived := kept_untilTb (s := s) (s.nextEdge ns).1
    rw [goodEdge_accepts (s := s.untilTb (s.nextEdge ns).1) ns _ hok hgood]
    generalize s.untilTb (s.nextEdge ns).1 = u at arrived
    obtain ⟨x, g, accepted⟩ := acceptEdge_shape (s := u.setClk fun c => { c with ppsGood := 3, ppsValid := true }) ns (s.nextEdge ns).2
    rw [accepted]
    obtain ⟨r, rtc⟩ := edgeRtc_shape (s := _)
    rw [rtc]
    exact ⟨_, rfl, rfl, rfl, rfl, rfl, rfl, rfl,
      (arrived.mono (by decide)).trans ((kept_io _).mono (by decide) |>.trans ((kept_clocks ..).mono (by decide)))⟩
  case misplaced =>
    intro ns s hplace hvalid hbad
    rw [exec_ppsEdge, if_neg (by simp [hplace])]
    exact congrArg Host.Outcome.next (badEdge_counts (s := s.untilTb (s.nextEdge ns).1) _ hvalid hbad)
  case missing =>
    intro s hvalid hbad
    exact congrArg Host.Outcome.next (badEdge_counts none hvalid hbad)
  case third =>
    intro s hvalid hbad
    have third : 3 ≤ s.clk.ppsBad + 1 := by omega
    exact congrArg Host.Outcome.next ((if_pos hvalid).trans (if_pos third))
  case invalid =>
    intro s hvalid
    exact congrArg Host.Outcome.next (if_neg (by simp [hvalid]))

end Sys2Proof.Machine
end

section
/-! How epochs are scheduled and applied and how the time is set, and the statement that this settles (R152-R165). -/

namespace Sys2Proof.Machine

variable {d : Desc} {s : State} {ring : Fin 16} {f : Inflight}

/-- While no channel runs the search for one finds none. -/
theorem noneRuns (h : ∀ c : Fin 128, (s.chan c.val).st ≠ .running) : (s.chans.toList.any fun c => c.st == .running) = false := by
  rw [List.any_eq_false]
  intro c hc
  obtain ⟨i, hi, rfl⟩ := Vector.getElem_of_mem (Vector.mem_toList_iff.1 hc)
  have stopped := h ⟨i, hi⟩
  rw [show s.chan (⟨i, hi⟩ : Fin 128).val = s.chans[i] by simp [State.chan, nth, hi]] at stopped
  simpa using stopped

/-! ### Epochs -/

/-- The second that an epoch starts: its own, or where a TIME_SET that loaded at that boundary has put the time base. -/
def State.epochLabel (s : State) (sec : Nat) : Nat := if s.time.loadedAt = some (sec, s.now) then s.time.tb / unitS else sec

/-- The state at an epoch's boundary. -/
def State.atEpoch (s : State) (sec : Nat) : State := if s.epochLabel sec = sec then s.untilTb (sec * unitS) else s

/-- An epoch times out without PPS validity or permission; else it is applied (R157-R160). -/
theorem exec_syncEpoch (hwait : s.waitsAt ring.val .epoch = some f) :
    let u := s.atEpoch (epochSecond f.d)
    let q := u.sendSysref f.d
    let p := q.2.applyEpoch (epochMask f.d) (s.epochLabel (epochSecond f.d)) q.1 (dBit f.d 0x14 0)
    exec (.syncEpoch ring) s = .next (if !u.clk.ppsValid && !dBit f.d 0x14 1 then u.finish ring.val .timeout 0 0
      else p.1.finish ring.val .ok p.2 (s.epochLabel (epochSecond f.d))) := by
  intro u q p
  simp only [exec, execSyncEpoch, hwait]
  cases hloaded : s.time.loadedAt with
  | none =>
    have label : s.epochLabel (epochSecond f.d) = epochSecond f.d := by simp [State.epochLabel, hloaded]
    simp only [p, q, u, State.atEpoch, label]
  | some x =>
    obtain ⟨old, at'⟩ := x
    have label : s.epochLabel (epochSecond f.d) =
        if old = epochSecond f.d ∧ at' = s.now then s.time.tb / unitS else epochSecond f.d := by
      simp only [State.epochLabel, hloaded, Option.some.injEq, Prod.mk.injEq]
    simp only [p, q, u, State.atEpoch, label, Bool.and_eq_true, decide_eq_true_eq]

/-- Letting time pass to the boundary leaves PPS validity. -/
theorem atEpoch_ppsValid (sec : Nat) : (s.atEpoch sec).clk.ppsValid = s.clk.ppsValid := by
  unfold State.atEpoch
  split
  · rfl
  · rfl

/-- After an epoch its groups are suspect only while the time was never set (R158). -/
theorem applyEpoch_suspect (mask sec ps : Nat) (sup : Bool) (g : Fin 16) (hg : bit mask g.val = true) :
    nth (s.applyEpoch mask sec ps sup).1.time.groupSuspect g.val false = !(s.applyEpoch mask sec ps sup).1.time.timeSet := by
  simp only [State.applyEpoch, nth, g.isLt, dite_true, Vector.getElem_ofFn, hg, if_true]

/-- SYNC_SCHEDULE waits for its epoch when every test passes. -/
theorem syncScheduleBody_waits (hclean : d.clean [(0x08, 13)] = true) (hsec : epochSecond d < 2 ^ 40) (hsr : bits (d.u 0x12 1) 6 4 = 0)
    (hflags : d.u 0x14 1 < 4) (hmin : s.time.tb + 2 * unitS ≤ epochSecond d * unitS)
    (hmax : epochSecond d * unitS ≤ s.time.tb + 3600 * unitS) (hmask : epochMask d ≠ 0)
    (hout : bit (d.u 0x12 1) 7 = true → inR (d.u 0x13 1) 1 16 = true ∧ outFunc (nth s.clk.outCfg (d.u 0x12 1 % 16) 0) = 2)
    (hlock : s.pllOk = true) (hpps : s.clk.ppsValid = true ∨ dBit d 0x14 1 = true) (hnone : s.epochs = []) :
    syncScheduleBody d s = .wait .epoch d.handle s := by
  have pulses : (bit (d.u 0x12 1) 7 && !inR (d.u 0x13 1) 1 16) = false := by
    cases h : bit (d.u 0x12 1) 7 with
    | false => rfl
    | true => simp [(hout h).1]
  have assigned : (bit (d.u 0x12 1) 7 && decide (outFunc (nth s.clk.outCfg (d.u 0x12 1 % 16) 0) ≠ 2)) = false := by
    cases h : bit (d.u 0x12 1) 7 with
    | false => rfl
    | true => exact decide_eq_false (not_not_intro (hout h).2)
  have ready : (!s.pllOk || (!s.clk.ppsValid && !dBit d 0x14 1)) = false := by
    rw [hlock]
    rcases hpps with h | h
    · simp [h]
    · simp [h]
  simp only [syncScheduleBody, hclean, hsr, hmask, Nat.not_le.2 hsec, Nat.not_le.2 hflags, Nat.not_lt.2 hmin, Nat.not_lt.2 hmax, pulses,
    assigned, ready, hnone, List.any_nil, decide_false, Bool.not_true, Bool.or_self, ne_eq, not_true_eq_false, Bool.false_eq_true,
    if_false]

/-! ### Setting the time -/

/-- A load changes the time base, the RTC, and the control path by what it reports. -/
theorem kept_load (x : Io) (b : TimeBase) (c : Thim) : Kept [.io, .pair, .sec, .time, .thim] s { s with io := x, time := b, thim := c } := by
  refine ⟨rfl, fun p hp => ?_⟩
  cases p with
  | io | pair | sec | time | thim => simp at hp
  | _ => rfl

/-- A load that nothing forbids sets the time base and the RTC; the epochs that it passes time out (R162, R165). -/
theorem loadTime_loads {force : Bool} (tb : Nat) (edge : Option Nat) (h : force = true ∨ ∀ c : Fin 128, (s.chan c.val).st ≠ .running) :
    ∃ t, s.loadTime force tb edge = (t, .ok) ∧ t.time.tb = tb ∧ t.thim.rtc = tb ∧ t.time.timeSet = true ∧
      Kept [.io, .pair, .sec, .time, .thim] s t := by
  have allowed : ((s.chans.toList.any fun c => c.st == .running) && !force) = false := by
    rcases h with h | h
    · simp [h]
    · simp [noneRuns h]
  unfold State.loadTime
  extract_lets +onlyGivenNames running step time thim t1 t2 late
  rw [if_neg (Bool.eq_false_iff.1 allowed)]
  have told : ∃ x g, t2 = { t1 with io := x, time := { t1.time with groupSuspect := g } } := by
    unfold t2
    split
    · obtain ⟨x, hx⟩ := note_shape (s := t1) .timeBreak 0
        [(1, 2), (3, 0), (4, twos 32 (max (-(2 ^ 31 - 1 : Int)) (min (2 ^ 31 - 1) (step / (unitPs : Int))))), (4, twos 32 0)]
      exact ⟨x, Vector.replicate 16 true, congrArg State.suspectAll hx⟩
    · exact ⟨t1.io, t1.time.groupSuspect, rfl⟩
  obtain ⟨x, g, told⟩ := told
  have loaded : Kept [.io, .pair, .sec, .time, .thim] s t2 := by
    rw [told]
    exact kept_load ..
  have passed : Kept completion t2 (late.foldl (fun s r => s.finish r .timeout 0 0) t2) := Kept.foldl (fun _ _ => kept_finish ..) ..
  have time : (late.foldl (fun s r => s.finish r .timeout 0 0) t2).time = t2.time := passed.2 .time (by decide)
  have thim : (late.foldl (fun s r => s.finish r .timeout 0 0) t2).thim = t2.thim := passed.2 .thim (by decide)
  refine ⟨_, rfl, ?_, ?_, ?_, loaded.trans (passed.mono (by decide))⟩
  · rw [time, told]
  · rw [thim, told]
  · rw [time, told]

/-- Settles O31: each command and event by the branch that its conditions take. -/
theorem epochsAndTimeSet : Obligations.EpochsAndTimeSet := by
  unfold Obligations.EpochsAndTimeSet
  refine ⟨?schedule, ?timeout, ?epoch, ?noOutput, ?pulses, ?noPulse, ?now, ?atEdge, ?load, ?expired⟩
  case schedule =>
    intro d s hready a hclean hsec hsr hflags hmin hmax hmask hout hlock hpps hnone
    refine (exec_ready rfl hready).trans (congrArg Host.Outcome.next ?_)
    rw [show bodyOf .syncSchedule d (accepted .syncSchedule d s) = .wait .epoch d.handle a from
      syncScheduleBody_waits hclean hsec hsr hflags hmin hmax hmask hout hlock hpps hnone]
    rfl
  case timeout =>
    intro ring f s hwait hpps hperm hload
    have label : s.epochLabel (epochSecond f.d) = epochSecond f.d := if_neg hload
    rw [exec_syncEpoch hwait, atEpoch_ppsValid, hpps, hperm, State.atEpoch, if_pos label]
    rfl
  case epoch =>
    intro ring f s hwait hpps label u q p
    have granted : (!s.clk.ppsValid && !dBit f.d 0x14 1) = false := by
      rcases hpps with h | h
      · simp [h]
      · simp [h]
    refine ⟨?_, fun g hg => applyEpoch_suspect _ _ _ _ g hg⟩
    rw [exec_syncEpoch hwait, atEpoch_ppsValid, granted]
    rfl
  case noOutput =>
    intro d s hout
    simp only [State.sendSysref, hout]
  case pulses =>
    intro d n s hout hready hpair
    have sends : (s.hotSecondary || !s.sysrefReady n) = false := by simp [hready, hpair]
    simp only [State.sendSysref, hout]
    exact if_neg (Bool.eq_false_iff.1 sends)
  case noPulse =>
    intro d n s hout hready
    simp only [State.sendSysref, hout]
    exact if_pos (show (s.hotSecondary || !s.sysrefReady n) = true by simp [hready])
  case now =>
    intro d s hready a hclean hsec hflags hnow hfree
    obtain ⟨t, hload, htb, hrtc, hset, kept⟩ := loadTime_loads (s := a) (d.u 0x08 8 * unitS + d.u 0x10 4 * unitF) none hfree
    refine ⟨t, (exec_ready rfl hready).trans (congrArg Host.Outcome.next ?_), htb, hrtc.trans htb.symm, hset, kept⟩
    have body : bodyOf .timeSet d a = .done .ok 0 0 d.handle t := by
      simp only [bodyOf, timeSetBody, hclean, Nat.not_le.2 hsec, Nat.not_le.2 hflags, hnow, hload, decide_false, Bool.not_true,
        Bool.or_self, Bool.false_eq_true, if_false, if_true]
    rw [body, settle_ok]
  case atEdge =>
    intro d s hready a hclean hsec hflags hnow
    refine (exec_ready rfl hready).trans (congrArg Host.Outcome.next ?_)
    have body : bodyOf .timeSet d a = .wait .pps d.handle a := by
      simp only [bodyOf, timeSetBody, hclean, Nat.not_le.2 hsec, Nat.not_le.2 hflags, hnow, decide_false, Bool.not_true,
        Bool.or_self, Bool.false_eq_true, if_false]
    rw [body]
    rfl
  case load =>
    intro ring f s hwait hpps hfree
    obtain ⟨t, hload, htb, hrtc, hset, kept⟩ := loadTime_loads (s := s) (f.d.u 0x08 8 * unitS)
      (some ((2 * s.time.tb + unitS) / (2 * unitS))) hfree
    refine ⟨t, ?_, htb, hrtc.trans htb.symm, hset, kept⟩
    simp only [exec, execTimeSetLoad, hwait, hpps, hload, Bool.not_true, Bool.false_eq_true, if_false]
  case expired =>
    intro ring f s hwait hpps
    simp only [exec, execTimeSetTimeout, hwait, hpps, Bool.false_eq_true, if_false]

end Sys2Proof.Machine
end

section
/-! Ready commands that complete at once, and what a grant of lanes leaves of its stream. -/

namespace Sys2Proof.Machine

variable {op : Op} {d : Desc} {s t u : State} {i x y : Nat} {h : Handle}

/-- A ready command whose body ends with OK completes at once. -/
theorem exec_done (hop : Op.ofCode op.code = op) (hr : Ready op d s) (hb : bodyOf op d (accepted op d s) = .done .ok x y h u) :
    exec (ringInstr op d) s = .next (u.complete d.ring.val .ok x y h) := by
  rw [exec_ready hop hr, hb, settle_ok]

/-- A ready command whose request for power is granted at once goes on to the rest of its body (R606); its body leaves the control path
alone up to the request. -/
theorem exec_granted {n : Need} {cls cost : Nat} {h' : Handle} {k : State → Verdict} (hop : Op.ofCode op.code = op) (hr : Ready op d s)
    (hb : bodyOf op d (accepted op d s) = .need n cls cost h' t k) (hio : t.io = (accepted op d s).io)
    (hg : GrantedNow t cls cost d.waitForPower) (hk : k (withGrant t n cost) = .done .ok x y h u) :
    exec (ringInstr op d) s = .next (u.complete d.ring.val .ok x y h) := by
  obtain ⟨f, hf, -, hd, -⟩ := accepted_inflight op d s
  have hwait : ((t.toActive.cmdRing d.ring.val).inflight.any fun f => f.d.waitForPower) = d.waitForPower := by
    rw [State.cmdRing, toActive_io, hio, ← State.cmdRing, hf]
    simp [hd]
  rw [exec_ready hop hr, hb, settle_granted (by rw [hwait]; exact hg)]
  exact congrArg Host.Outcome.next ((congrArg (settle _ _) hk).trans settle_ok)

/-- A stream of the part after its own update. -/
theorem stream_setStream_same (hi : i < 32) {f : Stream → Stream} : (s.setStream i f).stream i = f (s.stream i) := nth_upd_same hi

/-- Leaving IDLE changes no stream. -/
theorem toActive_streams : s.toActive.streams = s.streams := by
  simp only [State.toActive, State.restartTime]
  split
  · split <;> rfl
  · split <;> rfl

/-- A grant of lanes changes what its stream holds, and nothing else of the stream. -/
theorem withGrant_stream (hi : i < 32) (cost : Nat) : ∃ held, (withGrant s (.lanes i) cost).stream i = { s.stream i with grant := held } := by
  have hcharge : (withGrant s (.lanes i) cost).streams = (s.toActive.setGrant (.lanes i) cost).streams := by
    unfold withGrant State.charge
    dsimp only
    split <;> rfl
  simp only [State.stream, hcharge, State.setGrant, toActive_streams, nth_upd_same hi]
  exact ⟨_, rfl⟩

/-- An index that a command claims is in range and passes the test. -/
theorem claimIdx_some {n k : Nat} {p : Nat → Bool} (hc : s.claimIdx n p = some k) : k < n ∧ p k = true := by
  unfold State.claimIdx at hc
  split at hc
  · obtain ⟨hk, rfl⟩ := Option.ite_none_right_eq_some.1 hc |>.imp_right Option.some.inj
    simpa using hk
  · exact ⟨List.mem_range.1 (List.mem_of_find?_eq_some hc), List.find?_some hc⟩

/-- A stream that is not free has an index of the part. -/
theorem lt_of_stream_ne_free (hne : (s.stream i).st ≠ .free) : i < 32 := by
  by_contra hi
  exact hne (by simp [State.stream, nth, hi, Stream.reset])

end Sys2Proof.Machine
end

section
/-! STREAM_OPEN, STREAM_CLOSE and STREAM_STATUS (R190–R197), and the statement they settle. -/

namespace Sys2Proof.Machine

variable {d : Desc} {s : State} {i : Nat}

/-! ### STREAM_OPEN -/

/-- Stream i begins its bring-up with parameters p, its lanes at stage 1; `old` is the rate at which its lanes ran (R194, R195). -/
def State.beginStream (s : State) (i : Nat) (p : StreamPar) (old : Nat) : State :=
  (s.setLanes p.map fun l => l.start p.rate old).setStream i fun x =>
    { Stream.reset with gen := x.gen, st := .bringup, par := p, lanes := p.map, since := s.now, grant := 400 * p.l }

/-- What STREAM_OPEN answers once it holds its grant: the lane rate in Mbit/s and the stream's handle (R191). -/
def State.opened (t : State) (i : Nat) (d : Desc) : Verdict := .done .ok ((parOf d).rate / 128000000 % 65536) 0 (t.handleOf 1 i) t

theorem streamOpenGrant_new (hnew : (s.stream i).reopening = false) :
    streamOpenGrant i d s = (s.beginStream i (parOf d) (s.stream i).par.rate).opened i d := by
  simp only [streamOpenGrant, hnew, Bool.false_eq_true, if_false, setLanes_parts]
  rfl

/-- A stream that is opened again first parks the lanes that the new map leaves out (R195). -/
theorem streamOpenGrant_reopening (hre : (s.stream i).reopening = true) :
    streamOpenGrant i d s = ((s.parkLanes ((s.stream i).lanes.filter fun l => !(parOf d).map.contains l) (s.stream i).par.rate).beginStream i
      (parOf d) (s.stream i).par.rate).opened i d := by
  simp only [streamOpenGrant, hre, if_true, setLanes_parts]
  rfl

theorem streamOpenBody_new (hh : d.handle = 0) (hok : streamOk s d = true)
    (hclash : (((((List.range 32).filter fun i => (s.stream i).st != .free).map fun i => (s.stream i).claim) ++
      s.opening d.ring.val).any (lanesClash (parOf d))) = false) (hi : s.claimIdx 32 (fun i => (s.stream i).st == .free) = some i) :
    streamOpenBody d s =
      let b := s.setStream i fun x => { Stream.reset with gen := x.gen, st := .bringup, par := parOf d, lanes := (parOf d).map }
      .need (.lanes i) 0 (400 * (parOf d).l) (b.handleOf 1 i) b (streamOpenGrant i d) := by
  simp only [streamOpenBody, hh, hok, hclash, hi, bne_self_eq_false, Bool.false_and, Bool.not_false, Bool.and_true, Bool.not_true,
    Bool.false_eq_true, if_false]

theorem streamOpenBody_held (hh : d.handle ≠ 0) (hst : (s.stream (hIdx d.handle)).st = .held)
    (hre : (s.stream (hIdx d.handle)).reopening = false) (hok : streamOk s d = true)
    (hclash : (((((List.range 32).filter fun j => (s.stream j).st != .free && !(j == hIdx d.handle)).map fun j => (s.stream j).claim) ++
      s.opening d.ring.val).any (lanesClash (parOf d))) = false) :
    streamOpenBody d s =
      let b := s.setStream (hIdx d.handle) fun x => { x with reopening := true }
      let cold := (parOf d).map.filter fun l => (b.lane l).pstate == 2
      if cold.isEmpty then streamOpenGrant (hIdx d.handle) d b
      else .need (.lanes (hIdx d.handle)) 0 (400 * cold.length) d.handle b (streamOpenGrant (hIdx d.handle) d) := by
  have hne : (d.handle != 0) = true := by simpa using hh
  simp only [streamOpenBody, hne, hst, hre, hok, hclash, decide_true, Bool.true_or, Bool.or_self, Bool.true_and, Bool.not_true,
    Bool.false_eq_true, if_false, if_true]

/-! ### STREAM_CLOSE -/

theorem streamCloseBody_free (hclean : d.clean [(0x08, 1)] = true) (hflags : d.u 0x08 1 ≤ 1)
    (hunused : s.streamUsed (hIdx d.handle) d.ring.val = false) (hfree : dBit d 0x08 0 = false) :
    streamCloseBody d s = .done .ok 0 0 d.handle
      ((s.parkLanes (s.stream (hIdx d.handle)).lanes (s.stream (hIdx d.handle)).par.rate).setStream (hIdx d.handle) fun x =>
        { Stream.reset with gen := nextGen x.gen }) := by
  simp only [streamCloseBody, hclean, Nat.not_lt.2 hflags, hunused, hfree, Bool.not_true, decide_false, Bool.or_self,
    Bool.false_eq_true, if_false]

theorem streamCloseBody_hold (hclean : d.clean [(0x08, 1)] = true) (hflags : d.u 0x08 1 ≤ 1)
    (hunused : s.streamUsed (hIdx d.handle) d.ring.val = false) (hhold : dBit d 0x08 0 = true) :
    streamCloseBody d s = .done .ok 0 0 d.handle
      (((s.eyeLeave (s.stream (hIdx d.handle)).lanes).setLanes (s.stream (hIdx d.handle)).lanes fun l => l.idle 1).setStream
        (hIdx d.handle) fun x => { x with st := .held, next := none, deskewed := false, lateEpisode := false }) := by
  simp only [streamCloseBody, hclean, Nat.not_lt.2 hflags, hunused, hhold, Bool.not_true, decide_false, Bool.or_self,
    Bool.false_eq_true, if_false, if_true]

/-! ### STREAM_STATUS -/

/-- A list of bytes filled up to the 16 places of the status block. -/
def statusPlaces (v : Nat) (l : List Nat) : List (Nat × Nat) := (l ++ List.replicate (16 - l.length) v).map fun b => (1, b)

/-- The status block of a stream, with the index of its last released sample (R197). -/
def State.statusBlock (s : State) (x : Stream) (last : Nat) : List Byte :=
  pack ([(1, x.st.code), (1, x.par.l), (1, x.basis), (1, 0), (4, x.par.rate / 128000)] ++ statusPlaces 255 x.lanes ++
    statusPlaces 0 (x.lanes.map fun l => (s.lane l).stage) ++
    [(4, x.skewPs), (4, 0), (8, last), (8, x.zeroed), (8, x.saturated), (4, x.crcBad), (4, x.fecCorr), (4, x.downs), (44, 0)])

/-- The fields of a packed list one after the other. -/
theorem length_pack (l : List (Nat × Nat)) : (pack l).length = (l.map Prod.fst).sum := by
  induction l with
  | nil => rfl
  | cons x l ih => simp [pack, ih]

/-- Up to 16 bytes fill 16 places of one byte. -/
theorem sum_statusPlaces (v : Nat) {l : List Nat} (hl : l.length ≤ 16) : ((statusPlaces v l).map Prod.fst).sum = 16 := by
  have hones : (statusPlaces v l).map Prod.fst = List.replicate 16 1 := by
    rw [statusPlaces, List.map_map, Function.comp_def, List.map_const', List.length_append, List.length_replicate, Nat.add_sub_cancel' hl]
  rw [hones]
  rfl

theorem length_statusBlock {x : Stream} (last : Nat) (hl : x.lanes.length ≤ 16) : (s.statusBlock x last).length = 128 := by
  simp only [State.statusBlock, length_pack, List.map_append, List.sum_append, sum_statusPlaces _ hl,
    sum_statusPlaces 0 ((List.length_map fun l => (s.lane l).stage).trans_le hl)]
  rfl

/-- STREAM_STATUS answers with the block; a last released index that no release has given is a free value. -/
theorem streamStatusBody_ok (hclean : d.clean [(0x08, 12)] = true) (hlen : 128 ≤ d.u 0x10 4)
    (haddr : addrOk (d.u 0x08 8) (d.u 0x10 4) 64 = true) :
    let x := s.stream (hIdx d.handle)
    let u := if x.lastReleased.isSome then s else s.freeTake.2
    ∃ last, streamStatusBody d s = result d (d.u 0x08 8) (s.statusBlock x last) x.st.code
      (sumN (x.lanes.mapIdx fun j l => if (s.lane l).stage = 9 then 2 ^ j else 0)) u := by
  intro x u
  have hchecks : (!d.clean [(0x08, 12)] || decide (d.u 0x10 4 < 128) || !addrOk (d.u 0x08 8) (d.u 0x10 4) 64) = false := by
    simp [hclean, haddr, hlen]
  have hmap : ((x.lanes.map fun l => (s.lane l).stage).mapIdx fun j g => if g = 9 then 2 ^ j else 0) =
      x.lanes.mapIdx fun j l => if (s.lane l).stage = 9 then 2 ^ j else 0 := by
    exact List.ext_getElem (by simp) (by simp)
  rw [← hmap]
  cases hlast : x.lastReleased with
  | some k =>
    refine ⟨k, ?_⟩
    simp only [streamStatusBody, hchecks, Bool.false_eq_true, if_false, u, hlast, Option.isSome_some, if_true]
    rw [show (s.stream (hIdx d.handle)).lastReleased = some k from hlast]
    rfl
  | none =>
    refine ⟨s.freeTake.1.toNat, ?_⟩
    simp only [streamStatusBody, hchecks, Bool.false_eq_true, if_false, u, hlast, Option.isSome_none]
    rw [show (s.stream (hIdx d.handle)).lastReleased = none from hlast]
    rfl

/-! ### The statement -/

/-- Settles O33: each command passes its checks, and STREAM_OPEN goes on from its grant. -/
theorem streamCommands : Obligations.StreamCommands := by
  unfold Obligations.StreamCommands
  refine ⟨?new, ?held, ?free, ?hold, ?status⟩
  case new =>
    intro d s i hr a hh hok hclash hi p b hgrant g t
    have hlt : i < 32 := (claimIdx_some hi).1
    obtain ⟨held, hstream⟩ := withGrant_stream (s := b) hlt (400 * p.l)
    have hnew : (g.stream i).reopening = false := by
      rw [hstream, stream_setStream_same hlt]
      rfl
    exact exec_granted rfl hr (streamOpenBody_new hh hok hclash hi) rfl hgrant (streamOpenGrant_new hnew)
  case held =>
    intro d s hr a i hh hst hre hok hclash p b cold hgrant g old k t
    have hlt : i < 32 := lt_of_stream_ne_free (by rw [hst]; decide)
    have hb := streamOpenBody_held hh hst hre hok hclash
    have hbegun : (b.stream i).reopening = true := by rw [stream_setStream_same hlt]
    cases hcold : cold.isEmpty with
    | true =>
      have hg : g = b := if_pos hcold
      have hbody : streamOpenBody d a = t.opened i d := by
        simp only [t, k, old, hg]
        exact hb.trans ((if_pos hcold).trans (streamOpenGrant_reopening hbegun))
      exact exec_done rfl hr hbody
    | false =>
      have hwait : ¬cold.isEmpty = true := by simp [hcold]
      have hgranted : GrantedNow b 0 (400 * cold.length) d.waitForPower := hgrant.resolve_left fun h => by simp [h] at hwait
      have hg : g = withGrant b (.lanes i) (400 * cold.length) := if_neg hwait
      obtain ⟨held, hstream⟩ := withGrant_stream (s := b) hlt (400 * cold.length)
      have hgrown : (g.stream i).reopening = true := by
        rw [hg, hstream]
        exact hbegun
      exact exec_granted rfl hr (hb.trans (if_neg hwait)) rfl hgranted
        (hg ▸ streamOpenGrant_reopening hgrown)
  case free =>
    intro d s hr a i hclean hflags hunused hfree
    exact exec_done rfl hr (streamCloseBody_free hclean hflags hunused hfree)
  case hold =>
    intro d s hr a i hclean hflags hunused hhold
    exact exec_done rfl hr (streamCloseBody_hold hclean hflags hunused hhold)
  case status =>
    intro d s hr a hclean hlen haddr hlanes hlink x u
    obtain ⟨last, hbody⟩ := streamStatusBody_ok (s := a) hclean hlen haddr
    have hlinkU : (u.hostPort (u.flightPort d.ring.val).val).linkUp = true := by
      simp only [u]
      split
      · exact hlink
      · exact hlink
    refine ⟨a.statusBlock x last, ?_, length_statusBlock last hlanes⟩
    rw [show (a.flightPort d.ring.val) = u.flightPort d.ring.val by simp only [u]; split <;> rfl]
    exact exec_done rfl hr (hbody.trans (result_linkUp hlinkU))

end Sys2Proof.Machine
end

section
/-! The stages of a lane's bring-up, their time-outs and the loss of a lane (R180–R185, R201, R204, R207), and the statement they
settle. -/

namespace Sys2Proof.Machine

variable {s : State} {lane : Fin 64} {info : LaneInfo} {cause : Fin 4} {i l : Nat}

/-! ### Stages -/

/-- The end of a lane's present stage in a stream that is brought up or retried: what `execLaneStageComplete` does there (R180). -/
def State.endStage (s : State) (i l : Nat) (info : LaneInfo) : State :=
  match (s.lane l).stage with
  | 1 => s.setLane l fun y => { y with sigDet := true, stage := 2 }
  | 2 => s.setLane l fun y => { y with cdrLock := true, stage := 3 }
  | 3 => (s.adapt l).setLane l fun y => { y with adapted := true, stage := 4 }
  | 4 => s.setLane l fun y => { y with blockLock := true, stage := 5 }
  | 5 => s.setLane l fun y => { y with
      marker := info.inverted, polInverted := if y.cfg.getLsbD 31 then info.inverted else y.cfg.getLsbD 30, stage := 6 }
  | 6 => if (s.lane l).marker == (s.lane l).polInverted then s.setLane l (stage7 (s.stream i).par.discover) else s
  | 7 => if (s.lane l).order.isNone then s.readOrder i l info else s.setLane l fun y => { y with stage := 8 }
  | 8 => s.deskew i l info.skewPs
  | _ => s

theorem exec_laneStageComplete (hl : s.laneStream lane.val = some i) (hr : (s.stream i).rising = true) :
    exec (.laneStageComplete lane info) s = .next (s.endStage i lane.val info) := by
  simp only [exec, execLaneStageComplete, hl, hr, Bool.not_true, Bool.false_eq_true, if_false]
  rfl

/-- A number that fits, in range and read by no other lane of the stream is the lane's (R183). -/
theorem readOrder_fits (hfits : info.orderFits = true) (hlt : info.logical < (s.stream i).par.l)
    (hnew : ∀ y ∈ (s.stream i).lanes, y ≠ l → (s.lane y).order ≠ some info.logical) :
    s.readOrder i l info =
      let u := s.setLane l fun y => { y with order := some info.logical }
      u.setStream i fun x => x.reorder u := by
  have htaken : ((s.stream i).lanes.any fun y => y != l && (s.lane y).order == some info.logical) = false := by
    rw [List.any_eq_false]
    intro y hy
    by_cases hyl : y = l
    · simp [hyl]
    · simp [hnew y hy hyl]
  simp only [State.readOrder, htaken, hfits, Nat.not_le.2 hlt, Bool.not_true, decide_false, Bool.or_self, Bool.false_eq_true, if_false]

/-- At stage 8, with every lane of the stream there, the skew decides (R185). -/
theorem deskew_allThere {skewPs : Nat} (hpll : s.pllOk = true) (hfirst : (s.stream i).deskewed = false)
    (hall : ∀ y ∈ (s.stream i).lanes, (s.lane y).stage = 8) :
    s.deskew i l skewPs =
      let u := s.setStream i fun x => { x with skewPs := skewPs }
      if skewPs ≤ 48000 then u.setStream i fun x => { x with deskewed := true, lemc0 := some (x.lemc0.getD s.time.run) }
      else (u.laneFault i l 6 8 (skewPs / 1000)).restartAll i := by
  have hthere : ((s.stream i).lanes.all fun y => (s.lane y).stage == 8) = true := by simpa using hall
  simp only [State.deskew, hpll, hfirst, hthere, Bool.not_true, Bool.or_self, Bool.false_eq_true, if_false, setStream_parts]
  by_cases hskew : skewPs ≤ 48000
  · rw [if_neg (Nat.not_lt.2 hskew), if_pos hskew]
  · rw [if_pos (Nat.not_le.1 hskew), if_neg hskew]

/-! ### Time-outs and losses -/

/-- A lane's stage has a limit, which runs: stages 2 to 6; stage 7 until the lane's number is known; stage 8 when every lane is there (R181,
R184). -/
def State.limited (s : State) (i l : Nat) : Prop :=
  2 ≤ (s.lane l).stage ∧ ((s.lane l).stage ≤ 6 ∨ (s.lane l).stage = 7 ∧ (s.lane l).order = none ∨
    (s.lane l).stage = 8 ∧ (s.stream i).deskewed = false ∧ s.pllOk = true ∧ ∀ y ∈ (s.stream i).lanes, (s.lane y).stage = 8)

/-- LANE_FAULT 0 with the lane's stage, and the lane's restart (R181, R201, R204). -/
def State.stageFault (s : State) (i l : Nat) : State :=
  (s.freeTake.2.laneFault i l 0 (s.lane l).stage s.freeTake.1.toNat).restartLane i l

theorem exec_laneStageTimeout (hl : s.laneStream lane.val = some i) (hr : (s.stream i).rising = true) (hlim : s.limited i lane.val) :
    exec (.laneStageTimeout lane) s = .next (s.stageFault i lane.val) := by
  have hguard : (inR (s.lane lane.val).stage 2 6 || ((s.lane lane.val).stage == 7 && (s.lane lane.val).order.isNone) ||
      ((s.lane lane.val).stage == 8 && !(s.stream i).deskewed && s.pllOk && (s.stream i).lanes.all fun y => (s.lane y).stage == 8)) = true := by
    obtain ⟨hlow, hhigh | ⟨hseven, hnone⟩ | ⟨height, hfirst, hpll, hall⟩⟩ := hlim
    · simp [inR, hlow, hhigh]
    · simp [hseven, hnone]
    · simp only [height, hfirst, hpll, beq_self_eq_true, Bool.not_false, Bool.and_self, Bool.true_and, Bool.or_eq_true, List.all_eq_true,
        beq_iff_eq]
      exact .inr hall
  simp only [exec, execLaneStageTimeout, hl, hr, hguard, Bool.and_self, if_true]
  rfl

/-- A warm lane without block lock adapts cold from stage 2 (R207; that it keeps signal detect is log entry 65). -/
theorem exec_laneColdRestart (hwarm : (s.lane lane.val).warm = true) (hlow : 2 ≤ (s.lane lane.val).stage) (hhigh : (s.lane lane.val).stage ≤ 4) :
    exec (.laneColdRestart lane) s = .next
      (s.setLane lane.val fun y => { y with warm := false, cdrLock := false, adapted := false, stage := 2 }) := by
  simp only [exec, execLaneColdRestart, hwarm, inR, hlow, hhigh, decide_true, Bool.and_self, if_true]

/-- In bring-up the lane alone restarts (R201, log entry 66). -/
theorem exec_laneLockLoss_rising (hl : s.laneStream lane.val = some i) (hr : (s.stream i).rising = true)
    (hstage : (s.lane lane.val).stage ≠ 0) (hcause : cause.val ≠ 3) :
    exec (.laneLockLoss lane cause) s = .next (s.stageFault i lane.val) := by
  have hnotUp : (s.stream i).st ≠ .up := by
    intro hup
    simp [Stream.rising, hup] at hr
  have hguard : ((s.stream i).rising && (s.lane lane.val).stage != 0 && cause.val != 3) = true := by simp [hr, hstage, hcause]
  simp only [exec, execLaneLockLoss, hl, hnotUp, hguard, if_false, if_true]
  rfl

/-! ### The statement -/

/-- Settles O34: one clause for each stage that ends, then the time-outs, the cold restart and the two kinds of loss. -/
theorem laneBringUpRows : Obligations.LaneBringUpRows := by
  unfold Obligations.LaneBringUpRows
  refine ⟨?stages, ?strange, ?timeout, ?cold, ?lossUp, ?lossRising⟩
  case stages =>
    intro lane info i s hl hr
    have ends {t : State} (h : s.endStage i lane.val info = t) : exec (.laneStageComplete lane info) s = .next t := by
      rw [exec_laneStageComplete hl hr, h]
    refine ⟨?signal, ?cdr, ?equaliser, ?blocks, ?polarity, ?marker, ?noMarker, ?number, ?patternEnd, ?skew⟩
    case signal => exact fun h => ends (by simp only [State.endStage, h])
    case cdr => exact fun h => ends (by simp only [State.endStage, h])
    case equaliser => exact fun h => ends (by simp only [State.endStage, h])
    case blocks => exact fun h => ends (by simp only [State.endStage, h])
    case polarity => exact fun h => ends (by simp only [State.endStage, h])
    case marker =>
      intro h hpol
      refine ends ?_
      simp only [State.endStage, h, hpol, beq_self_eq_true, if_true]
      rfl
    case noMarker =>
      intro h hpol
      exact ends (by simp only [State.endStage, h, beq_eq_false_iff_ne.2 hpol, Bool.false_eq_true, if_false])
    case number =>
      intro h hnone hfits hlt hnew u
      refine ends ?_
      simp only [State.endStage, h, hnone, Option.isNone_none, if_true]
      exact readOrder_fits hfits hlt hnew
    case patternEnd =>
      intro h hread
      exact ends (by simp only [State.endStage, h, Option.isNone_eq_false_iff.2 (Option.isSome_iff_ne_none.2 hread), Bool.false_eq_true, if_false])
    case skew =>
      intro h hpll hfirst hall u
      refine ends ?_
      simp only [State.endStage, h]
      exact deskew_allThere hpll hfirst hall
  case strange =>
    intro lane info s hnone
    exact ⟨by simp only [exec, execLaneStageComplete, hnone], by simp only [exec, execLaneStageTimeout, hnone]⟩
  case timeout => exact fun lane i s hl hr hlow hhigh => exec_laneStageTimeout hl hr ⟨hlow, hhigh⟩
  case cold => exact fun lane s hwarm hlow hhigh => exec_laneColdRestart hwarm hlow hhigh
  case lossUp =>
    intro lane cause i s hl hup
    simp only [exec, execLaneLockLoss, hl, hup, if_true]
  case lossRising => exact fun lane cause i s hl hr hstage hcause => exec_laneLockLoss_rising hl hr hstage hcause

end Sys2Proof.Machine
end

section
/-! Release, multiblocks and the eye scan (R175, R176, R187, R188, R198–R202), and the statement they settle. -/

namespace Sys2Proof.Machine

variable {s : State} {i : Fin 32} {latest : Fin 64} {mb : Multiblock}

/-! ### Release -/

/-- At the release point a deskewed stream is released when its latest lane has arrived, and else the episode's first late lane is reported
(R187). -/
theorem exec_releasePoint {ns : Int} {sub : Fin 1000} (hr : (s.stream i.val).rising = true) (hd : (s.stream i.val).deskewed = true)
    (hpll : s.pllOk = true) :
    let ps := ns * 1000 + (sub.val : Int)
    let edge := (s.stream i.val).releaseEdge s.time.run
    let u := s.untilTb (s.time.tb + (edge.2 - s.time.run))
    exec (.releasePoint i latest ns sub) s = .next (
      if (s.stream i.val).par.inTime ps then u.release i.val latest.val edge.1 ps
      else if (s.stream i.val).lateEpisode then u
      else (u.laneFault i.val latest.val 3 9 (twos 32 ns)).setStream i.val fun x => { x with lateEpisode := true }) := by
  simp only [exec, execReleasePoint, hr, hd, hpll, Bool.and_self, Bool.not_true, Bool.false_eq_true, if_false]

/-- A stream that was never UP counts its indices from this release (R149, R202). -/
theorem basisNow_first {i : Nat} (ps : Int) (hnever : (s.stream i).everUp = false)
    (hloss : s.time.afterLoss.getLsbD (s.stream i).par.group.val = false) : s.basisNow i ps = 0 := by
  simp only [State.basisNow, hnever, hloss, Bool.not_false, Bool.false_eq_true, if_false, if_true]

/-- The stream after such a release: UP, with index 0 at the release's LEMC edge. -/
theorem release_first (edge : Nat) (ps : Int) (hnever : (s.stream i.val).everUp = false)
    (hloss : s.time.afterLoss.getLsbD (s.stream i.val).par.group.val = false) :
    let x := (s.release i.val latest.val edge ps).stream i.val
    x.st = .up ∧ x.basis = 0 ∧ x.next = some 0 ∧ x.t0 = s.time.tb ∧ x.zeroEdge = edge ∧ x.everUp = true := by
  have hbasis := basisNow_first ps hnever hloss
  have htime (c : Bool) (t : State) (v : Nat) : (if c then t.laneFault i.val latest.val 2 9 v else t).time = t.time := by
    cases c <;> simp [State.laneFault]
  simp [State.release, hbasis, stream_setStream_same i.isLt, htime]

/-! ### Multiblocks -/

theorem exec_multiblockReceived_unused (hst : (s.stream i.val).st.runs = false) : exec (.multiblockReceived i mb) s = .next s := by
  simp only [exec, execMultiblockReceived, hst, Bool.not_false, if_true]

/-- A multiblock of a stream in bring-up or DOWN is counted, and its lanes go on adapting (R168, R199). -/
theorem exec_multiblockReceived_rising (hruns : (s.stream i.val).st.runs = true) (hst : (s.stream i.val).st ≠ .up) :
    exec (.multiblockReceived i mb) s = .next ((s.countMultiblock i.val mb).adaptAll i.val) := by
  simp only [exec, execMultiblockReceived, hruns, hst, Bool.not_true, Bool.false_eq_true, if_false, ne_eq, not_false_eq_true, if_true]

/-- An UP stream hands on the samples besides (R198, R200). -/
theorem exec_multiblockReceived_up (hst : (s.stream i.val).st = .up) :
    let u := (s.countMultiblock i.val mb).adaptAll i.val
    let gap := mb.fifoErr || mb.failed.any fun l => (s.stream i.val).lanes.contains l.val
    let slots := mb.slots.take (s.stream i.val).par.period
    let w := if mb.fifoErr then u.sramFault 0x17 0 else u
    exec (.multiblockReceived i mb) s = .next (slots.foldl (fun s v => s.streamSample i.val v gap)
      (w.setStream i.val fun x => (x.begins w.time.run mb.arrivalPs).tally slots gap)) := by
  have hruns : (s.stream i.val).st.runs = true := by rw [hst]; rfl
  simp only [exec, execMultiblockReceived, hruns, Bool.not_true, Bool.false_eq_true, if_false]
  simp only [hst, ne_eq, not_true_eq_false, if_false]

/-! ### The statement -/

/-- Settles O35: the release, the multiblock of a stream by its state, the eye scan by the counts it brings. -/
theorem streamDataRows : Obligations.StreamDataRows := by
  unfold Obligations.StreamDataRows
  refine ⟨?release, ?first, fun i mb s => exec_multiblockReceived_unused, ?multiblock, ?scan, ?misfit⟩
  case release =>
    intro i latest ns sub s hr hd hpll ps edge u
    have hexec := exec_releasePoint (latest := latest) (ns := ns) (sub := sub) hr hd hpll
    refine ⟨?inTime, ?late, ?again⟩
    case inTime => exact fun h => hexec.trans (congrArg Host.Outcome.next (if_pos h))
    case late =>
      intro h hfirst
      exact hexec.trans (congrArg Host.Outcome.next ((if_neg (Bool.eq_false_iff.1 h)).trans (if_neg (Bool.eq_false_iff.1 hfirst))))
    case again =>
      intro h hepisode
      exact hexec.trans (congrArg Host.Outcome.next ((if_neg (Bool.eq_false_iff.1 h)).trans (if_pos hepisode)))
  case first => exact fun i latest ps edge s hnever hloss => release_first edge ps hnever hloss
  case multiblock => exact fun i mb s hruns => ⟨exec_multiblockReceived_rising hruns, exec_multiblockReceived_up⟩
  case scan =>
    intro counts s hlength hbusy
    simp only [exec, execEyeScanDone, hlength, hbusy, ne_eq, not_true_eq_false, if_false, if_true]
  case misfit =>
    intro counts s hlength
    simp only [exec, execEyeScanDone, hlength, ne_eq, not_false_eq_true, if_true]

end Sys2Proof.Machine
end

section
/-! SUPPORT. Updates of one channel, and commands that read a host buffer (R65). -/

namespace Sys2Proof.Machine

variable {op : Op} {d : Desc} {s : State} {ch : Nat}

/-! ### Updates of a channel -/

/-- A fold whose steps change nothing changes nothing. -/
theorem foldl_unchanged {α β : Type} {f : β → α → β} {l : List α} {b : β} (h : ∀ a ∈ l, f b a = b) : l.foldl f b = b :=
  List.foldlRecOn (motive := fun x => x = b) l f rfl fun x hx a ha => by rw [hx]; exact h a ha

/-- An update of a channel depends on its function's value at that channel alone. -/
theorem setChan_congr {f g : Chan → Chan} (h : f (s.chan ch) = g (s.chan ch)) : s.setChan ch f = s.setChan ch g := by
  rw [State.setChan, upd_congr (d := .reset) h, State.setChan]

/-- Two updates of a channel are one. -/
theorem setChan_setChan {f g : Chan → Chan} : (s.setChan ch f).setChan ch g = s.setChan ch fun c => g (f c) := by
  simp only [State.setChan, upd_upd]

/-- A channel of the part after its own update. -/
theorem chan_setChan_same (hch : ch < 128) {f : Chan → Chan} : (s.setChan ch f).chan ch = f (s.chan ch) := nth_upd_same hch

/-! ### Host buffers -/

/-- A ring after a change of its command in flight. -/
theorem cmdRing_setInflight {r : Nat} (hr : r < 16) {f : Option Inflight → Option Inflight} :
    (s.setInflight r f).cmdRing r = { s.cmdRing r with inflight := f (s.cmdRing r).inflight } := nth_upd_same hr

/-- A state whose command in flight waits for `len` bytes at `addr` with its request sent through port p (R65). -/
def State.bufferAsked (s : State) (d : Desc) (p : Fin 2) (addr len : Nat) : State :=
  let w := s.setInflight d.ring.val (Option.map fun f => { f with stage := .hostRead, handle := d.handle, asks := (addr, len) })
  { w with io := (w.io.leaveL1 p.val).emit (.hostRead p addr len) }

/-- The request for the buffer of a command in flight goes out at once while its port's link is up. -/
theorem askBuffer_linkUp {r : Nat} {f : Inflight} (hf : (s.cmdRing r).inflight = some f) (hlink : (s.hostPort (s.flightPort r).val).linkUp = true) :
    s.askBuffer r = { s with io := (s.io.leaveL1 (s.flightPort r).val).emit (.hostRead (s.flightPort r) f.asks.1 f.asks.2) } := by
  rw [State.hostPort] at hlink
  simp only [State.askBuffer, hf, hlink, if_true]

/-- What a body that asks for a host buffer settles to. -/
theorem settle_readBuffer {addr len : Nat} {s0 b : State} {f : Inflight} (hf : (b.cmdRing d.ring.val).inflight = some f)
    (hlink : (b.hostPort (b.flightPort d.ring.val).val).linkUp = true) :
    settle d.ring.val s0 (readBuffer d addr len b) = b.bufferAsked d (b.flightPort d.ring.val) addr len := by
  have hring := cmdRing_setInflight (s := b) d.ring.isLt (f := Option.map fun f => { f with asks := (addr, len) })
  have hport : (b.setInflight d.ring.val (Option.map fun f => { f with asks := (addr, len) })).flightPort d.ring.val = b.flightPort d.ring.val := by
    simp only [State.flightPort, hring, hf, Option.map_some]
  have hask := askBuffer_linkUp (s := b.setInflight d.ring.val (Option.map fun f => { f with asks := (addr, len) })) (r := d.ring.val)
    (f := { f with asks := (addr, len) }) (by rw [hring, hf]; rfl) (by rw [hport]; exact hlink)
  rw [readBuffer, hask, hport]
  simp only [settle, State.bufferAsked, State.setInflight, Io.leaveL1, Io.emit, upd_upd, Option.map_map]
  rfl

/-- A ready command whose body asks for a host buffer, with the control path left alone up to that, waits for the buffer. -/
theorem exec_readBuffer {addr len : Nat} {b : State} (hop : Op.ofCode op.code = op) (hr : Ready op d s)
    (hb : bodyOf op d (accepted op d s) = readBuffer d addr len b) (hio : b.io = (accepted op d s).io)
    (hlink : ((accepted op d s).hostPort ((accepted op d s).flightPort d.ring.val).val).linkUp = true) :
    exec (ringInstr op d) s = .next (b.bufferAsked d ((accepted op d s).flightPort d.ring.val) addr len) := by
  obtain ⟨f, hf, -⟩ := accepted_inflight op d s
  have hport : b.flightPort d.ring.val = (accepted op d s).flightPort d.ring.val := by
    simp only [State.flightPort, State.cmdRing, hio]
  have hfb : (b.cmdRing d.ring.val).inflight = some f := by
    rw [State.cmdRing, hio]
    exact hf
  have hlinkb : (b.hostPort (b.flightPort d.ring.val).val).linkUp = true := by
    rw [hport, State.hostPort, hio]
    exact hlink
  rw [exec_ready hop hr, hb, settle_readBuffer hfb hlinkb, hport]

end Sys2Proof.Machine
end

section
/-! CHAN_TUNE, CHAN_FILTER, CHAN_SPECTRAL and CHAN_PRODUCTS (R224–R227, R236, R245, R289, R318), and the statement they settle. -/

namespace Sys2Proof.Machine

variable {d : Desc} {s : State} {p : SpecSet}

/-! ### CHAN_TUNE -/

/-- A word without an index, on a channel that is not RUNNING, takes effect at once (R224). -/
theorem chanTuneBody_idle (hclean : d.clean [(0x08, 6), (0x10, 9)] = true) (hflags : d.u 0x18 1 ≤ 1)
    (hdrain : (s.chan (hIdx d.handle)).st ≠ .draining) (hrun : (s.chan (hIdx d.handle)).st ≠ .running) (hat : dBit d 0x18 0 = false) :
    chanTuneBody d s = .done .ok (b2n (s.chan (hIdx d.handle)).tune.isSome) 0 d.handle
      (s.setChan (hIdx d.handle) fun c => { c with nco := dInt d 0x08 6, tune := none, tuneQ := [] }) := by
  simp only [chanTuneBody, hclean, Nat.not_lt.2 hflags, hdrain, hrun, hat, Bool.not_true, decide_false, Bool.or_self, Bool.false_and,
    Bool.false_eq_true, if_false]

/-- On a RUNNING channel it joins the words for the next input (R225). -/
theorem chanTuneBody_running (hclean : d.clean [(0x08, 6), (0x10, 9)] = true) (hflags : d.u 0x18 1 ≤ 1)
    (hrun : (s.chan (hIdx d.handle)).st = .running) (hat : dBit d 0x18 0 = false) :
    let now := (s.stream (s.chan (hIdx d.handle)).stream).next.getD 0
    chanTuneBody d s = .done .ok (b2n (s.chan (hIdx d.handle)).tune.isSome) (now % 2 ^ 32) d.handle
      (s.setChan (hIdx d.handle) fun c => { c with tune := none, tuneQ := c.tuneQ ++ [(dInt d 0x08 6, now)] }) := by
  simp only [chanTuneBody, hclean, Nat.not_lt.2 hflags, hrun, hat, Bool.not_true, decide_false, Bool.or_self, Bool.false_and,
    Bool.false_eq_true, reduceCtorEq, if_false, if_true]

/-- A word with an index becomes the pending one; a RUNNING channel's index is not passed and less than 2^40 ahead (R225, R226). -/
theorem chanTuneBody_atIndex (hclean : d.clean [(0x08, 6), (0x10, 9)] = true) (hflags : d.u 0x18 1 ≤ 1)
    (hdrain : (s.chan (hIdx d.handle)).st ≠ .draining) (hat : dBit d 0x18 0 = true)
    (hahead : (s.chan (hIdx d.handle)).st = .running → (s.stream (s.chan (hIdx d.handle)).stream).next.getD 0 ≤ d.u 0x10 8 ∧
      d.u 0x10 8 < 2 ^ 40 + (s.stream (s.chan (hIdx d.handle)).stream).next.getD 0) :
    chanTuneBody d s = .done .ok (b2n (s.chan (hIdx d.handle)).tune.isSome) 0 d.handle
      (s.setChan (hIdx d.handle) fun c => { c with tune := some (dInt d 0x08 6, d.u 0x10 8) }) := by
  have hok : (decide ((s.chan (hIdx d.handle)).st = .running) && (decide (d.u 0x10 8 < (s.stream (s.chan (hIdx d.handle)).stream).next.getD 0) ||
      decide (2 ^ 40 + (s.stream (s.chan (hIdx d.handle)).stream).next.getD 0 ≤ d.u 0x10 8))) = false := by
    by_cases hrun : (s.chan (hIdx d.handle)).st = .running
    · obtain ⟨hlo, hhi⟩ := hahead hrun
      simp only [Nat.not_lt.2 hlo, Nat.not_le.2 hhi, decide_false, Bool.or_self, Bool.and_false]
    · simp [hrun]
  simp only [chanTuneBody, hclean, Nat.not_lt.2 hflags, hdrain, hat, hok, Bool.not_true, decide_false, Bool.or_self, Bool.true_and,
    Bool.false_eq_true, if_false, if_true]

/-! ### CHAN_FILTER -/

theorem chanFilterBody_rom (hst : (s.chan (hIdx d.handle)).st = .stopped)
    (hok : feOk (s.stream (s.chan (hIdx d.handle)).stream).par.fs d = true) (hclaim : filterClaim d s = .ok p) (hrom : d.u 0x09 1 ≠ 0x3F) :
    chanFilterBody d s = chanFilterSet d p [] s := by
  simp only [chanFilterBody, hst, hok, hclaim, hrom, ne_eq, not_true_eq_false, Bool.not_true, Bool.false_eq_true, if_false]

theorem chanFilterBody_user (hst : (s.chan (hIdx d.handle)).st = .stopped)
    (hok : feOk (s.stream (s.chan (hIdx d.handle)).stream).par.fs d = true) (hclaim : filterClaim d s = .ok p) (huser : d.u 0x09 1 = 0x3F) :
    chanFilterBody d s = readBuffer d (d.u 0x20 8) (4 * d.u 0x28 2)
      (s.addClaim (hIdx d.handle) ⟨d.ring.val, p, (feOf d []).d, (feOf d []).detRegion⟩) := by
  simp only [chanFilterBody, hst, hok, hclaim, huser, ne_eq, not_true_eq_false, Bool.not_true, Bool.false_eq_true, if_false, if_true]

/-! ### CHAN_SPECTRAL -/

theorem chanSpectralBody_off (hst : (s.chan (hIdx d.handle)).st = .stopped) (hoff : d.u 0x08 1 = 0) (hclean : d.clean [(0x08, 20)] = true)
    (hfree : s.hasConsumers (hIdx d.handle) = false) :
    chanSpectralBody d s = .done .ok 0 0 d.handle (s.setTransform (hIdx d.handle) d.ring.val .off) := by
  simp only [chanSpectralBody, hst, hoff, hclean, hfree, ne_eq, not_true_eq_false, Bool.not_true, Bool.false_eq_true, if_false, if_true]

theorem chanSpectralBody_rom (hst : (s.chan (hIdx d.handle)).st = .stopped) (hon : d.u 0x08 1 ≠ 0) (hok : specOk s d = true)
    (hclaim : spectralClaim d s = .ok p) (hrom : ¬(d.u 0x08 1 = 1 ∧ d.u 0x0B 1 = 0x3F)) :
    chanSpectralBody d s = chanSpectralSet d p [] s := by
  have hrom : (decide (d.u 0x08 1 = 1) && decide (d.u 0x0B 1 = 0x3F)) = false := by simpa using hrom
  simp only [chanSpectralBody, hst, hon, hok, hclaim, hrom, ne_eq, not_true_eq_false, Bool.not_true, Bool.false_eq_true, if_false]

theorem chanSpectralBody_user (hst : (s.chan (hIdx d.handle)).st = .stopped) (hok : specOk s d = true)
    (hclaim : spectralClaim d s = .ok p) (huser : d.u 0x08 1 = 1 ∧ d.u 0x0B 1 = 0x3F) :
    chanSpectralBody d s = readBuffer d (d.u 0x10 8) (4 * d.u 0x18 4)
      (s.addClaim (hIdx d.handle) ⟨d.ring.val, p, (s.chan (hIdx d.handle)).fe.d, (s.chan (hIdx d.handle)).fe.detRegion⟩) := by
  obtain ⟨htype, hwin⟩ := huser
  simp only [chanSpectralBody, hst, htype, hwin, hok, hclaim, ne_eq, not_true_eq_false, Bool.not_true, Bool.false_eq_true, decide_true,
    Bool.and_self, one_ne_zero, if_false, if_true]

/-! ### CHAN_PRODUCTS -/

theorem chanProductsBody_on (hst : (s.chan (hIdx d.handle)).st = .stopped) (htype : (s.chan (hIdx d.handle)).sp.type ≠ 0)
    (hpartner : (prodOf d).partner ≠ 0 → s.valid 2 (prodOf d).partner = true) (hok : prodOk s (hIdx d.handle) d = true)
    (hmask : (prodOf d).mask ≠ 0) (hstore : (prodOf d).store + s.storeTaken (hIdx d.handle) ≤ 2 ^ 26)
    (hpairs : ((prodOf d).mask.getLsbD 5 || (prodOf d).mask.getLsbD 6) = true →
      ((List.range 128).filter fun i => i != hIdx d.handle && (s.chan i).isX).length < 64) :
    chanProductsBody d s = .done .ok (min 65535 (ceilDiv (prodOf d).store 1024)) ((prodOf d).bins / 2 ^ (prodOf d).b) d.handle
      (s.setChan (hIdx d.handle) fun c => { c.clearProducts with pr := prodOf d }) := by
  have hhandle : (decide ((prodOf d).partner ≠ 0) && !s.valid 2 (prodOf d).partner) = false := by simpa using hpartner
  have hroom : (decide (2 ^ 26 < (prodOf d).store + s.storeTaken (hIdx d.handle)) ||
      (((prodOf d).mask.getLsbD 5 || (prodOf d).mask.getLsbD 6) &&
        decide (64 ≤ ((List.range 128).filter fun i => i != hIdx d.handle && (s.chan i).isX).length))) = false := by
    simp only [Nat.not_lt.2 hstore, decide_false, Bool.false_or, Bool.and_eq_false_imp, decide_eq_false_iff_not, Nat.not_le]
    exact hpairs
  simp only [chanProductsBody, hst, htype, hhandle, hok, hmask, hroom, ne_eq, not_true_eq_false, Bool.not_true, decide_false, Bool.and_false,
    Bool.false_eq_true, if_false]

theorem chanProductsBody_off (hst : (s.chan (hIdx d.handle)).st = .stopped) (hoff : d.u 0x08 2 = 0) (hpartner : (prodOf d).partner = 0)
    (hok : prodOk s (hIdx d.handle) d = true) :
    chanProductsBody d s = .done .ok 0 0 d.handle (s.setChan (hIdx d.handle) fun c => { c.clearProducts with pr := .off }) := by
  have hmask : (prodOf d).mask = 0 := by simp only [prodOf, hoff]; rfl
  simp only [chanProductsBody, hst, hoff, hpartner, hok, hmask, ne_eq, not_true_eq_false, Bool.not_true, decide_false, Bool.false_and,
    Bool.false_eq_true, if_false, if_true]

/-! ### The statement -/

/-- A channel's new transform, its next filter generation, and the claims of other rings' commands (R36, R247, R288). -/
theorem chan_setTransform (ch : Fin 128) (r : Nat) (p : SpecSet) : (s.setTransform ch.val r p).chan ch.val =
    { (s.chan ch.val).bump with sp := p, claims := (s.chan ch.val).claims.filter fun k => k.ring != r } :=
  chan_setChan_same ch.isLt

/-- Settles O37: each command passes its checks; those with a user buffer wait for it with their claim entered. -/
theorem channelSetUpCommands : Obligations.ChannelSetUpCommands := by
  unfold Obligations.ChannelSetUpCommands
  refine ⟨?tune, ?filter, ?spectralOff, ?spectralOn, ?transform, ?productsOn, ?productsOff⟩
  case tune =>
    intro d s hr hclean hflags a ch rep now
    refine ⟨fun hdrain hrun hat => ?_, fun hrun hat => ?_, fun hdrain hat hahead => ?_⟩
    · exact exec_done rfl hr (chanTuneBody_idle hclean hflags hdrain hrun hat)
    · exact exec_done rfl hr (chanTuneBody_running hclean hflags hrun hat)
    · exact exec_done rfl hr (chanTuneBody_atIndex hclean hflags hdrain hat hahead)
  case filter =>
    intro d p s hr a ch hst hok hclaim
    refine ⟨fun hrom => ?_, fun huser hlink => ?_⟩
    · exact exec_done rfl hr (chanFilterBody_rom hst hok hclaim hrom)
    · exact exec_readBuffer rfl hr (chanFilterBody_user hst hok hclaim huser) rfl hlink
  case spectralOff =>
    intro d s hr a ch hst hoff hclean hfree
    exact exec_done rfl hr (chanSpectralBody_off hst hoff hclean hfree)
  case spectralOn =>
    intro d p s hr a ch hst hon hok hclaim user q use
    refine ⟨fun hrom => ?_, fun huser hlink => ?_⟩
    · exact exec_done rfl hr (chanSpectralBody_rom hst hon hok hclaim hrom)
    · exact exec_readBuffer rfl hr (chanSpectralBody_user hst hok hclaim huser) rfl hlink
  case transform =>
    intro ch r p s c
    have hc := chan_setTransform (s := s) ch r p
    exact ⟨congrArg Chan.sp hc, congrArg Chan.fgen hc, congrArg Chan.claims hc⟩
  case productsOn =>
    intro d s hr a ch p hst htype hpartner hok hmask hstore hpairs
    exact exec_done rfl hr (chanProductsBody_on hst htype hpartner hok hmask hstore hpairs)
  case productsOff =>
    intro d s hr a ch hst hoff hpartner hok
    exact exec_done rfl hr (chanProductsBody_off hst hoff hpartner hok)

end Sys2Proof.Machine
end

section
/-! The events of a channel's front end (R96, R215, R221, R222, R226, R243, R244, R252), and the statement they settle. -/

namespace Sys2Proof.Machine

variable {s : State} {ch : Nat} {c : Chan}

/-- A channel emits in two states (R96). -/
theorem emits_iff : c.emits = true ↔ c.st = .running ∨ c.st = .draining := by
  simp [Chan.emits]

/-! ### Outputs -/

theorem channelOutput_idle (h : (s.chan ch).dueIndex = none) : s.channelOutput ch = s := by
  simp only [State.channelOutput, h]

/-- An output that is due and has its inputs is finished, with the swaps that are due there applied, and sent on (R215, R240). -/
theorem channelOutput_due {x : Nat} {c' : Chan} {y : Smp} (hdue : (s.chan ch).dueIndex = some x)
    (hin : (s.chan ch).takeInputs x (s.chan ch).inq = (c', some y)) :
    let r := (c'.applyDue (s.chan ch).nextOut).finishOut (s.chan ch).nextOut y
    s.channelOutput ch = (s.setChan ch fun _ => r.1).emitOutput ch r.2 (0 < c'.fillLeft) := by
  simp only [State.channelOutput, hdue, hin]

/-- A channel that emits nothing has no output due. -/
theorem dueIndex_silent (h : c.emits = false) : c.dueIndex = none := by
  simp [Chan.dueIndex, h]

/-! ### Retunes -/

/-- The NCO word that a pending word sets at its own index, with no word of an earlier input left (R222, R226). -/
theorem retune_own {f : Int} {kr : Nat} (htune : c.tune = some (f, kr)) (hst : c.st = .running) (hq : c.tuneQ = []) :
    c.retune kr = { c with nco := f, tune := none, tuneFrom := some kr } := by
  have htunes : c.tunes kr kr = true := by simp [Chan.tunes, hst]
  simp only [Chan.retune, hq, List.filter_nil, List.getLast?_nil, htune, htunes, if_true]

theorem retuneApply_idle (i : Fin 128) (h : (s.chan i.val).tune = none ∨ (s.chan i.val).st ≠ .running) : execRetuneApply i s = .next s := by
  obtain hnone | hst := h
  · simp only [execRetuneApply, hnone]
  · cases htune : (s.chan i.val).tune with
    | none => simp only [execRetuneApply, htune]
    | some w => simp only [execRetuneApply, htune, hst, decide_false, Bool.false_and, Bool.false_eq_true, if_false]

/-- A pending word whose index has been passed, with no output due before it and no input waiting, takes effect at its index (R222). -/
theorem retuneApply_passed {f : Int} {kr n : Nat} (i : Fin 128) (htune : (s.chan i.val).tune = some (f, kr)) (hst : (s.chan i.val).st = .running)
    (hnext : (s.stream (s.chan i.val).stream).next = some n) (hpast : kr < n) (hdue : ∀ x, (s.chan i.val).dueIndex = some x → kr ≤ x)
    (hin : (s.chan i.val).inq = []) (hq : (s.chan i.val).tuneQ = []) :
    execRetuneApply i s = .next (s.setChan i.val fun c => { c with inq := [], nco := f, tune := none, tuneFrom := some kr }) := by
  have hdue : ((s.chan i.val).dueIndex.all fun x => decide (kr ≤ x)) = true := by simpa [Option.all_eq_true] using hdue
  have htaken : (execRetuneApply.takeBefore kr (s.chan i.val).inq (s.chan i.val)).retune kr =
      { s.chan i.val with inq := [], nco := f, tune := none, tuneFrom := some kr } := by
    rw [hin]
    exact retune_own (c := { s.chan i.val with inq := [] }) htune hst hq
  simp only [execRetuneApply, htune, hst, hnext, hdue, hpast, Option.any_some, decide_true, Bool.and_self, if_true]
  exact congrArg Host.Outcome.next (setChan_congr htaken)

/-! ### Detector windows -/

theorem windowEnd_idle (h : (s.chan ch).det.res = none) : s.windowEnd ch = s := by
  simp only [State.windowEnd, h]

/-- A window's results join the open record, which they do not fill (R243, R244); no LEVEL condition looks at them. -/
theorem windowEnd_recorded {p ms r e : Nat} {w : Flags} {nco : Int} (hch : ch < 128) (hres : (s.chan ch).det.res = some (p, ms, r, e, w, nco))
    (hcond : ∀ l : Fin 4, (nth (s.chan ch).cond l.val .off).type ≠ 1) (hregion : s.valid 3 (s.chan ch).fe.detRegion = true)
    (hroom : (s.chan ch).det.buf.length < 255) :
    s.windowEnd ch = s.setChan ch fun c => { c with det := { c.det with
      res := none, bufFirst := if c.det.buf.isEmpty then c.det.lastJ else c.det.bufFirst
      bufNco := if c.det.buf.isEmpty then nco else c.det.bufNco
      buf := c.det.buf ++ [(p, ms, r, e)], bufFlags := c.det.bufFlags ||| w } } := by
  simp only [State.windowEnd, hres]
  rw [foldl_unchanged]
  · have hvalid (f : Chan → Chan) : (s.setChan ch f).valid 3 (s.chan ch).fe.detRegion = true := hregion
    have hshort : ¬256 ≤ ((s.chan ch).det.buf ++ [(p, ms, r, e)]).length := by
      rw [List.length_append, List.length_singleton]
      omega
    simp only [hvalid, if_true, setChan_setChan, chan_setChan_same hch, hshort, if_false]
  · intro l hl
    simp only [hcond ⟨l, List.mem_range.1 hl⟩, decide_false, Bool.false_and, Bool.false_eq_true, if_false]

/-! ### The statement -/

/-- Settles O38: each event that applies does what its rule says, any other leaves the state. -/
theorem frontEndRows : Obligations.FrontEndRows := by
  unfold Obligations.FrontEndRows
  refine ⟨?output, ?error, ?retune, ?retuneIdle, ?window, ?windowIdle, ?drained, ?drainIdle⟩
  case output =>
    intro ch x c' y s hdue hin r
    exact congrArg Host.Outcome.next (channelOutput_due hdue hin)
  case error =>
    intro ch s u
    refine ⟨fun hst => ?_, fun hst => ?_, fun hsilent err => ?_⟩
    · have hemits := emits_iff.2 (.inl hst)
      simp only [exec, execChannelOutput, hemits, hst, Bool.and_self, if_true, u]
    · have hemits := emits_iff.2 (.inr hst)
      simp only [exec, execChannelOutput, hemits, hst, Bool.and_self, if_true, reduceCtorEq, if_false, u]
    · simp only [exec, execChannelOutput, hsilent, Bool.and_false, Bool.false_eq_true, if_false, channelOutput_idle (dueIndex_silent hsilent)]
  case retune =>
    intro ch f kr n s htune hst hnext hpast hdue hin hq
    exact retuneApply_passed ch htune hst hnext hpast hdue hin hq
  case retuneIdle => exact fun ch s h => retuneApply_idle ch h
  case window =>
    intro ch p ms r e w nco s hres hcond hregion hroom
    exact congrArg Host.Outcome.next (windowEnd_recorded ch.isLt hres hcond hregion hroom)
  case windowIdle => exact fun ch s hres => congrArg Host.Outcome.next (windowEnd_idle hres)
  case drained =>
    intro ch s hst hdue hframe
    have hend : (decide ((s.chan ch.val).sp.type = 0) || ((s.chan ch.val).frameOf (s.chan ch.val).nextSpec).isNone) = true := by
      simpa using hframe
    simp only [exec, execChannelDrainDone, hst, hdue, hend, Option.isNone_none, decide_true, Bool.and_self, if_true]
  case drainIdle =>
    intro ch s hst
    simp only [exec, execChannelDrainDone, hst, decide_false, Bool.false_and, Bool.false_eq_true, if_false]

end Sys2Proof.Machine
end

section
/-! Spectra, swap boundaries and product boundaries (R240, R283, R284, R304, R307, R310, R313, R316), and the statement they settle. -/

namespace Sys2Proof.Machine

variable {s : State}

/-! ### The transform rows -/

/-- A channel that emits nothing, has a large transform or lacks a complete frame has no spectrum of an in-pipe transform (R258, R262). -/
theorem spectrumComplete_idle {ch : Fin 128} (err : Bool) (h : (s.chan ch.val).emits = false ∨ 17 ≤ (s.chan ch.val).sp.l ∨
    (s.chan ch.val).frameOf (s.chan ch.val).nextSpec = none) : execSpectrumComplete ch err s = .next s := by
  have hidle : (!(s.chan ch.val).emits || decide ((s.chan ch.val).sp.type = 0) || decide (17 ≤ (s.chan ch.val).sp.l) ||
      ((s.chan ch.val).frameOf (s.chan ch.val).nextSpec).isNone) = true := by
    obtain h | h | h := h <;> simp [h]
  simp only [execSpectrumComplete, hidle, if_true]

/-- A complete in-pipe frame goes after those that its pipe serves before it; an uncorrectable word of the pipe's store loses it (R258, R283). -/
theorem spectrumComplete_frame {ch : Fin 128} {f : List OutSmp} (err : Bool) (hemits : (s.chan ch.val).emits = true)
    (htype : (s.chan ch.val).sp.type ≠ 0) (hl : (s.chan ch.val).sp.l ≤ 16)
    (hframe : (s.chan ch.val).frameOf (s.chan ch.val).nextSpec = some f) :
    let p := (s.chan ch.val).sp.pipeOf (s.chan ch.val).nextSpec
    let u := State.serveAhead p ch.val s.outsWaiting s
    let e := ((u.sramFault 0x11 p).densTurn ch.val (s.chan ch.val).nextSpec).setChan ch.val fun c => { c with nextSpec := c.nextSpec + 1 }
    execSpectrumComplete ch err s =
      .next (if err then if (s.chan ch.val).st = .running then e.enterHalted ch.val 0 else e else u.frameDone ch.val []) := by
  have hl : ¬17 ≤ (s.chan ch.val).sp.l := by omega
  simp only [execSpectrumComplete, hemits, htype, hl, hframe, Bool.not_true, decide_false, Bool.or_self, Option.isNone_some,
    Bool.false_eq_true, if_false]

/-- Nor one of a large transform, when its transform is in-pipe instead. -/
theorem largeTransformComplete_idle {ch : Fin 128} (run : StoreRun) (h : (s.chan ch.val).emits = false ∨ (s.chan ch.val).sp.l < 17 ∨
    (s.chan ch.val).frameOf (s.chan ch.val).nextSpec = none) : execLargeTransformComplete ch run s = .next s := by
  have hidle : (!(s.chan ch.val).emits || decide ((s.chan ch.val).sp.type = 0) || decide ((s.chan ch.val).sp.l < 17) ||
      ((s.chan ch.val).frameOf (s.chan ch.val).nextSpec).isNone) = true := by
    obtain h | h | h := h <;> simp [h]
  simp only [execLargeTransformComplete, hidle, if_true]

/-- A complete frame of a large transform goes out, its working store's lost codewords and waits reported (R281, R284). -/
theorem largeTransformComplete_frame {ch : Fin 128} {f : List OutSmp} (run : StoreRun) (hemits : (s.chan ch.val).emits = true)
    (htype : (s.chan ch.val).sp.type ≠ 0) (hl : 17 ≤ (s.chan ch.val).sp.l)
    (hframe : (s.chan ch.val).frameOf (s.chan ch.val).nextSpec = some f) :
    let bad := run.lost.eraseDups.filter fun w => decide (w < 2 ^ (s.chan ch.val).sp.l / 4)
    execLargeTransformComplete ch run s =
      .next (((s.storeFaults (hIdx (s.chan ch.val).sp.region) 2 bad).overrun 2 run.waits).frameDone ch.val bad) := by
  simp only [execLargeTransformComplete, hemits, htype, Nat.not_lt.2 hl, hframe, Bool.not_true, decide_false, Bool.or_self,
    Option.isNone_some, Bool.false_eq_true, if_false]

/-- A frame with a FILL output is withheld where SUPPRESS_FILL asks for it: its outputs go, no spectrum leaves (R286). -/
theorem frameDone_withheld {ch : Nat} {lost : List Nat} {f : List OutSmp} (hframe : (s.chan ch).frameOf (s.chan ch).nextSpec = some f)
    (hsup : (s.chan ch).supFill = true) (hfill : (orAll (f.map (·.smp.flags))).has fFill = true) :
    s.frameDone ch lost = (s.densTurn ch (s.chan ch).nextSpec).setChan ch fun c =>
      { c with nextSpec := (s.chan ch).nextSpec + 1
               outs := c.outs.filter fun o => decide (((s.chan ch).nextSpec + 1) * c.sp.h ≤ o.j) } := by
  simp only [State.frameDone, hframe, hsup, hfill, Bool.and_self, if_true]

/-! ### Product boundaries -/

/-- A block whose spectra have all been emitted is closed, with the bins that its bank's read lost (R313, R316). -/
theorem skBlockEnd_over {ch : Fin 128} {lost : List Nat} {a : ProdAcc} (hsk : (s.chan ch.val).sk = some a)
    (hover : a.first + a.span ≤ (s.chan ch.val).nextSpec) :
    execSkBlockEnd ch lost s =
      .next ((s.setChan ch.val fun c => { c with bankErr := c.bankErr ++ lost.map fun b => (8, b) }).closeSk ch.val 0) := by
  have hover : a.over (s.chan ch.val).nextSpec = true := decide_eq_true hover
  simp only [execSkBlockEnd, hsk, Option.any_some, hover, if_true]
  rfl

theorem skBlockEnd_open {ch : Fin 128} (lost : List Nat)
    (h : ∀ a, (s.chan ch.val).sk = some a → (s.chan ch.val).nextSpec < a.first + a.span) : execSkBlockEnd ch lost s = .next s := by
  have hopen : ((s.chan ch.val).sk.any fun a => a.over (s.chan ch.val).nextSpec) = false := by
    simpa [ProdAcc.over, Option.any_eq_false] using h
  simp only [execSkBlockEnd, hopen, Bool.false_eq_true, if_false]

/-- With no spectrum in the calibration's queue, the oldest of the pairs' is dropped (R310). -/
theorem pairPartnerTimeout_pairs (ch : Fin 128) (hcal : (s.chan ch.val).cal.wait = []) :
    execPairPartnerTimeout ch s = .next (s.setChan ch.val fun c => { c with pairWait := c.pairWait.drop 1 }) := by
  have hhead : (s.chan ch.val).cal.wait.head? = none := by rw [hcal, List.head?_nil]
  refine congrArg Host.Outcome.next (setChan_congr ?_)
  cases (s.chan ch.val).pairWait with
  | nil => simp [hhead]
  | cons p ps => simp [hhead]

/-- With none in the pairs' queue, the oldest of the calibration's is dropped (R338). -/
theorem pairPartnerTimeout_calibration (ch : Fin 128) (hpair : (s.chan ch.val).pairWait = []) :
    execPairPartnerTimeout ch s = .next (s.setChan ch.val fun c => { c with cal := { c.cal with wait := c.cal.wait.drop 1 } }) := by
  have hhead : (s.chan ch.val).pairWait.head? = none := by rw [hpair, List.head?_nil]
  refine congrArg Host.Outcome.next (setChan_congr ?_)
  cases (s.chan ch.val).cal.wait with
  | nil => simp [hhead]
  | cons a cs => simp [hhead]

/-- With one in each, the older spectrum is dropped, from both queues when it waits in both. -/
theorem pairPartnerTimeout_both (ch : Fin 128) {a : Bool × Nat × Spectrum} {p : Bool × Spectrum} {ps : List (Bool × Spectrum)}
    {cs : List (Bool × Nat × Spectrum)} (hpair : (s.chan ch.val).pairWait = p :: ps) (hcal : (s.chan ch.val).cal.wait = a :: cs) :
    execPairPartnerTimeout ch s = .next (s.setChan ch.val fun c =>
      { c with pairWait := if p.2.m ≤ a.2.2.m then ps else p :: ps
               cal := { c.cal with wait := if a.2.2.m ≤ p.2.m then cs else a :: cs } }) := by
  refine congrArg Host.Outcome.next (setChan_congr ?_)
  simp [hpair, hcal]

/-! ### The statement -/

/-- Settles O39: a row with its cause does what its rule says, any other leaves the state. -/
theorem spectrumAndProductRows : Obligations.SpectrumAndProductRows := by
  unfold Obligations.SpectrumAndProductRows
  refine ⟨?pipe, ?large, ?withheld, ?noFrame, ?ownRow, ?interval, ?pairs, ?calibration, ?both, ?block, ?swap⟩
  case pipe =>
    intro ch f s hemits htype hl hframe p u e
    refine ⟨?_, ?_⟩
    · exact (spectrumComplete_frame false hemits htype hl hframe).trans (congrArg _ (if_neg Bool.false_ne_true))
    · exact (spectrumComplete_frame true hemits htype hl hframe).trans (congrArg _ (if_pos rfl))
  case large =>
    intro ch f lost waits s hemits htype hl hframe bad
    exact largeTransformComplete_frame ⟨lost, waits⟩ hemits htype hl hframe
  case withheld => exact fun ch lost f s hframe hsup hfill => frameDone_withheld hframe hsup hfill
  case noFrame =>
    intro ch err lost waits s h
    exact ⟨spectrumComplete_idle err (h.imp_right .inr), largeTransformComplete_idle ⟨lost, waits⟩ (h.imp_right .inr)⟩
  case ownRow =>
    intro ch err lost waits s
    refine ⟨fun hl => spectrumComplete_idle err (.inr (.inl hl)), fun hl => largeTransformComplete_idle _ (.inr (.inl hl)), fun hsk => ?_⟩
    exact skBlockEnd_open lost fun a ha => by simp [hsk] at ha
  case interval => exact fun _ _ _ => rfl
  case pairs => exact fun ch s hcal => pairPartnerTimeout_pairs ch hcal
  case calibration => exact fun ch s hpair => pairPartnerTimeout_calibration ch hpair
  case both => exact fun ch a p ps cs s hpair hcal => pairPartnerTimeout_both ch hpair hcal
  case block =>
    intro ch lost a s hsk
    refine ⟨skBlockEnd_over hsk, fun hlt => skBlockEnd_open lost fun b hb => ?_⟩
    obtain rfl := Option.some.inj (hsk.symm.trans hb)
    exact hlt
  case swap => exact fun _ _ => rfl

end Sys2Proof.Machine
end

section
/-! The events of live calibration (R240, R332, R339, R350, R351, R355), and the statement they settle. -/

namespace Sys2Proof.Machine

variable {s : State} {d ref k : Nat}

/-! ### The source of a drive -/

/-- What an output does leaves the drives. -/
theorem gateOut_drives (n : Nat) (gated : Bool) : (s.gateOut n gated).drives = s.drives := by
  unfold State.gateOut State.refreshOut
  dsimp only
  split <;> rfl

/-- A drive whose source is put on or off has it so (R332). -/
theorem drive_driveSource (hd : d < 4) (on : Bool) : ((s.driveSource d on).drive d).on = on := by
  have hset (t : State) (ht : t.drives = (s.setDrive d fun v => { v with on := on }).drives) : (t.drive d).on = on := by
    rw [State.drive, ht, State.setDrive, nth_upd_same hd]
  unfold State.driveSource
  extract_lets +onlyGivenNames v t1 pins t2
  have hpin : t2.drives = t1.drives := by
    unfold t2
    split <;> rfl
  cases v.gate with
  | none => exact hset _ hpin
  | some n => exact hset _ ((gateOut_drives ..).trans hpin)

/-! ### Cycles and periods -/

/-- The next cycle of a drive whose source is off switches it on; without a running period one begins (R332, R339). -/
theorem calOnStart_cycle (drive : Fin 4) (howner : (s.drive drive.val).owner ≠ none) (hoff : (s.drive drive.val).on = false)
    (hpll : s.pllOk = true) :
    let v := s.drive drive.val
    let k := max (v.cycle + 1) (ceilDiv (s.time.tb * v.n) unitS)
    let t := ((s.untilTb (cycleStart v.n k)).setDrive drive.val fun v => { v with cycle := k }).driveSource drive.val true
    execCalOnStart drive s = .next (if v.period = none then t.periodStart drive.val k else t) := by
  obtain ⟨ref, howner⟩ := Option.ne_none_iff_exists'.1 howner
  simp only [execCalOnStart, howner, hoff, hpll, Option.isNone_some, Bool.not_true, Bool.or_self, Bool.false_eq_true, if_false,
    Option.isNone_iff_eq_none]

/-- A source that is on goes off after the on-time (R332). -/
theorem calOnEnd_off (drive : Fin 4) (hon : (s.drive drive.val).on = true) :
    let v := s.drive drive.val
    execCalOnEnd drive s =
      .next ((s.untilTb (cycleStart v.n v.cycle + unitS / (max 1 v.n * 2 ^ v.r))).driveSource drive.val false) := by
  simp only [execCalOnEnd, hon, Bool.not_true, Bool.false_eq_true, if_false]

/-- Time that passes leaves the drives. -/
theorem untilTb_drives (t : Nat) : (s.untilTb t).drives = s.drives :=
  (kept_untilTb t).2 .drives (by decide)

/-- Updates of channels leave the drives. -/
theorem foldl_setChan_drives {f : Nat → Chan → Chan} (l : List Nat) (t : State) :
    (l.foldl (fun s i => s.setChan i (f i)) t).drives = t.drives :=
  List.foldlRecOn (motive := fun u : State => u.drives = t.drives) l _ rfl fun _ hu _ _ => hu

/-- An update of a drive depends on its function's value at that drive alone. -/
theorem setDrive_congr {f g : Drive → Drive} (h : f (s.drive d) = g (s.drive d)) : s.setDrive d f = s.setDrive d g := by
  rw [State.setDrive, upd_congr (d := .reset) h, State.setDrive]

/-- After A cycles the group's accumulators change buffers and the next period begins (R339, R340). -/
theorem calPeriodEnd_period (drive : Fin 4) (howner : (s.drive drive.val).owner = some ref) (hperiod : (s.drive drive.val).period = some k)
    (hold : (s.drive drive.val).old = none) :
    let e := k + (s.chan ref).cal.cycles
    let t := s.untilTb (cycleStart (s.drive drive.val).n e)
    execCalPeriodEnd drive s = .next ((((t.calGroup ref).foldl (fun s i => s.setChan i fun c =>
      { c with cal := { c.cal with prev := some (c.cal.cur, c.cal.pol), cur := .zero } }) t).setDrive drive.val fun v =>
        { v with old := some k, oldFrozen := (s.drive drive.val).frozen }).periodStart drive.val e) := by
  intro e t
  simp only [execCalPeriodEnd, howner, hperiod, hold, Option.isSome_none, Bool.false_eq_true, if_false]
  refine congrArg (fun u : State => Host.Outcome.next (u.periodStart drive.val e)) (setDrive_congr ?_)
  rw [State.drive, foldl_setChan_drives, untilTb_drives, ← State.drive]

/-- The tables of the period that has ended are derived, and the group's swap is set (R347, R350). -/
theorem calDerivationDone_period (drive : Fin 4) (howner : (s.drive drive.val).owner = some ref) (hold : (s.drive drive.val).old = some k) :
    let derived := (s.calGroup ref).filterMap fun i => (s.chan i).cal.prev.map fun p => s.calDerive i p.1 p.2
    let t := (s.calGroup ref).foldl (fun s i => s.setChan i fun c =>
      { c with cal := { c.cal with prev := none, wait := c.cal.wait.filter fun w => w.2.1 != k } }) s
    execCalDerivationDone drive s = .next ((t.swapDerived drive.val ref derived).setDrive drive.val fun v => { v with old := none }) := by
  simp only [execCalDerivationDone, howner, hold]

/-! ### The group's swap -/

/-- A channel that has been asked for its part is not asked again. -/
theorem askParts_asked (tag : Nat) (h : ∀ x ∈ (s.drive d).swaps, x.asked = true) : s.askParts d tag = s := by
  have hnone : ((s.drive d).swaps.find? fun g => g.tag == tag && !g.asked) = none :=
    List.find?_eq_none.2 fun x hx => by simp [h x hx]
  simp only [State.askParts, hnone]

/-- The state in which the group and its drive have taken swap g with generation `gen`, and accumulation restarts (R339, R349). -/
def State.swapTaken (s : State) (d ref gen : Nat) (g : GroupSwap) : State :=
  let t := (s.calGroup ref).foldl (fun (s : State) i =>
    if i = ref ∨ (s.chan i).emits = false then s.setChan i fun c => (c.swaps.filter fun q => q.tag == g.tag).foldl Chan.applySwap c else s) s
  (t.setDrive d fun v => { v with gen := gen, swaps := v.swaps.filter fun x => x.tag != g.tag }).calRestart ref

/-- What follows it: CAL_SWAP, the journal entry, the records, the freeze that waits, the load that waits (R351, R355, R360, R362). -/
def State.swapReported (t : State) (d ref gen : Nat) (g : GroupSwap) : State :=
  let n := t.note .calSwap (t.handleOf 2 ref) [(2, gen), (1, b2n !g.live), (1, g.bits), (8, g.ms)]
  let j := n.journal 2 0xFF 0 (n.handleOf 2 ref)
    (Config.sha384 ((n.calGroup ref).flatMap fun i => (n.chan i).cal.tab.g.flatMap fun x => le 4 x))
  let r := g.recs.foldl (fun s x => s.calRecord x true false gen) j
  let f := if g.freeze then r.setDrive d fun v => { v with frozen := true, thaw := false } else r
  match g.ring with
  | some r => f.finish r.val .ok 0 0
  | none => f

/-- A drive whose reference has made its part of swap g, every part asked for, takes the swap (R350, R351). -/
theorem groupSwapped_made {g : GroupSwap} (howner : (s.drive d).owner = some ref) (hrole : s.pair.role ≠ .secondary)
    (hasked : ∀ x ∈ (s.drive d).swaps, x.asked = true) (hmade : ((s.drive d).swaps.find? fun x => (s.chan ref).swapMade x.tag) = some g) :
    s.groupSwapped d = (s.swapTaken d ref (nextCalGen (s.drive d).gen) g).swapReported d ref (nextCalGen (s.drive d).gen) g := by
  have hask : (s.drive d).swaps.foldl (fun s g => s.askParts d g.tag) s = s := foldl_unchanged fun x _ => askParts_asked x.tag hasked
  have hfind : ((s.drive d).swaps.find? fun x => x.asked && (s.chan ref).swapMade x.tag) = some g := by
    rw [← hmade]
    exact List.find?_congr fun x hx => by simp [hasked x hx]
  simp only [State.groupSwapped, howner, hrole, hask, hfind, if_false, Bool.or_eq_true, decide_eq_true_eq, Bool.not_eq_true']
  rfl

/-! ### The statement -/

/-- Settles O47: each event with its cause does what its rule says, any other leaves the state. -/
theorem calibrationRows : Obligations.CalibrationRows := by
  unfold Obligations.CalibrationRows
  refine ⟨?onStart, ?onEnd, ?source, ?periodEnd, ?derivation, ?swap, ?free, ?off⟩
  case onStart => exact fun drive s howner hoff hpll => calOnStart_cycle drive howner hoff hpll
  case onEnd => exact fun drive s hon => calOnEnd_off drive hon
  case source => exact fun d on s hd => drive_driveSource hd on
  case periodEnd => exact fun drive ref k s howner hperiod hold => calPeriodEnd_period drive howner hperiod hold
  case derivation => exact fun drive ref k s howner hold => calDerivationDone_period drive howner hold
  case swap =>
    intro drive ref g s howner hrole hasked hmade
    exact congrArg Host.Outcome.next (groupSwapped_made howner hrole hasked hmade)
  case free =>
    intro drive s howner
    refine ⟨?_, ?_, ?_, ?_⟩
    · simp only [exec, execCalOnStart, howner, Option.isNone_none, Bool.true_or, if_true]
    · simp only [exec, execCalPeriodEnd, howner]
    · simp only [exec, execCalDerivationDone, howner]
    · simp only [exec, execCalSwap, State.groupSwapped, howner]
  case off =>
    intro drive s hoff
    simp only [exec, execCalOnEnd, hoff, Bool.not_false, if_true]

end Sys2Proof.Machine
end

section
/-! CAL_SET, CAL_FREEZE and CAL_TABLE_LOAD (R354, R356–R362), and the statement they settle. -/

namespace Sys2Proof.Machine

variable {d : Desc} {s : State} {ch x : Nat}

/-! ### CAL_SET with POLICY_ONLY, and without ENABLE -/

/-- A group channel notes the policy for its next period (R357). -/
theorem calSetBody_policyOnly (hpolicy : dBit d 0x08 3 = true) (hon : (s.chan (hIdx d.handle)).cal.on = true) (hok : policyOk d = true)
    (hsub : subtractOk (s.chan (hIdx d.handle)) (d.u 0x09 1) (s.chan (hIdx d.handle)).cal.fc (s.chan (hIdx d.handle)).cal.bc
      (s.chan (hIdx d.handle)).cal.b = true) :
    calSetBody d s = .done .ok 0 0 d.handle
      (s.setChan (hIdx d.handle) fun c => { c with cal := { c.cal with newPolicy := some (polOf d) } }) := by
  simp only [calSetBody, hpolicy, hon, hok, hsub, Bool.not_true, Bool.or_self, Bool.false_eq_true, if_false, if_true]

/-- A channel has no group with other members when it is in none, heads none, or is alone in its own (R359). -/
theorem no_members_left (h : (s.chan ch).cal.on = false ∨ (s.chan ch).cal.ref ≠ 0 ∨ s.calGroup ch = [ch]) :
    ((s.chan ch).cal.on && decide ((s.chan ch).cal.ref = 0) && decide (0 < ((s.calGroup ch).filter (· != ch)).length)) = false := by
  rcases h with hoff | href | halone
  · simp [hoff]
  · simp [href]
  · simp [halone]

/-- Without ENABLE a STOPPED channel leaves its group (R359). -/
theorem calSetBody_leave (hpolicy : dBit d 0x08 3 = false) (henable : dBit d 0x08 0 = false) (hclean : calClean d = true)
    (hst : (s.chan (hIdx d.handle)).st = .stopped)
    (hfree : (s.chan (hIdx d.handle)).cal.on = false ∨ (s.chan (hIdx d.handle)).cal.ref ≠ 0 ∨ s.calGroup (hIdx d.handle) = [hIdx d.handle]) :
    calSetBody d s = .done .ok 0 0 d.handle (s.calLeave (hIdx d.handle)) := by
  simp only [calSetBody, hpolicy, henable, hclean, hst, no_members_left hfree, ne_eq, not_true_eq_false, Bool.not_true, Bool.not_false,
    Bool.false_eq_true, if_false, if_true]

/-! ### CAL_SET with ENABLE -/

/-- What CAL_SET with ENABLE asks of a channel and of what it names, so that the channel heads a group or joins one (R336, R354, R356–R358). -/
structure CalJoins (d : Desc) (ch : Nat) (s : State) : Prop where
  stopped   : (s.chan ch).st = .stopped
  transform : (s.chan ch).sp.type ≠ 0
  delay     : (calOf d).delay = true → (s.chan ch).fe.fdl ≠ 0
  reference : (calOf d).ref ≠ 0 → s.valid 2 (BitVec.ofNat 32 (calOf d).ref) = true ∧
    (s.driveOf (hIdx (BitVec.ofNat 32 (calOf d).ref))).isSome = true
  region    : s.valid 3 (calOf d).region = true
  fields    : calOk s ch d = true
  pin       : bit (d.u 0x0B 1) 7 = true → nth s.pins.func (16 + d.u 0x0A 1) 0 = 4
  output    : bit (d.u 0x0B 1) 6 = true → bits (nth s.clk.outCfg (d.u 0x0B 1 % 16) 0).toNat 30 28 = 3
  drive     : (calOf d).ref = 0 → (s.drive (d.u 0x0A 1)).owner = none ∨ (s.drive (d.u 0x0A 1)).owner = some ch
  writer    : s.writerBusy (hIdx (calOf d).region) (.calTab ch) = false
  alone     : (calOf d).ref ≠ 0 → s.calGroup ch = [] ∨ s.calGroup ch = [ch]
  store     : s.storeTaken ch - (s.chan ch).cal.store + (calOf d).store + (s.chan ch).pr.store ≤ 2 ^ 26
  room      : (calOf d).ref ≠ 0 → ch ∈ s.calGroup (hIdx (BitVec.ofNat 32 (calOf d).ref)) ∨
    (s.calGroup (hIdx (BitVec.ofNat 32 (calOf d).ref))).length < 16

namespace CalJoins

/-- The channel has the transform, the delay line and the running reference that it needs: not WRONG_STATE. -/
theorem not_wrongState (h : CalJoins d ch s) :
    (decide ((s.chan ch).sp.type = 0) || ((calOf d).delay && decide ((s.chan ch).fe.fdl = 0)) ||
      (!decide ((calOf d).ref = 0) && s.valid 2 (BitVec.ofNat 32 (calOf d).ref) &&
        (s.driveOf (hIdx (BitVec.ofNat 32 (calOf d).ref))).isNone)) = false := by
  have hdelay : ((calOf d).delay && decide ((s.chan ch).fe.fdl = 0)) = false := by simpa using h.delay
  by_cases href : (calOf d).ref = 0
  · simp [h.transform, hdelay, href]
  · simp [h.transform, hdelay, (h.reference href).2]

/-- The handles that it names are good: not BAD_HANDLE. -/
theorem not_badHandle (h : CalJoins d ch s) :
    (!decide ((calOf d).ref = 0) && !s.valid 2 (BitVec.ofNat 32 (calOf d).ref) || !s.valid 3 (calOf d).region) = false := by
  by_cases href : (calOf d).ref = 0
  · simp [h.region, href]
  · simp [h.region, (h.reference href).1]

/-- The pin and the output that it names have the drive's function: not PIN_NOT_ASSIGNED. -/
theorem not_pinNotAssigned (h : CalJoins d ch s) :
    (bit (d.u 0x0B 1) 7 && nth s.pins.func (16 + d.u 0x0A 1) 0 != 4 ||
      bit (d.u 0x0B 1) 6 && bits (nth s.clk.outCfg (d.u 0x0B 1 % 16) 0).toNat 30 28 != 3) = false := by
  simpa using ⟨h.pin, h.output⟩

/-- The drive and the region are free or its own, and no member is left behind: not RESOURCE_BUSY. -/
theorem not_resourceBusy (h : CalJoins d ch s) :
    (decide ((calOf d).ref = 0) && (s.drive (d.u 0x0A 1)).owner.any (· != ch) || s.writerBusy (hIdx (calOf d).region) (.calTab ch) ||
      !decide ((calOf d).ref = 0) && decide (0 < ((s.calGroup ch).filter (· != ch)).length)) = false := by
  by_cases href : (calOf d).ref = 0
  · rcases h.drive href with hown | hown
    · simp [h.writer, href, hown]
    · simp [h.writer, href, hown]
  · rcases h.alone href with hgroup | hgroup
    · simp [h.writer, href, hgroup]
    · simp [h.writer, href, hgroup]

/-- Its accumulators fit the store, and the group it joins has a place: not NO_CAPACITY. -/
theorem not_noCapacity (h : CalJoins d ch s) :
    (decide (2 ^ 26 < s.storeTaken ch - (s.chan ch).cal.store + (calOf d).store + (s.chan ch).pr.store) ||
      !decide ((calOf d).ref = 0) && !(s.calGroup (hIdx (BitVec.ofNat 32 (calOf d).ref))).contains ch &&
        decide (16 ≤ (s.calGroup (hIdx (BitVec.ofNat 32 (calOf d).ref))).length)) = false := by
  have hstore := Nat.not_lt.2 h.store
  by_cases href : (calOf d).ref = 0
  · simp only [hstore, href, decide_true, decide_false, Bool.not_true, Bool.false_and, Bool.or_self]
  · rcases h.room href with hmem | hroom
    · simp only [hstore, List.contains_iff_mem.2 hmem, decide_false, Bool.not_true, Bool.and_false, Bool.false_and, Bool.or_self]
    · simp only [hstore, Nat.not_le.2 hroom, decide_false, Bool.and_false, Bool.or_self]

end CalJoins

/-- The state in which the channel has given up what it held for its old group: its drive, unless it heads a group with it again, its parts
in swaps, and its region, the new one bound (R358). -/
def State.calGivenUp (s : State) (ch : Nat) (d : Desc) : State :=
  let b := match s.driveOf ch with
    | some x => if (calOf d).ref = 0 ∧ x = d.u 0x0A 1 then s else s.freeDrive x
    | none => s
  ((b.dropParts ch).dropWriter (.calTab ch)).setWriter (hIdx (calOf d).region) (.calTab ch)

/-- The state in which the channel heads its group or has joined its reference's, with the group's generation, and the group's period
restarts (R339, R358, R735). -/
def State.calJoined (s : State) (ch : Nat) (d : Desc) : State :=
  let k := calOf d
  let b := if k.ref = 0 then (s.calGivenUp ch d).setUpDrive ch d else s.calGivenUp ch d
  let gen := ((b.driveOf (k.refOf ch)).map fun x => (b.drive x).gen).getD 0
  (b.setChan ch fun c => { c with calGen := gen, cal := if c.cal.on then k else b.calRestored ch k }).calRestart (k.refOf ch)

/-- With ENABLE a channel that passes the checks heads or joins a group (R356, R358). -/
theorem calSetBody_join (hpolicy : dBit d 0x08 3 = false) (henable : dBit d 0x08 0 = true) (h : CalJoins d (hIdx d.handle) s) :
    calSetBody d s = .done .ok 0 0 d.handle (s.calJoined (hIdx d.handle) d) := by
  simp only [calSetBody, hpolicy, henable, h.stopped, h.not_wrongState, h.not_badHandle, h.fields, h.not_pinNotAssigned,
    h.not_resourceBusy, h.not_noCapacity, ne_eq, not_true_eq_false, Bool.not_true, Bool.false_eq_true, if_false, Bool.and_eq_true,
    decide_eq_true_eq]
  rfl

/-! ### CAL_FREEZE -/

/-- A set FREEZE freezes the group at once and withdraws its pending swaps (R360). -/
theorem calFreezeBody_freeze (hclean : d.clean [(0x08, 1)] = true) (hset : d.u 0x08 1 = 1) (hdrive : s.calDrive (hIdx d.handle) = some x) :
    calFreezeBody d s = .done .ok 0 0 d.handle
      ((s.withdrawSwaps x (fun _ => true) true).setDrive x fun v => { v with frozen := true, thaw := false }) := by
  have hbit : dBit d 0x08 0 = true := by simp [dBit, bit, hset]
  simp only [calFreezeBody, hclean, hset, hdrive, hbit, Nat.lt_irrefl, decide_false, Bool.not_true, Bool.or_self, Bool.false_eq_true,
    if_false, if_true]

/-- A clear FREEZE of a group that is not frozen or accumulates nothing takes effect at once, of another at the next period start (R360). -/
theorem calFreezeBody_thaw (hclean : d.clean [(0x08, 1)] = true) (hclear : d.u 0x08 1 = 0) (hdrive : s.calDrive (hIdx d.handle) = some x) :
    calFreezeBody d s = if (s.drive x).frozen = false ∨ (s.drive x).period = none
      then .done .ok 0 0 d.handle (s.setDrive x fun v => { v with frozen := false, thaw := false })
      else .wait .point d.handle (s.setDrive x fun v => { v with thaw := true }) := by
  have hbit : dBit d 0x08 0 = false := by simp [dBit, bit, hclear]
  simp only [calFreezeBody, hclean, hclear, hdrive, hbit, Nat.not_lt_zero, decide_false, Bool.not_true, Bool.or_self, Bool.false_eq_true,
    if_false, Bool.or_eq_true, Bool.not_eq_true', Option.isNone_iff_eq_none]

/-! ### CAL_TABLE_LOAD -/

/-- CAL_TABLE_LOAD of a group channel reads its tables (R361). -/
theorem calTableLoadBody_reads (hon : (s.chan (hIdx d.handle)).cal.on = true) (hclean : d.clean [(0x08, 13), (0x18, 8)] = true)
    (hflags : d.u 0x14 1 ≤ 7)
    (hlen : d.u 0x10 4 = 32 + 8 * ((s.chan (hIdx d.handle)).cal.bc / 2 ^ (s.chan (hIdx d.handle)).cal.b))
    (haddr : addrOk (d.u 0x08 8) (d.u 0x10 4) 4 = true) :
    calTableLoadBody d s = readBuffer d (d.u 0x08 8) (d.u 0x10 4) s := by
  simp only [calTableLoadBody, hon, hclean, Nat.not_lt.2 hflags, ne_eq, hlen.symm, not_true_eq_false, haddr, Bool.not_true, decide_false,
    Bool.or_self, Bool.false_eq_true, if_false]

/-- Tables with no flag set write the templates, at once (R361, R362). -/
theorem calTableData_templates {buf : List Byte} (hre : -131072 ≤ sx 32 (num buf 0 4) ∧ sx 32 (num buf 0 4) ≤ 131071)
    (him : -131072 ≤ sx 32 (num buf 4 4) ∧ sx 32 (num buf 4 4) ≤ 131071) (hcomb : num buf 0x0A 2 ≤ 256) (hzero : num buf 0x19 7 = 0)
    (hflags : d.u 0x14 1 = 0) (hdrive : s.calDrive (hIdx d.handle) = some x) :
    let n := (s.chan (hIdx d.handle)).cal.bc / 2 ^ (s.chan (hIdx d.handle)).cal.b
    calTableData d buf s = .done .ok 0 0 d.handle (s.setChan (hIdx d.handle) fun c => { c with cal := { c.cal with
      t := (List.range n).map fun i => num buf (32 + 4 * n + 4 * i) 4, combN := num buf 0x0A 2, combP0 := num buf 0x0C 4, combDp := num buf 0x10 4
      target := num buf 0x14 4, targetE := num buf 0x18 1 } }) := by
  have hre' : inZ (sx 32 (num buf 0 4)) (-131072) 131071 = true := by simpa [inZ] using hre
  have him' : inZ (sx 32 (num buf 4 4)) (-131072) 131071 = true := by simpa [inZ] using him
  have hbit (i : Nat) : bit (d.u 0x14 1) i = false := by simp [bit, hflags]
  simp only [calTableData, hre', him', Nat.not_lt.2 hcomb, hzero, hdrive, hbit, ne_eq, not_true_eq_false, Bool.not_true, Bool.not_false,
    decide_false, Bool.or_self, Bool.false_eq_true, if_false, if_true]

/-! ### The statement -/

/-- Settles O46: each command passes its checks and does what its rule says. -/
theorem calibrationCommands : Obligations.CalibrationCommands := by
  unfold Obligations.CalibrationCommands
  refine ⟨?policyOnly, ?leave, ?join, ?freeze, ?tableLoad, ?templates⟩
  case policyOnly =>
    intro d s hr a c hpolicy hon hok hsub
    exact exec_done rfl hr (calSetBody_policyOnly hpolicy hon hok hsub)
  case leave =>
    intro d s hr a ch hpolicy henable hclean hst hfree
    exact exec_done rfl hr (calSetBody_leave hpolicy henable hclean hst hfree)
  case join =>
    intro d s hr a ch k dn out ref hpolicy henable hst htype hdelay href hregion hok hpin hout hdrive hwriter halone hstore hroom
    exact exec_done rfl hr (calSetBody_join hpolicy henable
      ⟨hst, htype, hdelay, href, hregion, hok, hpin, hout, hdrive, hwriter, halone, hstore, hroom⟩)
  case freeze =>
    intro d x s hr a hclean hflags hdrive
    refine ⟨fun hset => ?_, fun hclear hnow => ?_, fun hclear hfrozen hperiod => ?_⟩
    · exact exec_done rfl hr (calFreezeBody_freeze hclean hset hdrive)
    · exact exec_done rfl hr ((calFreezeBody_thaw hclean hclear hdrive).trans (if_pos hnow))
    · have hwaits := (calFreezeBody_thaw hclean hclear hdrive).trans (if_neg (by simp [a, hfrozen, hperiod]))
      exact (exec_ready rfl hr).trans (congrArg (fun v => Host.Outcome.next (settle d.ring.val a v)) hwaits)
  case tableLoad =>
    intro d s hr a k hon hclean hflags hlen haddr hlink
    exact exec_readBuffer rfl hr (calTableLoadBody_reads hon hclean hflags hlen haddr) rfl hlink
  case templates =>
    intro d buf x s ch k n hre him hcomb hzero hflags hdrive
    exact calTableData_templates hre him hcomb hzero hflags hdrive

end Sys2Proof.Machine
end

section
/-! TRIG_SET, TRIG_MASK_LOAD and TRIG_COMBINE (R384–R392, R402–R404), and the statement they settle. -/

namespace Sys2Proof.Machine

variable {d : Desc} {s : State} {i : Nat}

/-! ### TRIG_SET -/

/-- The condition that TRIG_SET names passes the checks of R388 on channel ch. -/
structure CondAllowed (d : Desc) (ch : Nat) (s : State) : Prop where
  type      : (condOf d).type ≤ 8
  counts    : (condOf d).type = 0 ∨ (condOf d).type = 7 ∨ (condOf d).type = 8 ∨ (1 ≤ (condOf d).q ∧ 1 ≤ (condOf d).r)
  fields    : condFieldsOk s ch (condOf d) = true
  transform : (condOf d).spectral = true → (s.chan ch).sp.type ≠ 0
  plane     : (condOf d).type = 4 → ((nth s.planes ((condOf d).s1 % 8) .reset).bound ch).isSome = true
  sweep     : (condOf d).type = 6 → s.valid 6 ((condOf d).u1.setWidth 32) = true ∧
    (nth s.sweeps (hIdx ((condOf d).u1.setWidth 32)) .reset).chan = ch
  pin       : (condOf d).type = 7 → s.pins.isTrigIn (condOf d).s1 = true

namespace CondAllowed

variable {ch : Nat}

/-- Its fields are in range: not BAD_PARAM. -/
theorem not_badParam (h : CondAllowed d ch s) :
    (decide (8 < (condOf d).type) || !(decide ((condOf d).type = 0) || decide ((condOf d).type = 7) || decide ((condOf d).type = 8) ||
      (decide (1 ≤ (condOf d).q) && decide (1 ≤ (condOf d).r))) || !condFieldsOk s ch (condOf d)) = false := by
  have hcounts : (decide ((condOf d).type = 0) || decide ((condOf d).type = 7) || decide ((condOf d).type = 8) ||
      (decide (1 ≤ (condOf d).q) && decide (1 ≤ (condOf d).r))) = true := by
    simpa [or_assoc] using h.counts
  simp only [Nat.not_lt.2 h.type, hcounts, h.fields, decide_false, Bool.not_true, Bool.or_self]

/-- The channel has its transform and its plane: not WRONG_STATE. -/
theorem not_wrongState (h : CondAllowed d ch s) :
    (((condOf d).spectral && decide ((s.chan ch).sp.type = 0)) ||
      (decide ((condOf d).type = 4) && ((nth s.planes ((condOf d).s1 % 8) .reset).bound ch).isNone)) = false := by
  simpa using ⟨h.transform, h.plane⟩

/-- The channel feeds its sweep unit: not WRONG_STATE. -/
theorem not_otherSweep (h : CondAllowed d ch s) :
    (decide ((condOf d).type = 6) && s.valid 6 ((condOf d).u1.setWidth 32) &&
      decide ((nth s.sweeps (hIdx ((condOf d).u1.setWidth 32)) .reset).chan ≠ ch)) = false := by
  simpa using fun htype _ => (h.sweep htype).2

/-- The handle of its sweep unit is good: not BAD_HANDLE. -/
theorem not_badHandle (h : CondAllowed d ch s) : (decide ((condOf d).type = 6) && !s.valid 6 ((condOf d).u1.setWidth 32)) = false := by
  simpa using fun htype => (h.sweep htype).1

/-- Its pin is a trigger input: not PIN_NOT_ASSIGNED. -/
theorem not_pinNotAssigned (h : CondAllowed d ch s) : (decide ((condOf d).type = 7) && !s.pins.isTrigIn (condOf d).s1) = false := by
  simpa using h.pin

end CondAllowed

/-- Without FIRE a condition that passes the checks replaces the old one, but for the fires that wait (R386). -/
theorem trigSetBody_set (hclean : d.clean [(0x08, 40)] = true) (hletter : d.u 0x08 1 ≤ 3) (hflags : d.u 0x0A 1 < 8)
    (hset : dBit d 0x0A 0 = false) (h : CondAllowed d (hIdx d.handle) s) :
    trigSetBody d s = .done .ok (condNo (hIdx d.handle) (d.u 0x08 1)) 0 d.handle
      (s.setChan (hIdx d.handle) fun x => { x with cond := upd x.cond (d.u 0x08 1) fun o => { condOf d with fires := o.fires } }) := by
  simp only [trigSetBody, hclean, Nat.not_lt.2 hletter, Nat.not_le.2 hflags, hset, h.not_badParam, h.not_wrongState, h.not_otherSweep,
    h.not_badHandle, h.not_pinNotAssigned, Bool.not_true, decide_false, Bool.or_self, Bool.false_eq_true, if_false]

/-- With FIRE a SOFTWARE condition of a RUNNING channel waits for its output, which is not passed (R387). -/
theorem trigSetBody_fire (hclean : d.clean [(0x08, 40)] = true) (hletter : d.u 0x08 1 ≤ 3) (hflags : d.u 0x0A 1 < 8)
    (hfire : dBit d 0x0A 0 = true)
    (hahead : dBit d 0x0A 1 = true → ∀ j, (s.chan (hIdx d.handle)).lastOut = some j → j * (s.chan (hIdx d.handle)).fe.d ≤ d.u 0x28 8)
    (htype : (nth (s.chan (hIdx d.handle)).cond (d.u 0x08 1) .off).type = 8) (hrun : (s.chan (hIdx d.handle)).st = .running) :
    trigSetBody d s = .wait .point d.handle (s.setChan (hIdx d.handle) fun x => { x with cond := upd x.cond (d.u 0x08 1) fun k =>
      { k with fires := k.fires ++ [(if dBit d 0x0A 1 then some (d.u 0x28 8) else none, d.ring)] } }) := by
  have hnotPassed : (dBit d 0x0A 1 && (s.chan (hIdx d.handle)).lastOut.any
      fun j => decide (d.u 0x28 8 < j * (s.chan (hIdx d.handle)).fe.d)) = false := by
    simpa [Option.any_eq_false] using hahead
  simp only [trigSetBody, hclean, Nat.not_lt.2 hletter, Nat.not_le.2 hflags, hfire, hnotPassed, htype, hrun, ne_eq, not_true_eq_false,
    Bool.not_true, decide_false, Bool.or_self, Bool.false_eq_true, if_false, if_true]

/-! ### TRIG_MASK_LOAD -/

/-- The bank that a load writes becomes the active one (R392). -/
theorem active_load (m : Mask) (base : Nat) (segs : List Seg) : (m.load base segs).active = (base, segs) := by
  cases hbank : m.useB1 with
  | false => simp [Mask.load, Mask.active, hbank]
  | true => simp [Mask.load, Mask.active, hbank]

/-- Segments in order and in range are written to the idle bank (R391, R392). -/
theorem trigMaskData_loads {buf : List Byte}
    (hok : segsOk (d.u 0x0C 4) (2 ^ (s.chan (hIdx d.handle)).sp.l) (segsOf buf (d.u 0x0A 2)) = true) :
    trigMaskData d buf s = .done .ok (d.u 0x0A 2) (sumN ((segsOf buf (d.u 0x0A 2)).map (·.count))) d.handle
      (s.setChan (hIdx d.handle) fun x => { x with mask := upd x.mask (d.u 0x08 1) fun m => m.load (d.u 0x0C 4) (segsOf buf (d.u 0x0A 2)) }) := by
  simp only [trigMaskData, hok, Bool.not_true, Bool.false_eq_true, if_false]

/-- A mask of some segments is read from the host (R390). -/
theorem trigMaskLoadBody_reads (hclean : d.clean [(0x08, 1), (0x0A, 14)] = true) (hletter : d.u 0x08 1 ≤ 3) (hmost : d.u 0x0A 2 ≤ 1024)
    (hsome : d.u 0x0A 2 ≠ 0) (haddr : addrOk (d.u 0x10 8) (8 * d.u 0x0A 2) 8 = true) (htype : (s.chan (hIdx d.handle)).sp.type ≠ 0) :
    trigMaskLoadBody d s = readBuffer d (d.u 0x10 8) (8 * d.u 0x0A 2) s := by
  simp only [trigMaskLoadBody, hclean, Nat.not_lt.2 hletter, Nat.not_lt.2 hmost, hsome, haddr, htype, Bool.not_true, decide_false,
    Bool.or_self, Bool.false_eq_true, if_false]

/-- A mask of no segments is loaded at once (R389, R392). -/
theorem trigMaskLoadBody_empty (hclean : d.clean [(0x08, 1), (0x0A, 14)] = true) (hletter : d.u 0x08 1 ≤ 3) (hnone : d.u 0x0A 2 = 0)
    (haddr : addrOk (d.u 0x10 8) 0 8 = true) (htype : (s.chan (hIdx d.handle)).sp.type ≠ 0) :
    trigMaskLoadBody d s = .done .ok 0 0 d.handle (s.setChan (hIdx d.handle) fun x =>
      { x with mask := upd x.mask (d.u 0x08 1) fun m => m.load (d.u 0x0C 4) [] }) := by
  have hdata := trigMaskData_loads (d := d) (s := s) (buf := []) (by rw [hnone]; rfl)
  rw [hnone] at hdata
  have hfew : ¬1024 < 0 := by decide
  simp only [trigMaskLoadBody, hclean, Nat.not_lt.2 hletter, hnone, hfew, haddr, htype, Nat.mul_zero, Bool.not_true, decide_false,
    Bool.or_self, Bool.false_eq_true, if_false, if_true]
  exact hdata

/-! ### TRIG_COMBINE -/

/-- The set-up of a group that TRIG_COMBINE's parameters describe, with nothing pending and its counters at zero (R402, R403). -/
def groupOf (d : Desc) (s : State) : Group :=
  { gen := 0, alloc := true, mode := d.u 0x08 1, event := dBit d 0x0A 0, aset := BitVec.ofNat 16 (d.u 0x0C 2), t := d.u 0x10 4
    inputs := combineInputs d (d.u 0x09 1), hits := [], past := [], last := none, since := s.time.tb / unitF, late := 0, dropped := 0
    fired := 0 }

/-- A change of the trigger groups alone. -/
theorem kept_groups (x : Vector Group 64) : Kept [.groups] s { s with groups := x } := by
  refine ⟨rfl, fun p hp => ?_⟩
  cases p with
  | groups => simp at hp
  | _ => rfl

/-- No input is a condition of an EMPTY channel: not WRONG_STATE (R404). -/
theorem inputs_not_empty (hinputs : ∀ c ∈ combineInputs d (d.u 0x09 1), (s.chan (c / 4)).st ≠ .empty) :
    ((combineInputs d (d.u 0x09 1)).any fun c => (s.chan (c / 4)).st == .empty) = false := by
  simpa using hinputs

/-- With handle 0 a new group takes the index that it claims, with the next generation there (R92, R402). -/
theorem trigCombineBody_new (hnew : d.handle = 0) (hmode : d.u 0x08 1 ≠ 0) (hok : combineOk s d = true)
    (hinputs : ∀ c ∈ combineInputs d (d.u 0x09 1), (s.chan (c / 4)).st ≠ .empty)
    (hclaim : s.claimIdx 64 (fun i => !(nth s.groups i .reset).alloc) = some i) :
    let t : State := { s with groups := upd s.groups i fun o => { groupOf d s with gen := o.gen } }
    trigCombineBody d s = .done .ok i 0 (t.handleOf 5 i) t := by
  simp only [trigCombineBody, hnew, hmode, hok, inputs_not_empty hinputs, hclaim, ne_eq, not_true_eq_false, decide_false, Bool.not_true,
    Bool.false_and, Bool.and_false, Bool.false_eq_true, if_false]
  rfl

/-- A group's new set-up keeps its generation and its counters (R403). -/
theorem trigCombineBody_change (hold : d.handle ≠ 0) (hmode : d.u 0x08 1 ≠ 0) (hok : combineOk s d = true)
    (hinputs : ∀ c ∈ combineInputs d (d.u 0x09 1), (s.chan (c / 4)).st ≠ .empty) :
    trigCombineBody d s = .done .ok (hIdx d.handle) 0 d.handle { s with groups := upd s.groups (hIdx d.handle) fun o =>
      { groupOf d s with gen := o.gen, late := o.late, dropped := o.dropped, fired := o.fired } } := by
  simp only [trigCombineBody, hold, hmode, hok, inputs_not_empty hinputs, ne_eq, not_false_eq_true, decide_false, Bool.not_true,
    Bool.and_false, Bool.false_eq_true, if_false, if_true]
  rfl

/-- Mode 0 frees a group whose line no acquisition unit uses, with its index's next generation (R92, R404). -/
theorem trigCombineBody_free (hold : d.handle ≠ 0) (hmode : d.u 0x08 1 = 0) (hok : combineOk s d = true)
    (hunused : ∀ u : Fin 128, (s.acq u.val).st ≠ .none → (s.acq u.val).par.mode ≠ 3 → (s.acq u.val).par.line ≠ hIdx d.handle) :
    trigCombineBody d s = .done .ok (hIdx d.handle) 0 d.handle
      { s with groups := upd s.groups (hIdx d.handle) fun o => { Group.reset with gen := nextGen o.gen } } := by
  have hidle : ((List.range 128).any fun u => (s.acq u).st != .none && (s.acq u).par.mode != 3 && (s.acq u).par.line == hIdx d.handle) =
      false := by
    rw [List.any_eq_false]
    intro u hu
    simpa using hunused ⟨u, List.mem_range.1 hu⟩
  simp only [trigCombineBody, hold, hmode, hok, hidle, ne_eq, not_true_eq_false, decide_false, decide_true, Bool.not_true,
    Bool.false_and, Bool.and_false, Bool.false_eq_true, if_false, if_true]

/-! ### The statement -/

/-- Settles O41: each command passes its checks and does what its rule says. -/
theorem triggerCommands : Obligations.TriggerCommands := by
  unfold Obligations.TriggerCommands
  refine ⟨?set, ?fire, ?load, ?empty, ?segments, active_load, ?new, ?change, ?free⟩
  case set =>
    intro d s hr a ch hclean hletter hflags hset htype hcounts hfields htransform hplane hsweep hpin
    exact exec_done rfl hr (trigSetBody_set hclean hletter hflags hset ⟨htype, hcounts, hfields, htransform, hplane, hsweep, hpin⟩)
  case fire =>
    intro d s hr a ch hclean hletter hflags hfire hahead htype hrun
    exact (exec_ready rfl hr).trans
      (congrArg (fun v => Host.Outcome.next (settle d.ring.val a v)) (trigSetBody_fire hclean hletter hflags hfire hahead htype hrun))
  case load =>
    intro d s hr a hclean hletter hmost hsome haddr htype hlink w io
    exact exec_readBuffer rfl hr (trigMaskLoadBody_reads hclean hletter hmost hsome haddr htype) rfl hlink
  case empty =>
    intro d s hr a hclean hletter hnone haddr htype
    exact exec_done rfl hr (trigMaskLoadBody_empty hclean hletter hnone haddr htype)
  case segments => exact fun d buf s hok => trigMaskData_loads hok
  case new =>
    intro d s i hr a hnew hmode hok hinputs hclaim
    refine ⟨_, exec_done rfl hr (trigCombineBody_new hnew hmode hok hinputs hclaim), kept_groups _, fun j hj => nth_upd_ne hj.symm, ?_⟩
    intro hi x
    have hx : x = { groupOf d a with gen := (nth a.groups i .reset).gen } := nth_upd_same hi
    rw [hx]
    exact ⟨rfl, rfl, rfl, rfl, rfl, rfl, rfl⟩
  case change =>
    intro d s hr a i hold hmode hok hinputs
    refine ⟨_, exec_done rfl hr (trigCombineBody_change hold hmode hok hinputs), kept_groups _, fun j hj => nth_upd_ne hj.symm, ?_⟩
    intro hi x o
    have hx : x = { groupOf d a with gen := o.gen, late := o.late, dropped := o.dropped, fired := o.fired } := nth_upd_same hi
    rw [hx]
    exact ⟨rfl, rfl, rfl, rfl, rfl, rfl, rfl, rfl, rfl⟩
  case free =>
    intro d s hr a hold hmode hok hunused
    exact exec_done rfl hr (trigCombineBody_free hold hmode hok hunused)

end Sys2Proof.Machine
end

section
/-! The edges and pulses of trigger pins and the decisions of trigger groups (R378–R381, R385, R396–R398), and the statement they
settle. -/

namespace Sys2Proof.Machine

variable {s : State} {pin : Fin 16} {level : Bool} {g : Nat} {h : Hit}

/-! ### Edges -/

/-- The time stamp of an edge that comes now: to 1 ns, less the pin's DELAY (R378). -/
def State.edgeTime (s : State) (pin : Fin 16) : Nat :=
  s.time.tb / unitNs * unitNs - (nth s.pins.cfg pin.val 0).toNat % 65536 * 100 * unitPs

/-- The pin's new level is noted. -/
def State.noteLevel (s : State) (pin : Fin 16) (level : Bool) : State :=
  { s with pins := { s.pins with level := setBit s.pins.level pin.val level } }

/-- A level of no trigger input, or an unchanged one, is no edge. -/
theorem trigIoEdge_noted (hno : s.pins.isTrigIn pin.val = false ∨ s.pins.level.getLsbD pin.val = level) :
    execTrigIoEdge pin level s = .next (s.noteLevel pin level) := by
  have hnone : (!s.pins.isTrigIn pin.val || s.pins.level.getLsbD pin.val == level) = true := by simpa using hno
  exact congrArg Host.Outcome.next (if_pos hnone)

/-- A new level of a trigger input is an edge. -/
theorem newLevel_edge (hin : s.pins.isTrigIn pin.val = true) (hnew : s.pins.level.getLsbD pin.val ≠ level) :
    (!s.pins.isTrigIn pin.val || s.pins.level.getLsbD pin.val == level) = false := by
  simp [hin, hnew]

/-- An edge less than 16 ns after the last accepted one is merged into it (R378, R383). -/
theorem trigIoEdge_merged {l : Nat} (hin : s.pins.isTrigIn pin.val = true) (hnew : s.pins.level.getLsbD pin.val ≠ level)
    (hlast : nth s.pins.lastEdge pin.val none = some l) (hsoon : s.edgeTime pin < l + 16 * unitNs) :
    execTrigIoEdge pin level s = .next { s.noteLevel pin level with pins := { (s.noteLevel pin level).pins with
      merged := upd s.pins.merged pin.val fun c => min 65535 (c + 1) } } := by
  have hmerge : ((nth s.pins.lastEdge pin.val none).any fun l => decide (s.edgeTime pin < l + 16 * unitNs)) = true := by
    rw [hlast, Option.any_some]
    exact decide_eq_true hsoon
  exact congrArg Host.Outcome.next ((if_neg (ne_true_of_eq_false (newLevel_edge hin hnew))).trans (if_pos hmerge))

/-- Another edge is accepted, and looked at by every condition in the order of their numbers (R378, R385). -/
theorem trigIoEdge_accepted (hin : s.pins.isTrigIn pin.val = true) (hnew : s.pins.level.getLsbD pin.val ≠ level)
    (hlate : ((nth s.pins.lastEdge pin.val none).all fun l => decide (l + 16 * unitNs ≤ s.edgeTime pin)) = true) :
    let t := s.edgeTime pin
    let edge : Nat := if level = (nth s.pins.cfg pin.val 0).getLsbD 31 then 1 else 0
    execTrigIoEdge pin level s = .next ((List.range 512).foldl (fun (s : State) n =>
      let c := s.chan (n / 4)
      let k := nth c.cond (n % 4) .off
      if c.emits = true ∧ k.type = 7 ∧ k.s1 = pin.val ∧ bit k.s2 edge = true then
        s.condHit (n / 4) (n % 4) (ceilDiv ((s.stream c.stream).indexAt t) (max 1 c.fe.d) * max 1 c.fe.d)
      else s) { s.noteLevel pin level with pins := { (s.noteLevel pin level).pins with
        lastEdge := upd s.pins.lastEdge pin.val fun _ => some t } }) := by
  intro t edge
  have hkept : ((nth s.pins.lastEdge pin.val none).any fun l => decide (t < l + 16 * unitNs)) = false := by
    simpa [Option.any_eq_false, Option.all_eq_true] using hlate
  have hsense : (if (level != (nth s.pins.cfg pin.val 0).getLsbD 31) = true then 0 else 1) = edge := by
    simp [edge]
  simp only [t, State.edgeTime] at hkept
  simp only [execTrigIoEdge, newLevel_edge hin hnew, hkept, hsense, Bool.false_eq_true, if_false, Bool.and_eq_true, decide_eq_true_eq, and_assoc]
  rfl

/-! ### Decisions -/

/-- Taking the earlier time, hit after hit, finds the earliest. -/
theorem foldl_earliest {f : Option Nat → Hit → Option Nat} (hnone : ∀ k, f none k = some k.time)
    (hsome : ∀ t k, f (some t) k = some (min t k.time)) (l : List Hit) : l.foldl f none = (l.map Hit.time).min? := by
  have hfold (l : List Hit) (t : Nat) : l.foldl f (some t) = some ((l.map Hit.time).foldl min t) := by
    induction l generalizing t with
    | nil => rfl
    | cons k l ih => rw [List.foldl_cons, hsome, ih, List.map_cons, List.foldl_cons]
  cases l with
  | nil => rfl
  | cons k l => rw [List.foldl_cons, hnone, hfold, List.map_cons, List.min?_cons']

/-- With none pending a group decides nothing. -/
theorem decideGroup_nothing (hnone : (nth s.groups g .reset).hits = []) : s.decideGroup g = s := by
  simp only [State.decideGroup, hnone, List.foldl_nil]

/-- The earliest time of a group's hits is the time of a hit that none comes before. -/
theorem min?_time {l : List Hit} (hmem : h ∈ l) (hfirst : ∀ k ∈ l, h.time ≤ k.time) : (l.map Hit.time).min? = some h.time :=
  List.min?_eq_some_iff.2 ⟨List.mem_map_of_mem hmem, List.forall_mem_map.2 hfirst⟩

/-- A group after a decision at t that fires: every hit up to t and every open window is gone (R397). -/
def Group.consume (x : Group) (t : Nat) : Group :=
  { x with hits := x.hits.filter (fun k => decide (t < k.time)), past := [], last := some t }

/-- A group after a decision at t that does not fire: the hits of t have moved to the window, which keeps what T still covers (R397). -/
def Group.toWindow (x : Group) (t : Nat) : Group :=
  { x with
    hits := x.hits.filter (fun k => decide (t < k.time)), last := some t
    past := (x.past ++ x.hits.filter fun k => k.time == t).filter fun k => within x.t t k.time }

section
variable (halloc : (nth s.groups g .reset).alloc = true) (hmem : h ∈ (nth s.groups g .reset).hits)
  (hfirst : ∀ k ∈ (nth s.groups g .reset).hits, h.time ≤ k.time) (hpast : s.horizonsPast (nth s.groups g .reset) h.time = true)
include halloc hmem hfirst hpast

/-- A due decision by whether the hits of its time fire (R396, R397). -/
theorem decideGroup_due : s.decideGroup g = ((nth s.groups g .reset).fires h.time).elim
    { s with groups := upd s.groups g fun y => y.toWindow h.time }
    fun cause => { s.trigger g h.time cause with groups := upd (s.trigger g h.time cause).groups g fun y => y.consume h.time } := by
  dsimp only [State.decideGroup]
  rw [foldl_earliest, min?_time hmem hfirst]
  case hnone => exact fun _ => rfl
  case hsome => exact fun _ _ => rfl
  have hdue : (!(nth s.groups g .reset).alloc || !s.horizonsPast (nth s.groups g .reset) h.time) = false := by simp [halloc, hpast]
  refine (if_neg (ne_true_of_eq_false hdue)).trans ?_
  cases (nth s.groups g .reset).fires h.time with
  | none => rfl
  | some cause => rfl

end

/-! ### Pulses -/

/-- The passing of time leaves the pins. -/
theorem untilTb_pins (t : Nat) : (s.untilTb t).pins = s.pins :=
  (kept_untilTb t).2 .pins (by decide)

theorem trigIoTimedDrive_drives {due : Nat} {rest : List Nat} (hq : nth s.pins.queue pin.val [] = due :: rest) :
    let t := s.untilTb due
    execTrigIoTimedDrive pin s =
      .next (State.drivePin { t with pins := { t.pins with queue := upd t.pins.queue pin.val fun _ => rest } } pin.val) := by
  simp only [execTrigIoTimedDrive, hq]

theorem trigIoTimedDrive_idle (hq : nth s.pins.queue pin.val [] = []) : execTrigIoTimedDrive pin s = .next s := by
  simp only [execTrigIoTimedDrive, hq]

/-- A drive puts the ball at its active level, for WIDTH (R379–R381). -/
theorem drivePin_drives (n : Nat) (hlive : s.muted = false) : s.drivePin n = State.emit { s with pins := { s.pins with
    pulseEnd := upd s.pins.pulseEnd n fun _ => some (s.time.tb + bits (nth s.pins.cfg n 0).toNat 23 16 * 8 * unitNs) } }
      (.pin n (!(nth s.pins.cfg n 0).getLsbD 31)) := by
  simp only [State.drivePin, hlive, Bool.false_eq_true, if_false]

theorem trigIoPulseEnd_ends {e : Nat} (hend : nth s.pins.pulseEnd pin.val none = some e) :
    let t := s.untilTb e
    execTrigIoPulseEnd pin s = .next (State.emit { t with pins := { t.pins with pulseEnd := upd t.pins.pulseEnd pin.val fun _ => none } }
      (.pin pin.val ((nth s.pins.cfg pin.val 0).getLsbD 31))) := by
  simp only [execTrigIoPulseEnd, hend, untilTb_pins]


theorem trigIoPulseEnd_idle (hend : nth s.pins.pulseEnd pin.val none = none) : execTrigIoPulseEnd pin s = .next s := by
  simp only [execTrigIoPulseEnd, hend]

/-! ### The statement -/

/-- Settles O42: an edge by what it comes after, a decision by whether its hits fire, a pulse by whether one waits. -/
theorem triggerPinAndGroupRows : Obligations.TriggerPinAndGroupRows := by
  unfold Obligations.TriggerPinAndGroupRows
  refine ⟨?noted, ?merged, ?accepted, ?decides, ?undecided, ?drive, ?undriven, ?pulse, ?ends, ?endless⟩
  case noted => exact fun pin level s hno => trigIoEdge_noted hno
  case merged => exact fun pin level l s hin hnew hlast hsoon => trigIoEdge_merged hin hnew hlast hsoon
  case accepted => exact fun pin level s hin hnew hlate => trigIoEdge_accepted hin hnew hlate
  case decides =>
    intro g h s x halloc hmem hfirst hpast
    have hdue := decideGroup_due halloc hmem hfirst hpast
    refine ⟨fun cause hfires => congrArg Host.Outcome.next ?_, fun hfires => congrArg Host.Outcome.next ?_⟩
    · exact hdue.trans (congrArg (Option.elim · _ _) hfires)
    · exact hdue.trans (congrArg (Option.elim · _ _) hfires)
  case undecided => exact fun g s hnone => congrArg Host.Outcome.next (decideGroup_nothing hnone)
  case drive => exact fun pin due rest s hq => trigIoTimedDrive_drives hq
  case undriven => exact fun pin s hq => trigIoTimedDrive_idle hq
  case pulse => exact fun pin s hlive => drivePin_drives pin.val hlive
  case ends => exact fun pin e s hend => trigIoPulseEnd_ends hend
  case endless => exact fun pin s hend => trigIoPulseEnd_idle hend

end Sys2Proof.Machine
end

section
/-! SWEEP_SET and SWEEP_RUN, a unit's decided blocks and its flush period (R412, R413, R426, R430, R434–R436), and the statement they
settle. -/

namespace Sys2Proof.Machine

variable {d : Desc} {s : State} {u t : Nat}

/-! ### SWEEP_SET -/

/-- The set-up that SWEEP_SET names, with the shapes of its rows on its channel (R418, R434). -/
def State.sweepSetUp (s : State) (d : Desc) : Sweep :=
  { sweepOf d with phi := shapes (sweepOf d).type (min 4096 (sweepOf d).nr) (s.rowFreqs (sweepOf d)) }

/-- The unit that SWEEP_SET names or, with handle 0, claims: the lowest free one (R434). -/
def State.sweepUnit (s : State) (d : Desc) : Option Nat :=
  if d.handle = 0 then s.claimIdx (if s.ident.small then 1 else 2) fun u => !(s.sweep u).claimed else some (hIdx d.handle)

/-- SWEEP_SET passes the checks of R412 and R435 and sets unit u. -/
structure SweepAllowed (d : Desc) (u : Nat) (s : State) : Prop where
  channel   : s.valid 2 (BitVec.ofNat 32 (d.u 0x08 4)) = true
  cands     : s.valid 3 (sweepOf d).candRegion = true
  history   : s.valid 3 (sweepOf d).histRegion = true
  idle      : d.handle ≠ 0 → (s.sweep (hIdx d.handle)).run = false ∧ (s.sweep (hIdx d.handle)).stopping = []
  transform : (s.chan (sweepOf d).chan).sp.type ≠ 0
  fields    : sweepOk s d (s.sweepSetUp d) = true
  unit      : s.sweepUnit d = some u
  candsFree : s.writerBusy (hIdx (sweepOf d).candRegion) (.sweepCand u) = false
  histFree  : s.writerBusy (hIdx (sweepOf d).histRegion) (.sweepHist u) = false
  apart     : (sweepOf d).candRegion ≠ (sweepOf d).histRegion
  rate      : (sweepOf d).nr * (s.stream (s.chan (sweepOf d).chan).stream).par.fs ≤
    1000000000 * (s.chan (sweepOf d).chan).sp.h * (s.chan (sweepOf d).chan).fe.d

/-- The state in which unit u has the set-up that SWEEP_SET names and writes both of its regions; its generation and its counters stay. -/
def State.sweepSet (s : State) (d : Desc) (u : Nat) : State :=
  let x := s.sweepSetUp d
  ((((s.dropWriter (.sweepCand u)).dropWriter (.sweepHist u)).setWriter (hIdx x.candRegion) (.sweepCand u)).setWriter
    (hIdx x.histRegion) (.sweepHist u)).setSweep u fun o => { x with
      gen := o.gen, dropped := o.dropped, evtLimited := o.evtLimited, sums := List.replicate x.nt [], noise := List.replicate (7 * x.nt) 0 }

namespace SweepAllowed

/-- The handles that it names are good: not BAD_HANDLE. -/
theorem not_badHandle (h : SweepAllowed d u s) :
    (!s.valid 2 (BitVec.ofNat 32 (d.u 0x08 4)) || !s.valid 3 (sweepOf d).candRegion || !s.valid 3 (sweepOf d).histRegion) = false := by
  simp only [h.channel, h.cands, h.history, Bool.not_true, Bool.or_self]

/-- The unit is idle, and the channel has a transform: not WRONG_STATE. -/
theorem not_wrongState (h : SweepAllowed d u s) :
    ((!decide (d.handle = 0) && ((s.sweep (hIdx d.handle)).run || !(s.sweep (hIdx d.handle)).stopping.isEmpty)) ||
      decide ((s.chan (sweepOf d).chan).sp.type = 0)) = false := by
  by_cases hnew : d.handle = 0
  · simp [hnew, h.transform]
  · obtain ⟨hrun, hstopping⟩ := h.idle hnew
    simp [hrun, hstopping, h.transform]

/-- Its regions are two, each free or its own: not RESOURCE_BUSY. -/
theorem not_resourceBusy (h : SweepAllowed d u s) :
    (s.writerBusy (hIdx (sweepOf d).candRegion) (.sweepCand u) || s.writerBusy (hIdx (sweepOf d).histRegion) (.sweepHist u) ||
      decide ((sweepOf d).candRegion = (sweepOf d).histRegion)) = false := by
  simp only [h.candsFree, h.histFree, h.apart, decide_false, Bool.or_self]

end SweepAllowed

/-- With a type a command that passes the checks sets its unit, and answers the unit, its greatest delay and its handle (R412, R435). -/
theorem sweepSetBody_set (htype : d.u 0x0C 1 ≠ 0) (h : SweepAllowed d u s) :
    sweepSetBody d s = .done .ok u (s.sweepSetUp d).maxDelay ((s.sweepSet d u).handleOf 6 u) (s.sweepSet d u) := by
  have hfields := h.fields
  have hunit := h.unit
  simp only [State.sweepSetUp] at hfields
  simp only [State.sweepUnit] at hunit
  simp only [sweepSetBody, htype, h.not_badHandle, h.not_wrongState, hfields, hunit, h.not_resourceBusy,
    Nat.not_lt.2 h.rate, Bool.not_true, Bool.false_eq_true, if_false]
  rfl

/-- Type 0 on an idle unit frees it and both its regions (R435). -/
theorem sweepSetBody_free (hold : d.handle ≠ 0) (htype : d.u 0x0C 1 = 0) (hrun : (s.sweep (hIdx d.handle)).run = false)
    (hstopping : (s.sweep (hIdx d.handle)).stopping = []) (hclean : d.clean [(0x08, 0x2E)] = true) (hflags : d.u 0x0E 1 ≤ 15)
    (hwidths : d.u 0x0F 1 ≤ 127) :
    sweepSetBody d s = .done .ok (hIdx d.handle) 0 d.handle (s.sweepFree (hIdx d.handle)) := by
  simp only [sweepSetBody, hold, htype, hrun, hstopping, hclean, Nat.not_lt.2 hflags, Nat.not_lt.2 hwidths, List.isEmpty_nil, decide_false,
    Bool.not_true, Bool.or_self, Bool.false_eq_true, if_false, if_true]

/-! ### SWEEP_RUN -/

/-- Two updates of a sweep unit are one. -/
theorem setSweep_setSweep {f g : Sweep → Sweep} : (s.setSweep u f).setSweep u g = s.setSweep u fun x => g (f x) := by
  simp only [State.setSweep, upd_upd]

/-- The stop of unit u takes effect: it rests, its grant is gone, and its open record closes if a slot is free (R436). -/
def State.sweepHalt (s : State) (u : Nat) : State × Bool :=
  (s.setSweep u fun x => { x with stopping := [], run := false, grant := 0 }).sweepRecord u

section
variable (hclean : d.clean [(0x08, 1), (0x10, 8)] = true)
include hclean

/-- A stop of an idle unit has nothing to stop (R436). -/
theorem sweepRunBody_stopIdle (hstop : d.u 0x08 1 = 0) (hrun : (s.sweep (hIdx d.handle)).run = false)
    (hstopping : (s.sweep (hIdx d.handle)).stopping = []) : sweepRunBody d s = .done .ok 0 0 d.handle s := by
  simp [sweepRunBody, hclean, hstop, hrun, hstopping]

/-- A stop waits for the spectrum boundary while the unit's channel emits, and behind a stop whose record has no slot (R436). -/
theorem sweepRunBody_stopWaits (hstop : d.u 0x08 1 = 0)
    (hwait : (s.sweep (hIdx d.handle)).run = true ∧ (s.chan (s.sweep (hIdx d.handle)).chan).emits = true ∨
      (s.sweep (hIdx d.handle)).run = false ∧ (s.sweep (hIdx d.handle)).stopping ≠ []) :
    sweepRunBody d s = .wait .point d.handle (s.setSweep (hIdx d.handle) fun x => { x with stopping := x.stopping ++ [d.ring] }) := by
  have hchan (f : Sweep → Sweep) (i : Nat) : (s.setSweep (hIdx d.handle) f).chan i = s.chan i := rfl
  rcases hwait with ⟨hrun, hemits⟩ | ⟨hrun, hstopping⟩
  · simp [sweepRunBody, hclean, hstop, hrun, hchan, hemits]
  · simp [sweepRunBody, hclean, hstop, hrun, hstopping]

/-- Without spectra a stop takes effect at once: the grant goes and the record closes (R436). -/
theorem sweepRunBody_stopSilent (hstop : d.u 0x08 1 = 0) (hrun : (s.sweep (hIdx d.handle)).run = true)
    (hsilent : (s.chan (s.sweep (hIdx d.handle)).chan).emits = false) (hslot : (s.sweepHalt (hIdx d.handle)).2 = true)
    (hqueue : ((s.sweepHalt (hIdx d.handle)).1.sweep (hIdx d.handle)).queue = []) :
    sweepRunBody d s = .done .ok 0 0 d.handle (s.sweepHalt (hIdx d.handle)).1 := by
  have hchan (f : Sweep → Sweep) (i : Nat) : (s.setSweep (hIdx d.handle) f).chan i = s.chan i := rfl
  rw [State.sweepHalt] at hslot hqueue ⊢
  simp [sweepRunBody, hclean, hstop, hrun, hchan, hsilent, setSweep_setSweep, hslot, hqueue]

/-- A start of an idle unit asks for its power, and begins at its channel's next spectrum, a row mask that waits in force (R413, R436). -/
theorem sweepRunBody_start (hstart : d.u 0x08 1 = 1) (hrun : (s.sweep (hIdx d.handle)).run = false)
    (hstopping : (s.sweep (hIdx d.handle)).stopping = []) :
    sweepRunBody d s = .need (.sweep (hIdx d.handle)) 1 3400 d.handle s fun s => .done .ok 0 0 d.handle
      ((s.setSweep (hIdx d.handle) fun x => { x with run := true, restart := true }).sweepMask (hIdx d.handle) 0) := by
  simp [sweepRunBody, hclean, hstart, hrun, hstopping]

/-- The open record closes in a free slot (R430, R436). -/
theorem sweepRunBody_close (hclose : d.u 0x08 1 = 2) (hslot : (s.sweepRecord (hIdx d.handle)).2 = true) :
    sweepRunBody d s = .done .ok 0 0 d.handle (s.sweepRecord (hIdx d.handle)).1 := by
  simp [sweepRunBody, hclean, hclose, hslot]

/-- A row mask is read from the host (R436). -/
theorem sweepRunBody_mask (hmask : d.u 0x08 1 = 3) (haddr : addrOk (d.u 0x10 8) 512 8 = true) :
    sweepRunBody d s = readBuffer d (d.u 0x10 8) 512 s := by
  simp [sweepRunBody, hclean, hmask, haddr]

end

/-! ### A unit's events -/

/-- A unit whose reads of its history met `lost`: those cells are zero, their columns flagged (R546). -/
def Sweep.lose (x : Sweep) (lost : List (Nat × Nat)) : Sweep :=
  { x with hist := x.hist.map fun (k : SweepCol) => if lost.any (fun z => z.1 == k.m) then
      { k with cells := k.cells.mapIdx (fun r v => if lost.contains (k.m, r) then 0 else v), flags := k.flags ||| fPoison } else k }

/-- A block that can be decided gives its candidates, in order (R426). -/
theorem sweepBlockDecided_decides {u : Fin 2} {lost : List (Nat × Nat)} {waits : Nat} {x : Sweep} {cs : List Cand}
    (hblock : ((s.sweep u.val).lose lost).nextBlock ((s.chan (s.sweep u.val).chan).sp.h * (s.chan (s.sweep u.val).chan).fe.d) = some (x, cs)) :
    execSweepBlockDecided u ⟨lost, waits⟩ s = .next (cs.foldl (fun s k => s.sweepCand u.val k)
      (((s.overrun 3 waits).storeFaults (hIdx (s.sweep u.val).histRegion) 3
        (lost.map fun z => (((s.sweep u.val).lose lost).columnAt z.1 + 2 * z.2) / 32).eraseDups).setSweep u.val fun _ => x)) := by
  rw [Sweep.lose] at hblock
  simp only [execSweepBlockDecided, hblock]
  rfl

theorem sweepBlockDecided_idle {u : Fin 2} {lost : List (Nat × Nat)} {waits : Nat}
    (hnone : ((s.sweep u.val).lose lost).nextBlock ((s.chan (s.sweep u.val).chan).sp.h * (s.chan (s.sweep u.val).chan).fe.d) = none) :
    execSweepBlockDecided u ⟨lost, waits⟩ s = .next s := by
  rw [Sweep.lose] at hnone
  simp only [execSweepBlockDecided, hnone]

/-- The end of the flush period closes the open record (R430). -/
theorem sweepFlushPeriod_closes {u : Fin 2} (hopen : (s.sweep u.val).recStart = some t)
    (hgoes : (s.sweep u.val).stopping = [] ∨ (s.sweep u.val).run = true) :
    execSweepFlushPeriod u s = .next ((s.until (t + (s.sweep u.val).flushMs * 1000000)).sweepRecord u.val).1 := by
  have hnoStop : (!(s.sweep u.val).stopping.isEmpty && !(s.sweep u.val).run) = false := by
    rcases hgoes with hstopping | hrun
    · simp [hstopping]
    · simp [hrun]
  simp only [execSweepFlushPeriod, hopen, hnoStop, Bool.false_eq_true, if_false]

/-- With a stop whose record had no slot it tries that stop again (R430, R436). -/
theorem sweepFlushPeriod_stops {u : Fin 2} (hopen : (s.sweep u.val).recStart = some t) (hstopping : (s.sweep u.val).stopping ≠ [])
    (hrun : (s.sweep u.val).run = false) :
    execSweepFlushPeriod u s = .next ((s.until (t + (s.sweep u.val).flushMs * 1000000)).sweepStop u.val) := by
  have hstop : (!(s.sweep u.val).stopping.isEmpty && !(s.sweep u.val).run) = true := by simp [hstopping, hrun]
  simp only [execSweepFlushPeriod, hopen, hstop, if_true]

theorem sweepFlushPeriod_idle {u : Fin 2} (hnone : (s.sweep u.val).recStart = none) : execSweepFlushPeriod u s = .next s := by
  simp only [execSweepFlushPeriod, hnone]

/-! ### The statement -/

/-- Settles O45: each command passes its checks and does what its rule says, an event by whether its cause is there. -/
theorem sweepCommandsAndRows : Obligations.SweepCommandsAndRows := by
  unfold Obligations.SweepCommandsAndRows
  refine ⟨?new, ?change, ?free, ?run, fun _ _ _ => rfl, ?block, ?flush, fun u s hnone => sweepFlushPeriod_idle hnone⟩
  case new =>
    intro d u s hr a x0 c x hnew htype hchan hcands hhist htransform hok hclaim hcandsFree hhistFree hapart hrate b t
    exact exec_done rfl hr (sweepSetBody_set htype ⟨hchan, hcands, hhist, (absurd hnew ·), htransform, hok, (if_pos hnew).trans hclaim,
      hcandsFree, hhistFree, hapart, hrate⟩)
  case change =>
    intro d s hr a x0 c x u hold htype hchan hcands hhist hrun hstopping htransform hok hcandsFree hhistFree hapart hrate b t
    exact exec_done rfl hr (sweepSetBody_set htype ⟨hchan, hcands, hhist, fun _ => ⟨hrun, hstopping⟩, htransform, hok, if_neg hold,
      hcandsFree, hhistFree, hapart, hrate⟩)
  case free =>
    intro d s hr a hold htype hrun hstopping hclean hflags hwidths
    exact exec_done rfl hr (sweepSetBody_free hold htype hrun hstopping hclean hflags hwidths)
  case run =>
    intro d s hr hclean a u
    refine ⟨fun hstop hrun hstopping => ?stopIdle, fun hstop hwait => ?stopWaits, fun hstop hrun hsilent _ => ?stopSilent,
      fun hstart hrun hstopping hgrant => ?start, fun hclose hslot => ?close, fun hmask haddr hlink => ?mask⟩
    case stopIdle => exact exec_done rfl hr (sweepRunBody_stopIdle hclean hstop hrun hstopping)
    case stopWaits =>
      exact (exec_ready rfl hr).trans
        (congrArg (fun v => Host.Outcome.next (settle d.ring.val a v)) (sweepRunBody_stopWaits hclean hstop hwait))
    case stopSilent =>
      intro c hslot hqueue
      exact exec_done rfl hr (sweepRunBody_stopSilent hclean hstop hrun hsilent hslot hqueue)
    case start => exact exec_granted rfl hr (sweepRunBody_start hclean hstart hrun hstopping) rfl hgrant rfl
    case close => exact exec_done rfl hr (sweepRunBody_close hclean hclose hslot)
    case mask => exact exec_readBuffer rfl hr (sweepRunBody_mask hclean hmask haddr) rfl hlink
  case block => exact fun u lost waits s => ⟨fun x cs hblock => sweepBlockDecided_decides hblock, sweepBlockDecided_idle⟩
  case flush => exact fun u t s hopen => ⟨sweepFlushPeriod_closes hopen, sweepFlushPeriod_stops hopen⟩

end Sys2Proof.Machine
end

section
/-! ACQ_SET, ACQ_ARM, ACQ_DISARM and ACQ_FORCE (R438, R446, R448, R466–R470), and the statement they settle. -/

namespace Sys2Proof.Machine

variable {d : Desc} {s : State} {u : Nat} {h : Handle}

/-! ### The unit of a region -/

/-- The unit that writes a region is the region's unit (R438). -/
theorem unitOf_writer (hwriter : (s.region (hIdx h)).writer = .acq u) : s.unitOf h = some u := by
  simp only [State.unitOf, hwriter]

/-- A region without a writer has no unit. -/
theorem unitOf_noWriter (hwriter : (s.region (hIdx h)).writer = .none) : s.unitOf h = none := by
  simp only [State.unitOf, hwriter]

/-- A unit that is IDLE or DONE passes the check of its state. -/
theorem rests_decided {st : AcqSt} (hst : st = .idle ∨ st = .done) : (decide (st = .idle) || decide (st = .done)) = true := by
  simpa using hst

/-! ### ACQ_SET -/

/-- ACQ_SET names a source that it may take, with its fields in range (R439, R466, R467). -/
structure AcqAllowed (d : Desc) (s : State) : Prop where
  source  : (acqPar d).source ≠ 0
  stream  : (acqPar d).source = 1 → s.valid 1 (acqSource d) = true ∧ (s.stream (acqPar d).srcIdx).st ≠ .held
  channel : (acqPar d).source = 2 ∨ (acqPar d).source = 3 → s.valid 2 (acqSource d) = true
  product : (acqPar d).source = 3 → (s.chan (acqPar d).srcIdx).makes (acqPar d).code = true
  fields  : acqParOk s d (hIdx d.handle) = true

/-- A unit that is set up with ACQ_SET's parameters: IDLE, its counters at zero (R467). -/
def acqSetUp (d : Desc) : Acq := { Acq.reset with st := .idle, region := hIdx d.handle, par := acqPar d }

/-- Unit o set up again: its counters stay (R467). -/
def Acq.setAgain (o : Acq) (d : Desc) : Acq :=
  { acqSetUp d with early := o.early, hold := o.hold, overlap := o.overlap, dropped := o.dropped }

namespace AcqAllowed

/-- The source's handle is good: not BAD_HANDLE. -/
theorem not_badHandle (ha : AcqAllowed d s) :
    ((decide ((acqPar d).source = 1) && !s.valid 1 (acqSource d)) ||
      ((decide ((acqPar d).source = 2) || decide ((acqPar d).source = 3)) && !s.valid 2 (acqSource d))) = false := by
  have hstream := fun h1 => (ha.stream h1).1
  have hchannel := ha.channel
  simpa using ⟨hstream, hchannel⟩

/-- The source delivers what the unit takes: not WRONG_STATE. -/
theorem not_wrongState (ha : AcqAllowed d s) :
    ((decide ((acqPar d).source = 1) && decide ((s.stream (acqPar d).srcIdx).st = .held)) ||
      (decide ((acqPar d).source = 3) && inR (acqPar d).code 1 8 && !(s.chan (acqPar d).srcIdx).makes (acqPar d).code)) = false := by
  have hlive := fun h1 => (ha.stream h1).2
  have hmakes := fun h3 (_ : inR (acqPar d).code 1 8 = true) => ha.product h3
  simpa using ⟨hlive, hmakes⟩

end AcqAllowed

/-- A region that no writer has gets the lowest free unit, which becomes its writer (R438, R467). -/
theorem acqSetBody_new (ha : AcqAllowed d s) (hwriter : (s.region (hIdx d.handle)).writer = .none)
    (hfree : firstIdx 128 (fun u => (s.acq u).st == .none) = some u) :
    acqSetBody d s = .done .ok u (acqResultB s (acqSetUp d)) d.handle
      ((s.setAcq u fun _ => acqSetUp d).setWriter (hIdx d.handle) (.acq u)) := by
  simp only [acqSetBody, unitOf_noWriter hwriter, ha.source, ha.not_badHandle, ha.not_wrongState, ha.fields, hwriter, hfree,
    bne_self_eq_false, decide_true, Bool.true_or, Bool.not_true, Bool.false_or, Bool.false_eq_true, if_false]
  rfl

/-- A unit that is IDLE or DONE is set up again (R467). -/
theorem acqSetBody_again (ha : AcqAllowed d s) (hwriter : (s.region (hIdx d.handle)).writer = .acq u)
    (hst : (s.acq u).st = .idle ∨ (s.acq u).st = .done) :
    acqSetBody d s = .done .ok u (acqResultB s ((s.acq u).setAgain d)) d.handle
      ((s.setAcq u fun _ => (s.acq u).setAgain d).chanLevel (s.acq u)) := by
  have hrests : (decide ((s.acq u).st = .none) || decide ((s.acq u).st = .idle) || decide ((s.acq u).st = .done)) = true := by
    rw [Bool.or_assoc, rests_decided hst, Bool.or_true]
  simp only [acqSetBody, unitOf_writer hwriter, ha.source, ha.not_badHandle, hrests, ha.not_wrongState, ha.fields, Bool.not_true,
    Bool.false_or, Bool.false_eq_true, if_false]
  rfl

/-- Source 0 frees a unit that is IDLE or DONE, and its region (R467). -/
theorem acqSetBody_free (hsource : d.u 0x08 1 = 0) (hwriter : (s.region (hIdx d.handle)).writer = .acq u)
    (hst : (s.acq u).st = .idle ∨ (s.acq u).st = .done) (hclean : acqReserved d = true) :
    acqSetBody d s = .done .ok u 0 d.handle
      (((s.setAcq u fun _ => .reset).chanLevel (s.acq u)).setWriter (hIdx d.handle) .none) := by
  have hnone : (acqPar d).source = 0 := hsource
  simp only [acqSetBody, hnone, unitOf_writer hwriter, rests_decided hst, hclean, if_true]

/-! ### ACQ_ARM -/

/-- Arming clears the record slots: the records of unit o's region count as delivered, so each slot is free (R446, R468). Chunks stay. -/
def State.acqReclaim (s : State) (o : Acq) : State :=
  if o.par.mode ≤ 2 then
    { s with regions := upd s.regions o.region fun r => { r with recs := r.recs.map fun x : Rec => { x with delivered := true } } }
  else s

/-- An armed unit, with nothing of an earlier capture: it takes items from the first at or after `idx`, or from the next one (R468). -/
def Acq.started (o : Acq) (idx : Option Nat) : Acq :=
  { o with st := if o.par.mode = 3 then .streaming else .filling, armIdx := idx, hist := [], firstNo := none, cap := none, segment := 0
           holdEnd := 0, holdLeft := 0 }

/-- A unit that is IDLE or DONE starts; in modes 3 and 4 its region has a sink (R446, R468). -/
theorem acqArmBody_starts (hwriter : (s.region (hIdx d.handle)).writer = .acq u) (hst : (s.acq u).st = .idle ∨ (s.acq u).st = .done)
    (hsink : 3 ≤ (s.acq u).par.mode → (s.region (s.acq u).region).sink ≠ none) (hclean : d.clean [(0x08, 9)] = true)
    (hflags : d.u 0x10 1 < 2) :
    acqArmBody d s = .done .ok 0 0 d.handle
      ((s.acqReclaim (s.acq u)).setAcq u fun y => y.started (if dBit d 0x10 0 then some (d.u 0x08 8) else none)) := by
  have hdrains : (decide (3 ≤ (s.acq u).par.mode) && (s.region (s.acq u).region).sink.isNone) = false := by
    simpa [Option.isSome_iff_ne_none] using hsink
  simp only [acqArmBody, unitOf_writer hwriter, rests_decided hst, hdrains, hclean, Nat.not_le.2 hflags, decide_false, Bool.not_true,
    Bool.or_self, Bool.false_eq_true, if_false]
  rfl

/-! ### ACQ_DISARM -/

section
variable (hclean : d.clean [(0x08, 1)] = true) (hflags : d.u 0x08 1 < 2) (hwriter : (s.region (hIdx d.handle)).writer = .acq u)
include hclean hflags hwriter

/-- Outside a capture the unit is IDLE at once; a streaming unit's open chunk is cut first (R448, R469). -/
theorem acqDisarmBody_atOnce (hst : (s.acq u).st ≠ .capture) :
    acqDisarmBody d s = .done .ok 0 0 d.handle
      ((if (s.acq u).st = .streaming ∧ (s.acq u).par.source ≠ 3 then s.cutChunk u 0 else s).acqIdle u) := by
  by_cases hchunk : (s.acq u).st = .streaming ∧ (s.acq u).par.source ≠ 3
  · simp [acqDisarmBody, hclean, Nat.not_le.2 hflags, unitOf_writer hwriter, hchunk]
  · have hopen : (decide ((s.acq u).st = .streaming) && (s.acq u).par.source != 3) = false := by simpa using hchunk
    simp only [acqDisarmBody, hclean, Nat.not_le.2 hflags, unitOf_writer hwriter, hst, hchunk, hopen, decide_false, Bool.not_true,
      Bool.or_self, Bool.false_eq_true, if_false]

/-- Bit 0 cuts a capture, and the unit is IDLE (R469). -/
theorem acqDisarmBody_cuts (hst : (s.acq u).st = .capture) (hcut : dBit d 0x08 0 = true) :
    acqDisarmBody d s = .done .ok 0 0 d.handle ((s.acqBreak u fTruncated).acqIdle u) := by
  simp [acqDisarmBody, hclean, Nat.not_le.2 hflags, unitOf_writer hwriter, hst, hcut]

/-- Without bit 0 the command waits for the end of a capture (R469). -/
theorem acqDisarmBody_waits (hst : (s.acq u).st = .capture) (hcut : dBit d 0x08 0 = false) :
    acqDisarmBody d s = .wait .point d.handle (s.setAcq u fun y => { y with disarm := y.disarm ++ [d.ring] }) := by
  simp [acqDisarmBody, hclean, Nat.not_le.2 hflags, unitOf_writer hwriter, hst, hcut]

end

/-- A unit for whose end no ACQ_DISARM waits becomes IDLE, and nothing completes (R469). -/
theorem acqIdle_unawaited (hnone : (s.acq u).disarm = []) : s.acqIdle u = s.setAcq u fun y =>
    { y with disarm := [], st := .idle, cap := none, hist := [], firstNo := none, armIdx := none } := by
  simp only [State.acqIdle, hnone, List.foldl_nil]

/-! ### ACQ_FORCE -/

/-- ACQ_FORCE's Result A for what became of its trigger (R470). -/
def Decision.forceResult : Decision → Nat
  | .early => 1
  | .overlapping => 2
  | _ => 0

/-- The index of the forced trigger: the command's, or that of the next item of unit o (R470). -/
def State.forceIdx (s : State) (d : Desc) (o : Acq) : Nat :=
  if dBit d 0x10 0 then d.u 0x08 8 else ((s.nextItem o).getD 0) * s.acqPitch o

/-- The forced trigger of unit u (R470). -/
def State.acqForced (s : State) (d : Desc) (u : Nat) : State × Decision :=
  let o := s.acq u
  s.acqTrigger u (s.forceIdx d o) ((s.stream (s.acqStream o)).timeOf (s.forceIdx d o)) (causeMask 0 true false 0) o.par.line true

/-- A unit that takes triggers and that no ACQ_DISARM waits for is forced, and the command answers what became of it (R470). -/
theorem acqForceBody_forces (hclean : d.clean [(0x08, 9)] = true) (hflags : d.u 0x10 1 < 2)
    (hwriter : (s.region (hIdx d.handle)).writer = .acq u)
    (hst : (s.acq u).st = .filling ∨ (s.acq u).st = .armed ∨ (s.acq u).st = .capture ∨ (s.acq u).st = .holdoff)
    (hmode : (s.acq u).par.mode ≠ 3) (hnone : (s.acq u).disarm = []) :
    acqForceBody d s = .done .ok (s.acqForced d u).2.forceResult 0 d.handle (s.acqForced d u).1 := by
  have htakes : (decide ((s.acq u).st = .filling) || decide ((s.acq u).st = .armed) || decide ((s.acq u).st = .capture) ||
      decide ((s.acq u).st = .holdoff)) = true := by simpa [or_assoc] using hst
  simp only [acqForceBody, hclean, Nat.not_le.2 hflags, unitOf_writer hwriter, htakes, hmode, hnone, List.isEmpty_nil, decide_false,
    Bool.not_true, Bool.or_self, Bool.false_eq_true, if_false]
  change (match s.acqForced d u with
    | (t, .early) => Verdict.done .ok 1 0 d.handle t
    | (t, .overlapping) => .done .ok 2 0 d.handle t
    | (t, _) => .done .ok 0 0 d.handle t) = _
  obtain ⟨t, decision⟩ := s.acqForced d u
  cases decision <;> rfl

/-! ### The statement -/

/-- Settles O43: each command passes its checks and does to its unit what its rule says. -/
theorem acquisitionCommands : Obligations.AcquisitionCommands := by
  unfold Obligations.AcquisitionCommands
  refine ⟨?new, ?again, ?free, ?arm, ?disarm, ?disarmCapture, fun u s hnone => acqIdle_unawaited hnone, ?force⟩
  case new =>
    intro d u s hr a i p x hsource hstream hchannel hproduct hfields hwriter hfree
    exact exec_done rfl hr (acqSetBody_new ⟨hsource, hstream, hchannel, hproduct, hfields⟩ hwriter hfree)
  case again =>
    intro d u s hr a i p o x hsource hstream hchannel hproduct hfields hwriter hst
    exact exec_done rfl hr (acqSetBody_again ⟨hsource, hstream, hchannel, hproduct, hfields⟩ hwriter hst)
  case free =>
    intro d u s hr a hsource hwriter hst hclean
    exact exec_done rfl hr (acqSetBody_free hsource hwriter hst hclean)
  case arm =>
    intro d u s hr a o hwriter hst hsink hclean hflags idx b
    exact exec_done rfl hr (acqArmBody_starts hwriter hst hsink hclean hflags)
  case disarm =>
    intro d u s hr a hclean hflags hwriter hst b
    exact exec_done rfl hr (acqDisarmBody_atOnce hclean hflags hwriter hst)
  case disarmCapture =>
    intro d u s hr a hclean hflags hwriter hst
    refine ⟨fun hcut => ?cuts, fun hcut => ?waits⟩
    case cuts => exact exec_done rfl hr (acqDisarmBody_cuts hclean hflags hwriter hst hcut)
    case waits =>
      exact (exec_ready rfl hr).trans
        (congrArg (fun v => Host.Outcome.next (settle d.ring.val a v)) (acqDisarmBody_waits hclean hflags hwriter hst hcut))
  case force =>
    intro d u s hr a o hclean hflags hwriter hst hmode hnone xt r
    exact exec_done rfl hr (acqForceBody_forces hclean hflags hwriter hst hmode hnone)

end Sys2Proof.Machine
end

section
/-! SUPPORT. A measurement-processor core after an update of the cores, and what its output records, leaving RUNNING and MP_STOP do to it
(R500, R501, R508, R509, R512). -/

namespace Sys2Proof.Machine

variable {s t : State} {c x : Nat} {d : Desc}

/-! ### Updates of the cores -/

/-- A change of the cores alone. -/
theorem kept_mps (v : Vector Mp 16) : Kept [.mps] s { s with mps := v } := by
  refine ⟨rfl, fun p hp => ?_⟩
  cases p with
  | mps => simp at hp
  | _ => rfl

/-- A core of the part after its own update. -/
theorem mp_setMp_same (hc : c < 16) {f : Mp → Mp} : (s.setMp c f).mp c = f (s.mp c) := nth_upd_same hc

/-- What an update of one element leaves of each value, it leaves of every element. -/
theorem nth_upd_field {α β : Type} {n i j : Nat} {v : Vector α n} {f : α → α} {e : α} (g : α → β) (hf : ∀ y, g (f y) = g y) :
    g (nth (upd v i f) j e) = g (nth v j e) := by
  by_cases hij : i = j
  · subst hij
    by_cases hi : i < n
    · rw [nth_upd_same hi, hf]
    · simp only [upd, hi, dif_neg, not_false_eq_true]
  · rw [nth_upd_ne hij]

/-- A final completion leaves the cores. -/
theorem mp_finish {r a b : Nat} {st : Status} : (s.finish r st a b).mp x = s.mp x := by
  simp only [State.mp, finish_parts]

/-! ### Output records -/

/-- A core that takes a copy of a record keeps its generation (R495). -/
theorem gen_copyToMps (i seq : Nat) (hdr payload : List Byte) : ((s.copyToMps i seq hdr payload).mp x).gen = (s.mp x).gen := by
  simp only [State.mp, State.copyToMps, nth]
  split
  · rw [Vector.getElem_map]
    split <;> rfl
  · rfl

/-- A record that is appended to a region leaves every core's generation. -/
theorem gen_appendRecord {i : Nat} {h : Hdr} {payload : List Byte} (ht : s.appendRecord i h payload = some t) :
    (t.mp x).gen = (s.mp x).gen := by
  obtain ⟨o, -, rfl⟩ := Option.map_eq_some_iff.1 ht
  exact gen_copyToMps ..

/-- The state with output record o of core c appended to the core's output region, where it finds room (R500). -/
def State.mpAppend (s : State) (c : Nat) (o : MpOut) : Option State :=
  s.appendRecord (hIdx (s.mp c).outReg) (o.header (s.mp c).gapNext) (padTo 8 (o.words.flatMap fun w => le 4 w.toNat))

/-- The oldest output record enters the region, or is dropped and counted, and the next one carries GAP (R500, R501). The appending goes
under a name of its own, so that the kernel does not compute the place of the record. -/
theorem mpWrite_cons {o : MpOut} {rest : List MpOut} (hq : (s.mp c).outq = o :: rest) : s.mpWrite c = (s.mpAppend c o).elim
    (s.setMp c fun m => { m with outq := rest, dropped := satN 65535 (m.dropped + 1), gapNext := true })
    fun t => t.setMp c fun m => { m with outq := rest, gapNext := false } := by
  unfold State.mpWrite State.mpAppend
  obtain ⟨append, happend⟩ : ∃ f, f = s.appendRecord := ⟨_, rfl⟩
  rw [← happend]
  simp only [hq]
  cases append (hIdx (s.mp c).outReg) (o.header (s.mp c).gapNext) (padTo 8 (o.words.flatMap fun w => le 4 w.toNat)) <;> rfl

/-- A core without output records writes none. -/
theorem mpWrite_none (hq : (s.mp c).outq = []) : s.mpWrite c = s := by
  simp only [State.mpWrite, hq]

theorem gen_mpWrite : ((s.mpWrite c).mp x).gen = (s.mp x).gen := by
  cases hq : (s.mp c).outq with
  | nil => rw [mpWrite_none hq]
  | cons o rest =>
    rw [mpWrite_cons hq]
    cases ht : s.mpAppend c o with
    | none => exact nth_upd_field Mp.gen fun _ => rfl
    | some t =>
      refine Eq.trans (nth_upd_field Mp.gen fun _ => ?_) (gen_appendRecord ht)
      rfl

theorem gen_mpFlush : ((s.mpFlush c).mp x).gen = (s.mp x).gen :=
  List.foldlRecOn (motive := fun t : State => (t.mp x).gen = (s.mp x).gen) _ _ rfl fun _ ht _ _ => gen_mpWrite.trans ht

/-! ### Leaving RUNNING -/

/-- A core that leaves RUNNING has the state it leaves for and no grant, and keeps its generation (R508). -/
theorem mp_mpLeave (hc : c < 16) (st : MpSt) :
    ((s.mpLeave c st).mp c).st = st ∧ ((s.mpLeave c st).mp c).grant = 0 ∧ ((s.mpLeave c st).mp c).gen = (s.mp c).gen := by
  have hleft : (s.mpLeave c st).mp c = { (s.mpFlush c).mp c with
      st := st, filled := [], heldIn := [], heldOut := none, arriving := [], waitIn := false, waitOut := false, grant := 0 } :=
    mp_setMp_same (s := (s.mpFlush c).dropWriter (.mp c)) hc
  rw [hleft]
  exact ⟨rfl, rfl, gen_mpFlush⟩

/-- A core that is unloaded is EMPTY with the next generation (R92, R509). -/
theorem mp_mpUnload (hc : c < 16) : (s.mpUnload c).mp c = { (s.mp c).cleared with gen := nextGen (s.mp c).gen } := mp_setMp_same hc

/-- MP_STOP with UNLOAD of a RUNNING core. -/
theorem mpStopNow_unloads (hrun : (s.mp c).st = .running) (hunload : dBit d 0x08 1 = true) :
    s.mpStopNow d c = (s.mpLeave c .loaded).mpUnload c := by
  simp only [State.mpStopNow, hrun, hunload, if_true]

/-- MP_STOP without UNLOAD of a RUNNING core. -/
theorem mpStopNow_keeps (hc : c < 16) (hrun : (s.mp c).st = .running) (hkeep : dBit d 0x08 1 = false) :
    s.mpStopNow d c = s.mpLeave c .loaded := by
  obtain ⟨hst, -, -⟩ := mp_mpLeave (s := s) hc .loaded
  simp only [State.mpStopNow, hrun, hkeep, hst, reduceCtorEq, Bool.false_eq_true, if_true, if_false]

/-- A core that does not run does not start by MP_STOP. -/
theorem mpStopNow_not_running (hc : c < 16) (hst : (s.mp c).st ≠ .running) : ((s.mpStopNow d c).mp c).st ≠ .running := by
  simp only [State.mpStopNow, hst, if_false]
  split
  · rw [mp_mpUnload hc]
    simp [Mp.cleared, Mp.reset]
  · split
    · rw [mp_setMp_same hc]
      simp
    · exact hst

/-- Nor by the commands that wait for its end. -/
theorem mpDrainCheck_not_running (hc : c < 16) (hst : (s.mp c).st ≠ .running) : ((s.mpDrainCheck c).mp c).st ≠ .running := by
  unfold State.mpDrainCheck
  split
  · refine List.foldlRecOn (motive := fun t : State => (t.mp c).st ≠ .running) _ _ hst fun t ht r _ => ?_
    split
    · split
      · rw [mp_finish]
        exact mpStopNow_not_running hc ht
      · rw [mp_finish]
        exact ht
    · exact ht
  · exact hst

/-- A core that has trapped does not run (R512). -/
theorem mpTrap_not_running (hc : c < 16) (cause detail : Nat) : ((s.mpTrap c cause detail).mp c).st ≠ .running := by
  obtain ⟨hst, -, -⟩ := mp_mpLeave (s := s) hc .trapped
  refine mpDrainCheck_not_running hc ?_
  simp only [State.mp, note_parts]
  exact ne_of_eq_of_ne hst (by decide)

end Sys2Proof.Machine
end

section
/-! MP_LOAD, MP_START and MP_STOP (R493, R502–R509, R714), and the statement they settle. -/

namespace Sys2Proof.Machine

variable {d : Desc} {s t : State} {c i : Nat} {h : Handle} {w : Writer}

/-! ### MP_LOAD -/

/-- The core that MP_LOAD names or claims, as a handle (R64, R502). -/
def State.mpTarget (s : State) (d : Desc) : Handle := if d.handle = 0 then s.mpPick else d.handle

/-- MP_LOAD asks for its image on behalf of the core that it names or claims (R502). -/
theorem mpLoadBody_reads (hst : d.handle ≠ 0 → (s.mp (hIdx d.handle)).st ≠ .running) (hlife : s.sec.life ≠ .decommissioned)
    (hclean : d.clean [(0x08, 12)] = true) (haddr : addrOk (d.u 0x08 8) (d.u 0x10 4) 8 = true)
    (hlen : inR (d.u 0x10 4) 64 mpImageMax = true) (hpick : d.handle = 0 → s.mpPick ≠ 0) :
    mpLoadBody d s = readBuffer { d with handle := s.mpTarget d } (d.u 0x08 8) (d.u 0x10 4) s := by
  have hstate : (d.handle != 0 && decide ((s.mp (hIdx d.handle)).st = .running)) = false := by simpa using hst
  have hcore : (decide (d.handle = 0) && decide (s.mpPick = 0)) = false := by simpa using hpick
  simp only [mpLoadBody, hstate, hlife, hclean, haddr, hlen, hcore, decide_false, Bool.not_true, Bool.or_self, Bool.false_eq_true, if_false]
  rfl

/-- What MP_LOAD has found of its image when it ends with OK, and what it has done (R502, R504, R505, R714). -/
structure MpLoaded (buf : List Byte) (s : State) (k b : Nat) (t : State) : Prop where
  crc    : b = num buf 0x14 4
  prog   : 1 ≤ num buf 0x08 2 ∧ num buf 0x08 2 ≤ 4096
  entry  : num buf 0x0A 2 < num buf 0x08 2
  signed : num buf 0x10 4 = 0 → s.sec.life ≠ .owned
  loads  : ∃ g : MpImage, g.entry = num buf 0x0A 2 ∧ g.prog.length = num buf 0x08 2 ∧
    t = s.setMp k fun m => { m.cleared with st := .loaded, image := some g }

/-- A verdict of OK has passed a check that would have failed. -/
theorem passed_of_ok {p : Prop} [Decidable p] {st : Status} {u : State} {v : Verdict} {k b : Nat} (hst : st ≠ .ok)
    (hok : (if p then fail st d u else v) = .done .ok k b h t) : ¬p ∧ v = .done .ok k b h t := by
  by_cases hp : p
  · rw [if_pos hp] at hok
    exact absurd (Verdict.done.inj hok).1 hst
  · rw [if_neg hp] at hok
    exact ⟨hp, hok⟩

/-- An MP_LOAD that ends with OK has passed every check of its image. -/
theorem mpLoadData_ok {buf : List Byte} {k b : Nat} (hok : mpLoadData d buf s = .done .ok k b h t) : MpLoaded buf s k b t := by
  unfold mpLoadData at hok
  obtain ⟨-, hok⟩ := passed_of_ok (by decide) hok
  obtain ⟨-, hok⟩ := passed_of_ok (by decide) hok
  obtain ⟨himage, hok⟩ := passed_of_ok (by decide) hok
  obtain ⟨hsigned, hok⟩ := passed_of_ok (by decide) hok
  obtain ⟨-, hok⟩ := passed_of_ok (by decide) hok
  obtain ⟨-, rfl, rfl, -, rfl⟩ := Verdict.done.inj hok
  simp only [Bool.or_eq_true, not_or, inR, Bool.not_eq_true, Bool.not_eq_false', Bool.and_eq_true, decide_eq_true_eq, Nat.not_le]
    at himage
  obtain ⟨⟨⟨⟨⟨⟨-, hprog⟩, hentry⟩, -⟩, -⟩, -⟩, -⟩ := himage
  refine ⟨rfl, hprog, hentry, fun hunsigned howned => hsigned ?_, _, rfl, ?_, rfl⟩
  · simp [howned, hunsigned]
  · simp

/-! ### MP_START -/

/-- A region's handle depends on the regions alone. -/
theorem valid_region_of_regions (ht : t.regions = s.regions) : t.valid 3 h = s.valid 3 h := by
  simp only [State.valid, State.objGen, ht]

/-- A region that gets a writer keeps its handle. -/
theorem valid_region_setWriter : (s.setWriter i w).valid 3 h = s.valid 3 h := by
  have halloc := nth_upd_field (i := i) (j := hIdx h) (v := s.regions) (f := fun r => { r with writer := w }) (e := .reset) Region.alloc
    fun _ => rfl
  have hgen := nth_upd_field (i := i) (j := hIdx h) (v := s.regions) (f := fun r => { r with writer := w }) (e := .reset) Region.gen
    fun _ => rfl
  simp only [State.valid, State.objGen, State.setWriter, halloc, hgen]

/-- A region is free for the writer that it has. -/
theorem writerBusy_setWriter : (s.setWriter i w).writerBusy i w = false := by
  simp only [State.writerBusy, State.region, State.setWriter]
  by_cases hi : i < 256
  · simp [nth_upd_same hi]
  · simp [nth, hi, Region.reset]

/-- Leaving IDLE changes neither the regions nor the cores. -/
theorem toActive_regions_mps : s.toActive.regions = s.regions ∧ s.toActive.mps = s.mps := by
  simp only [State.toActive, State.restartTime]
  split
  · split <;> exact ⟨rfl, rfl⟩
  · split <;> exact ⟨rfl, rfl⟩

/-- A core's grant changes what the core holds, and no region. -/
theorem withGrant_mp (cost : Nat) : (withGrant s (.mp c) cost).regions = s.regions ∧
    (withGrant s (.mp c) cost).mps = upd s.mps c fun m => { m with grant := cost } := by
  obtain ⟨hregions, hmps⟩ := toActive_regions_mps (s := s)
  rw [← hregions, ← hmps]
  unfold withGrant State.charge
  dsimp only
  split <;> exact ⟨rfl, rfl⟩

/-- A core that starts: its data memory loaded, its registers at their start values, at the entry of its program (R476, R493, R508). -/
def Mp.started (m : Mp) (d : Desc) : Mp :=
  { m.cleared with
    st := .running, image := m.image, grant := m.grant, pc := (m.image.map fun g => g.entry).getD 0
    mem := MpMem.writes [] 0 ((m.image.map fun g => g.data).getD []), inReg := mpIn d, outReg := mpOut d, wIn := d.u 0x10 2
    wOut := d.u 0x12 2, kind := if dBit d 0x14 0 then some (d.u 0x15 1) else none, watchdog := d.u 0x18 4 }

/-- MP_START takes the output region for its core and asks for the core's grant (R506, R507). -/
theorem mpStartBody_asks (hin : s.valid 3 (mpIn d) = true) (hout : s.valid 3 (mpOut d) = true)
    (hst : (s.mp (hIdx d.handle)).st = .loaded ∨ (s.mp (hIdx d.handle)).st = .trapped)
    (hwaits : (s.ringsWaiting fun f => f.op == .mpStart && f.stage == .power && f.d.handle == d.handle) = [])
    (hclean : d.clean [(0x08, 14), (0x18, 4)] = true) (hflags : d.u 0x14 1 < 2) (hwi : mpWinOk (d.u 0x10 2) = true)
    (hwo : mpWinOk (d.u 0x12 2) = true) (hfits : mpFits d (s.mp (hIdx d.handle)) = true)
    (hroom : 2 * slotBytes (4 * d.u 0x12 2) ≤ (s.region (hIdx (mpOut d))).bytes)
    (hfree : s.writerBusy (hIdx (mpOut d)) (.mp (hIdx d.handle)) = false) (hne : mpIn d ≠ mpOut d) :
    mpStartBody d s = .need (.mp (hIdx d.handle)) 2 450 d.handle (s.setWriter (hIdx (mpOut d)) (.mp (hIdx d.handle))) (mpStartGrant d) := by
  have hrests : (decide ((s.mp (hIdx d.handle)).st = .loaded) || decide ((s.mp (hIdx d.handle)).st = .trapped)) = true := by simpa using hst
  simp only [mpStartBody, hin, hout, hrests, hwaits, hclean, Nat.not_le.2 hflags, hwi, hwo, hfits, Nat.not_lt.2 hroom, hfree, hne,
    List.isEmpty_nil, decide_false, Bool.not_true, Bool.or_self, Bool.false_eq_true, if_false]

/-- With its grant the core starts, where its regions and its windows are still good (R508). -/
theorem mpStartGrant_starts (hin : s.valid 3 (mpIn d) = true) (hout : s.valid 3 (mpOut d) = true)
    (hfits : mpFits d (s.mp (hIdx d.handle)) = true) (hfree : s.writerBusy (hIdx (mpOut d)) (.mp (hIdx d.handle)) = false) :
    mpStartGrant d s = .done .ok 0 0 d.handle
      ((s.setWriter (hIdx (mpOut d)) (.mp (hIdx d.handle))).setMp (hIdx d.handle) fun m => m.started d) := by
  simp only [mpStartGrant, hin, hout, hfits, hfree, Bool.not_true, Bool.or_self, Bool.false_eq_true, if_false]
  rfl

/-- What MP_START found before its grant still holds with the grant: the handles, the windows, the region's writer. -/
theorem mpStartGrant_withGrant (hin : s.valid 3 (mpIn d) = true) (hout : s.valid 3 (mpOut d) = true)
    (hfits : mpFits d (s.mp (hIdx d.handle)) = true) :
    let g := withGrant (s.setWriter (hIdx (mpOut d)) (.mp (hIdx d.handle))) (.mp (hIdx d.handle)) 450
    mpStartGrant d g = .done .ok 0 0 d.handle
      ((g.setWriter (hIdx (mpOut d)) (.mp (hIdx d.handle))).setMp (hIdx d.handle) fun m => m.started d) := by
  intro g
  obtain ⟨hregions, hmps⟩ := withGrant_mp (s := s.setWriter (hIdx (mpOut d)) (.mp (hIdx d.handle))) (c := hIdx d.handle) 450
  have himage : (g.mp (hIdx d.handle)).image = (s.mp (hIdx d.handle)).image := by
    rw [State.mp, hmps]
    exact nth_upd_field Mp.image fun _ => rfl
  refine mpStartGrant_starts ?_ ?_ ?_ ?_
  · rw [valid_region_of_regions hregions, valid_region_setWriter, hin]
  · rw [valid_region_of_regions hregions, valid_region_setWriter, hout]
  · rw [mpFits, himage]
    exact hfits
  · rw [State.writerBusy, State.region, hregions]
    exact writerBusy_setWriter

/-! ### MP_STOP -/

/-- MP_STOP without DRAIN, or of a drained core, stops the core at once (R509). -/
theorem mpStopBody_stops (hclean : d.clean [(0x08, 1)] = true) (hflags : d.u 0x08 1 < 4)
    (hnow : dBit d 0x08 0 = false ∨ (s.mp (hIdx d.handle)).drained = true) :
    mpStopBody d s = .done .ok 0 0 d.handle
      (((if dBit d 0x08 1 then s.mpWithdraw (hIdx d.handle) else s).mpStopNow d (hIdx d.handle)).mpDrainCheck (hIdx d.handle)) := by
  have hatOnce : (dBit d 0x08 0 && !(s.mp (hIdx d.handle)).drained) = false := by simpa [Classical.or_iff_not_imp_left] using hnow
  simp only [mpStopBody, hclean, Nat.not_le.2 hflags, hatOnce, decide_false, Bool.not_true, Bool.or_self, Bool.false_eq_true, if_false]

/-- With DRAIN it waits for a core that has records to take (R509). -/
theorem mpStopBody_waits (hclean : d.clean [(0x08, 1)] = true) (hflags : d.u 0x08 1 < 4) (hdrain : dBit d 0x08 0 = true)
    (hbusy : (s.mp (hIdx d.handle)).drained = false) : mpStopBody d s = .wait .unitDrain d.handle s := by
  simp only [mpStopBody, hclean, Nat.not_le.2 hflags, hdrain, hbusy, decide_false, Bool.not_true, Bool.not_false, Bool.or_self, Bool.and_self,
    Bool.false_eq_true, if_false, if_true]

/-- A RUNNING core that MP_STOP stops is LOADED, or EMPTY with the next generation with UNLOAD, and holds no grant (R509). -/
theorem mp_mpStopNow (hc : c < 16) (hrun : (s.mp c).st = .running) :
    ((s.mpStopNow d c).mp c).st = (if dBit d 0x08 1 then .empty else .loaded) ∧ ((s.mpStopNow d c).mp c).grant = 0 ∧
      (dBit d 0x08 1 = true → ((s.mpStopNow d c).mp c).gen = nextGen (s.mp c).gen) := by
  obtain ⟨hst, hgrant, hgen⟩ := mp_mpLeave (s := s) hc .loaded
  cases hunload : dBit d 0x08 1 with
  | true =>
    rw [mpStopNow_unloads hrun hunload, mp_mpUnload hc, hgen]
    exact ⟨rfl, rfl, fun _ => rfl⟩
  | false =>
    rw [mpStopNow_keeps hc hrun hunload]
    exact ⟨hst, hgrant, fun hset => by cases hset⟩

/-! ### The statement -/

/-- Settles O53: each command passes its checks and does to its core what its rule says. -/
theorem mpCommands : Obligations.MpCommands := by
  unfold Obligations.MpCommands
  refine ⟨?load, ?loaded, ?start, ?stop, fun d c s hrun => mp_mpStopNow c.isLt hrun, ?timeout, ?noTimeout⟩
  case load =>
    intro d s hr a hst hlife hclean haddr hlen hpick hlink h w io
    obtain ⟨f, hf, -⟩ := accepted_inflight .mpLoad d s
    rw [show Instr.mpLoad d = ringInstr .mpLoad d from rfl, exec_ready rfl hr]
    exact congrArg Host.Outcome.next ((congrArg (settle d.ring.val a) (mpLoadBody_reads hst hlife hclean haddr hlen hpick)).trans
      (settle_readBuffer (d := { d with handle := a.mpTarget d }) hf hlink))
  case loaded =>
    intro d buf t s h b hok hc p
    obtain ⟨hcrc, ⟨hmin, hmax⟩, hentry, hsigned, g, hgentry, hglen, rfl⟩ := mpLoadData_ok hok
    rw [mp_setMp_same hc]
    exact ⟨rfl, rfl, hcrc, congrArg some hgentry, congrArg some hglen, hmin, hmax, hentry, hsigned, kept_mps _⟩
  case start =>
    intro d s hr a c m n hin hout hst hwaits hclean hflags hwi hwo hfits hroom hfree hne b hgrant g t
    have hfits : mpFits d m = true := decide_eq_true hfits
    exact exec_granted rfl hr (mpStartBody_asks hin hout hst hwaits hclean hflags hwi hwo hfits hroom hfree hne) rfl hgrant
      (mpStartGrant_withGrant hin hout hfits)
  case stop =>
    intro d s hr hclean hflags a c
    refine ⟨fun hnow => ?_, fun hdrain hbusy => ?_⟩
    · exact exec_done rfl hr (mpStopBody_stops hclean hflags hnow)
    · exact (exec_ready rfl hr).trans
        (congrArg (fun v => Host.Outcome.next (settle d.ring.val a v)) (mpStopBody_waits hclean hflags hdrain hbusy))
  case timeout =>
    intro ring f s hwait hop
    simp only [exec, execMpStopDrainTimeout, hwait, hop, if_true]
  case noTimeout =>
    intro ring s hother
    simp only [exec, execMpStopDrainTimeout]
    cases hwait : s.waitsAt ring.val .unitDrain with
    | none => rfl
    | some f => exact congrArg Host.Outcome.next (if_neg (hother f hwait))

end Sys2Proof.Machine
end

section
/-! One instruction of a measurement processor and the events of a core (R478–R501, R512), and the statement they settle. -/

namespace Sys2Proof.Machine

variable {s t : State} {c w : Nat} {err : MpErr} {m : Mp} {i : MpIns} {free : BitVec 64}

/-! ### Both slots of an instruction -/

/-- The M slot's NOP leaves what the A slot has done (R484). -/
theorem mSlot_nop {m0 : Mp} {keep : List Nat} (hm : i.mop = 0) : i.mSlot m0 m keep = m := by
  simp only [MpIns.mSlot, hm]

/-- With the M slot's NOP control goes on at the end of the innermost loops, after one cycle (R490, R491). -/
theorem control_nop {m0 : Mp} (hm : i.mop = 0) : i.control m0 m =
    { m with cycles := m.cycles + 1, pc := (loopEnd m0.pc m0.loops).1, loops := (loopEnd m0.pc m0.loops).2 } := by
  simp only [MpIns.control, hm]

/-- A value saturated into a data register, with Z and N from the exact value (R217, R483). -/
theorem apply_dSat {r : Nat} {v : Int} (hm : i.mop = 0) (ha : i.aSlot m = dSat r v true) : (i.apply m free).1 = { m with
    d := upd m.d r fun _ => sat 18 v, z := v == 0, n := decide (v < 0), sat := m.sat || sat 18 v != v
    cycles := m.cycles + 1, pc := (loopEnd m.pc m.loops).1, loops := (loopEnd m.pc m.loops).2 } := by
  simp [MpIns.apply, ha, dSat, MpEff.none, putAll, mSlot_nop hm, control_nop hm, MpIns.clears, hm]

/-- A value saturated into an accumulator (R217, R483). -/
theorem apply_accSat {r : Nat} {v : Int} (hm : i.mop = 0) (ha : i.aSlot m = accSat [(r, v)]) : (i.apply m free).1 = { m with
    acc := upd m.acc r fun _ => sat 48 v, sat := m.sat || sat 48 v != v
    cycles := m.cycles + 1, pc := (loopEnd m.pc m.loops).1, loops := (loopEnd m.pc m.loops).2 } := by
  simp [MpIns.apply, ha, accSat, MpEff.none, putAll, mSlot_nop hm, control_nop hm, MpIns.clears, hm]

/-- The last instruction of a loop with passes left goes to the loop's first (R491). -/
theorem loopEnd_repeats {pc : Nat} {l : MpLoop} {r : List MpLoop} (hlast : l.last = pc) (hleft : 1 < l.left) :
    loopEnd pc (l :: r) = (l.first, { l with left := l.left - 1 } :: r) := by
  simp only [loopEnd, hlast, hleft, if_true]

/-- That of a loop's last pass leaves it for the loop around it (R491). -/
theorem loopEnd_leaves {pc : Nat} {l : MpLoop} {r : List MpLoop} (hlast : l.last = pc) (hleft : l.left ≤ 1) :
    loopEnd pc (l :: r) = loopEnd pc r := by
  simp only [loopEnd, hlast, Nat.not_lt.2 hleft, if_true, if_false]

/-! ### An instruction in the device -/

/-- The state with a core after an instruction that has taken effect. -/
def State.mpRan (s : State) (c : Nat) (m : Mp) (used : Bool) : State :=
  { s with mps := upd s.mps c fun _ => m, free := s.free + b2n used }

theorem mpRun_run {used : Bool} (h : (s.mp c).instr err (Config.freeValue s.free) = .run m used false) :
    s.mpRun c err = s.mpRan c m used := by
  simp only [State.mpRun, h, Bool.false_eq_true, if_false]
  rfl

theorem mpRun_halt {used : Bool} (h : (s.mp c).instr err (Config.freeValue s.free) = .run m used true) :
    s.mpRun c err = ((s.mpRan c m used).mpLeave c .loaded).mpDrainCheck c := by
  simp only [State.mpRun, h, if_true]
  rfl

theorem mpRun_waitIn (h : (s.mp c).instr err (Config.freeValue s.free) = .waitIn) :
    s.mpRun c err = (s.setMp c fun m => { m with waitIn := true }).mpDrainCheck c := by
  simp only [State.mpRun, h]

theorem mpRun_waitOut (h : (s.mp c).instr err (Config.freeValue s.free) = .waitOut) :
    s.mpRun c err = s.setMp c fun m => { m with waitOut := true } := by
  simp only [State.mpRun, h]

/-- An instruction that is not legal logs no error (R482, R512). -/
theorem mpRun_illegal {detail : Nat} (h : (s.mp c).instr err (Config.freeValue s.free) = .trap 3 detail) :
    s.mpRun c err = s.mpTrap c 3 detail := by
  simp only [State.mpRun, h]
  rfl

section
variable {c : Fin 16}

/-- A RUNNING core that waits for no window runs an instruction (R478). -/
theorem exec_mpInstruction (hrun : (s.mp c.val).st = .running) (hin : (s.mp c.val).waitIn = false) (hout : (s.mp c.val).waitOut = false) :
    exec (.mpInstruction c err) s = .next (s.mpRun c.val err) := by
  simp only [exec, execMpInstruction, hrun, hin, hout, decide_true, Bool.not_false, Bool.and_self, if_true]

/-- Any other core runs none. -/
theorem exec_mpInstruction_idle (h : (s.mp c.val).st ≠ .running ∨ (s.mp c.val).waitIn = true ∨ (s.mp c.val).waitOut = true) :
    exec (.mpInstruction c err) s = .next s := by
  have hidle : (decide ((s.mp c.val).st = .running) && !(s.mp c.val).waitIn && !(s.mp c.val).waitOut) = false := by
    rcases h with h | h | h <;> simp [h]
  simp only [exec, execMpInstruction, hidle, Bool.false_eq_true, if_false]

/-- A core runs on when the window has come that it waits for (R490). -/
theorem exec_mpMailboxWake (hrun : (s.mp c.val).st = .running) (hcome : (s.mp c.val).waitIn = true ∧ (s.mp c.val).filled ≠ [] ∨
    (s.mp c.val).waitOut = true ∧ (s.mp c.val).freeOut = some w) : exec (.mpMailboxWake c) s = .next (s.mpRun c.val .none) := by
  have hwakes : (((s.mp c.val).waitIn && !(s.mp c.val).filled.isEmpty) || ((s.mp c.val).waitOut && (s.mp c.val).freeOut.isSome)) = true := by
    rcases hcome with ⟨hwait, hfilled⟩ | ⟨hwait, hfree⟩
    · simp [hwait, hfilled]
    · simp [hwait, hfree]
  simp only [exec, execMpMailboxWake, hrun, hwakes, decide_true, Bool.and_self, if_true]

/-! ### Input records -/

/-- A record of a kind that the core does not take is passed over (R494). -/
theorem exec_mpInputDelivery_passes {k : Nat} {x : MpIn} {rest : List MpIn} (harr : (s.mp c.val).arriving = x :: rest)
    (hkind : (s.mp c.val).kind = some k) (hother : num x.hdr 12 1 ≠ k) :
    exec (.mpInputDelivery c) s = .next (s.setMp c.val fun m => { m with arriving := rest }) := by
  have hpass : ((s.mp c.val).kind.any fun k => num x.hdr 12 1 != k) = true := by simpa [hkind] using hother
  simp only [exec, execMpInputDelivery, harr, hpass, if_true]

section
variable {x : MpIn} {rest : List MpIn} (harr : (s.mp c.val).arriving = x :: rest) (hkind : ∀ k, (s.mp c.val).kind = some k → num x.hdr 12 1 = k)
include harr hkind

/-- A record that finds no free window is skipped and counted (R497). -/
theorem exec_mpInputDelivery_skips (hfull : (s.mp c.val).freeIn = none) : exec (.mpInputDelivery c) s = .next (s.setMp c.val fun m =>
    { m with arriving := rest, skipped := satN 65535 (m.skipped + 1), skipRec := satN (2 ^ 32 - 1) (m.skipRec + 1) }) := by
  have htakes : ((s.mp c.val).kind.any fun k => num x.hdr 12 1 != k) = false := by simpa [Option.any_eq_false] using hkind
  simp only [exec, execMpInputDelivery, harr, htakes, hfull, Bool.false_eq_true, if_false]

/-- A record enters a free window (R495). -/
theorem exec_mpInputDelivery_fills (hfree : (s.mp c.val).freeIn = some w) : exec (.mpInputDelivery c) s = .next (s.setMp c.val fun m =>
    { m with arriving := rest, filled := m.filled ++ [(w, x)], nextIn := 1 - w, skipRec := 0
             mem := MpMem.writes m.mem (m.inBase w) (m.windowWords x) }) := by
  have htakes : ((s.mp c.val).kind.any fun k => num x.hdr 12 1 != k) = false := by simpa [Option.any_eq_false] using hkind
  simp only [exec, execMpInputDelivery, harr, htakes, hfree, Bool.false_eq_true, if_false]

end

/-! ### The watchdog -/

/-- A RUNNING core past its watchdog's cycles, or in a wait, traps (R512). -/
theorem exec_mpWatchdogExpiry (hrun : (s.mp c.val).st = .running) (hset : (s.mp c.val).watchdog ≠ 0)
    (hdue : (s.mp c.val).watchdog ≤ (s.mp c.val).cycles ∨ (s.mp c.val).waitIn = true ∨ (s.mp c.val).waitOut = true) :
    exec (.mpWatchdogExpiry c) s = .next (s.mpTrap c.val 5 0) := by
  have hexpires : (decide ((s.mp c.val).st = .running) && (s.mp c.val).watchdog != 0 &&
      (decide ((s.mp c.val).watchdog ≤ (s.mp c.val).cycles) || (s.mp c.val).waitIn || (s.mp c.val).waitOut)) = true := by
    simpa [hrun, hset, or_assoc] using hdue
  simp only [exec, execMpWatchdogExpiry, hexpires, if_true]

/-- A core that does not run or has no watchdog does not expire. -/
theorem exec_mpWatchdogExpiry_idle (h : (s.mp c.val).st ≠ .running ∨ (s.mp c.val).watchdog = 0) :
    exec (.mpWatchdogExpiry c) s = .next s := by
  have hidle : (decide ((s.mp c.val).st = .running) && (s.mp c.val).watchdog != 0) = false := by
    rcases h with h | h <;> simp [h]
  simp only [exec, execMpWatchdogExpiry, hidle, Bool.false_and, Bool.false_eq_true, if_false]

end

/-! ### The statement -/

/-- Settles O54: the outcomes of an instruction and of a core's events, one rule each. -/
theorem mpCoreRows : Obligations.MpCoreRows := by
  unfold Obligations.MpCoreRows
  refine ⟨?run, ?halt, ?waits, fun c err s => exec_mpInstruction_idle, ?illegal, ?sum, ?product,
    fun pc l r hlast => ⟨loopEnd_repeats hlast, loopEnd_leaves hlast⟩, fun c w s => exec_mpMailboxWake, ?notRunning, ?nothing,
    fun c k x rest s => exec_mpInputDelivery_passes, ?input, ?output, ?watchdog,
    fun c cause detail s => mpTrap_not_running c.isLt cause detail⟩
  case run =>
    intro c err m used s hrun hin hout h
    rw [exec_mpInstruction hrun hin hout, mpRun_run h]
    rfl
  case halt =>
    intro c err m used s hrun hin hout h t
    rw [exec_mpInstruction hrun hin hout, mpRun_halt h]
    rfl
  case waits =>
    intro c err s hrun hin hout
    refine ⟨fun h => ?_, fun h => ?_⟩
    · rw [exec_mpInstruction hrun hin hout, mpRun_waitIn h]
    · rw [exec_mpInstruction hrun hin hout, mpRun_waitOut h]
  case illegal =>
    intro c detail s hrun hin hout h
    rw [exec_mpInstruction hrun hin hout, mpRun_illegal h]
  case sum =>
    intro i m free haop hmop hd v t
    have ht : t = _ := apply_dSat hmop (show i.aSlot m = dSat i.d v true by simp only [MpIns.aSlot, haop]; rfl)
    have hresult : t.dr i.d = sat 18 v := by rw [Mp.dr, ht, nth_upd_same hd]
    refine ⟨hresult, by rw [ht], by rw [ht], by rw [hresult, ht], fun j hj => ?_, by rw [ht], by rw [ht], by rw [ht], by rw [ht],
      fun hloops => ?_⟩
    · rw [Mp.dr, ht, nth_upd_ne (Ne.symm hj), Mp.dr]
    · rw [ht, hloops, loopEnd]
  case product =>
    intro i m free haop hmop ha v t
    have ht : t = _ := apply_accSat hmop (show i.aSlot m = accSat [(i.a, v)] by simp only [MpIns.aSlot, haop]; rfl)
    have hresult : t.ac i.a = sat 48 v := by rw [Mp.ac, ht, nth_upd_same ha]
    refine ⟨hresult, by rw [hresult, ht], by rw [ht], by rw [ht], by rw [ht], fun j hj => ?_⟩
    rw [Mp.ac, ht, nth_upd_ne (Ne.symm hj), Mp.ac]
  case notRunning =>
    intro c s hst
    refine ⟨?_, exec_mpWatchdogExpiry_idle (.inl hst)⟩
    simp only [exec, execMpMailboxWake, hst, decide_false, Bool.false_and, Bool.false_eq_true, if_false]
  case nothing =>
    intro c s
    refine ⟨fun harr => ?_, fun hq => ?_⟩
    · simp only [exec, execMpInputDelivery, harr]
    · simp only [exec, execMpOutputRecordWrite, mpWrite_none hq]
  case input =>
    intro c x rest w s m harr hkind
    exact ⟨exec_mpInputDelivery_skips harr hkind, exec_mpInputDelivery_fills harr hkind⟩
  case output =>
    intro c o rest s m hq p
    have hwrite : exec (.mpOutputRecordWrite c) s = .next (s.mpWrite c.val) := rfl
    refine ⟨fun t ht => ?_, fun ht => ?_⟩
    · rw [hwrite, mpWrite_cons hq, show s.mpAppend c.val o = some t from ht, Option.elim]
    · rw [hwrite, mpWrite_cons hq, show s.mpAppend c.val o = none from ht, Option.elim]
  case watchdog =>
    intro c s m
    exact ⟨exec_mpWatchdogExpiry, fun hoff => exec_mpWatchdogExpiry_idle (.inr hoff)⟩

end Sys2Proof.Machine
end

section
/-! The reset values, the byte lists, and the refresh, retraining and panic of the HBM's stacks (R528–R539). -/

namespace Sys2Proof.Machine

variable {s t : State} {k p : Nat}

/-! ### Reset and the byte lists -/

/-- Settles O3, value by value: each array of the reset state holds one value in every place. -/
theorem resetState : Obligations.ResetState := by
  unfold Obligations.ResetState
  refine ⟨rfl, rfl, rfl, rfl, rfl, rfl, rfl, rfl, rfl, rfl, rfl, rfl, rfl, rfl, rfl, rfl, ?_, ?_, ?_, ?_, ?_, ?_⟩
  case refine_1 =>
    simp [State.reset, Io.reset, Clk.reset, Pins.reset, Mp.reset, Sec.reset, CmdRing.reset, EvtRing.reset, Session.reset]
  case refine_2 => simp [State.reset, Stream.reset, Pins.reset]
  case refine_3 => simp [State.reset, Lane.reset, Group.reset]
  case refine_4 => simp [State.reset, Io.reset, DataRing.reset, Chan.reset, Sink.reset, Acq.reset]
  case refine_5 => simp [State.reset, Region.reset]
  case refine_6 => simp [State.reset, Sweep.reset]

/-- Settles O6: a write changes one byte of the list, a clearing its range. -/
theorem byteReadAfterWrite : Obligations.ByteReadAfterWrite :=
  ⟨fun _ _ _ _ hm => Mem.read_write hm, fun _ _ _ _ _ => Mem.read_clear⟩

/-! ### A stack's bit in a mask, and the parts of the HBM -/

/-- The bit that an update of a mask writes. -/
theorem getLsbD_setBit_same {w : Nat} {v : BitVec w} {i : Nat} : (setBit v i false).getLsbD i = false := by
  simp [setBit]
  omega

/-- A change of the HBM alone. -/
theorem kept_hbm (x : Hbm) : Kept [.hbm] s { s with hbm := x } := by
  refine ⟨rfl, fun p hp => ?_⟩
  cases p with
  | hbm => simp at hp
  | _ => rfl

/-- No port is in panic on a stack when no port's mask holds its bit. -/
theorem panicOn_eq_false (h : ∀ q : Fin 12, (nth s.hbm.panic q.val 0).getLsbD k = false) : s.panicOn k = false := by
  rw [State.panicOn, List.any_eq_false]
  intro b hb
  obtain ⟨i, hi, rfl⟩ := List.getElem_of_mem hb
  have hi' : i < 12 := by simpa using hi
  simpa [nth, hi'] using h ⟨i, hi'⟩

/-- With no other port in panic on a stack, the exit of one port leaves none. -/
theorem panicOn_exit (hp : p < 12) (h : ∀ q : Fin 12, q.val ≠ p → (nth s.hbm.panic q.val 0).getLsbD k = false) :
    (s.setHbm fun h => { h with panic := upd h.panic p fun b => setBit b k false }).panicOn k = false := by
  refine panicOn_eq_false fun q => ?_
  by_cases hq : q.val = p
  · rw [hq, State.setHbm, nth_upd_same hp, getLsbD_setBit_same]
  · rw [State.setHbm, nth_upd_ne (Ne.symm hq), h q hq]

/-! ### What a pseudo-channel makes up for at the end of a panic (R532, R534) -/

/-- A pseudo-channel runs its owed refreshes and its postponed retraining. -/
def Hbm.catchUp (h : Hbm) (pc : Nat) : Hbm :=
  let h := { h with owed := upd h.owed pc fun _ => 0 }
  if (nth h.retrainLate pc none).isSome then h.retrain pc else h

theorem catchUp_owed (h : Hbm) (pc : Nat) : (h.catchUp pc).owed = upd h.owed pc fun _ => 0 := by
  rw [Hbm.catchUp]; split <;> rfl

theorem catchUp_panic (h : Hbm) (pc : Nat) : (h.catchUp pc).panic = h.panic := by
  rw [Hbm.catchUp]; split <;> rfl

/-- No retraining of a pseudo-channel that has caught up stays postponed. -/
theorem catchUp_late_same {h : Hbm} {pc : Nat} (hpc : pc < 128) : nth (h.catchUp pc).retrainLate pc none = none := by
  rw [Hbm.catchUp]
  split
  · exact nth_upd_same hpc
  · next hsome => exact Option.not_isSome_iff_eq_none.1 hsome

/-- A postponed retraining is never put off anew by a pseudo-channel that catches up. -/
theorem catchUp_late_none {h : Hbm} {pc q : Nat} (hq : nth h.retrainLate q none = none) : nth (h.catchUp pc).retrainLate q none = none := by
  by_cases hne : pc = q
  · subst hne
    rw [Hbm.catchUp, if_neg (by simp [hq])]
    exact hq
  · rw [Hbm.catchUp]
    split
    · exact (nth_upd_ne hne).trans hq
    · exact hq

/-- The pseudo-channels of a list catch up, each once or more: exactly they owe nothing more. -/
theorem catchUps_owed {q : Nat} (hq : q < 128) : ∀ (l : List Nat) (h : Hbm),
    nth (l.foldl Hbm.catchUp h).owed q 0 = if q ∈ l then 0 else nth h.owed q 0
  | [], h => by simp
  | pc :: l, h => by
    rw [List.foldl_cons, catchUps_owed hq l, catchUp_owed]
    by_cases hl : q ∈ l
    · simp [hl]
    · by_cases hne : pc = q
      · subst hne
        simp [hl, nth_upd_same hq]
      · simp [hl, nth_upd_ne hne, Ne.symm hne]

theorem catchUps_late_none {q : Nat} : ∀ (l : List Nat) (h : Hbm), nth h.retrainLate q none = none →
    nth (l.foldl Hbm.catchUp h).retrainLate q none = none
  | [], _, hq => hq
  | _ :: l, _, hq => catchUps_late_none l _ (catchUp_late_none hq)

/-- No retraining of a listed pseudo-channel stays postponed. -/
theorem catchUps_late {q : Nat} (hq : q < 128) : ∀ (l : List Nat) (h : Hbm), q ∈ l → nth (l.foldl Hbm.catchUp h).retrainLate q none = none
  | pc :: l, h, hmem => by
    obtain rfl | hl := List.mem_cons.1 hmem
    · exact catchUps_late_none l _ (catchUp_late_same hq)
    · exact catchUps_late hq l _ hl

theorem catchUps_panic : ∀ (l : List Nat) (h : Hbm), (l.foldl Hbm.catchUp h).panic = h.panic
  | [], _ => rfl
  | _ :: l, _ => (catchUps_panic l _).trans (catchUp_panic ..)

/-- Updates of the HBM one after the other are one update of the HBM. -/
theorem setHbm_foldl {f : Hbm → Nat → Hbm} : ∀ (l : List Nat) (s : State),
    l.foldl (fun s pc => s.setHbm fun h => f h pc) s = s.setHbm fun h => l.foldl f h
  | [], _ => rfl
  | _ :: l, _ => setHbm_foldl l _

/-- The pseudo-channels of a stack. -/
theorem mem_stack_channels {pc : Nat} : pc ∈ (List.range 32).map (32 * k + ·) ↔ pc / 32 = k := by
  simp only [List.mem_map, List.mem_range]
  exact ⟨fun ⟨i, hi, h⟩ => by omega, fun h => ⟨pc % 32, by omega, by omega⟩⟩

/-- The exit of the last port from panic on a stack: the stack's pseudo-channels catch up (R528, R532, R534). -/
theorem exec_qosPanicExit_last {p : Fin 12} {k : Fin 4}
    (h : ∀ q : Fin 12, q ≠ p → (nth s.hbm.panic q.val 0).getLsbD k.val = false) :
    exec (.qosPanicExit p k) s = .next ((s.setHbm fun h => { h with panic := upd h.panic p.val fun b => setBit b k.val false }).setHbm fun h =>
      ((List.range 32).map (32 * k.val + ·)).foldl Hbm.catchUp h) := by
  have hnone := panicOn_exit (s := s) (k := k.val) p.isLt fun q hq => h q fun e => hq (congrArg Fin.val e)
  simp only [exec, execQosPanicExit, hnone, Bool.false_eq_true, if_false]
  exact congrArg _ (setHbm_foldl _ _)

/-! ### A refresh that comes due in panic (R532) -/

/-- A refresh due in panic on a stack that is up: the eighth owed one is forced, an earlier one owed. -/
theorem exec_refreshDue {pc : Fin 128} (hup : s.stackUp (pc.val / 32) = true) (hpanic : s.panicOn (pc.val / 32) = true) :
    exec (.refreshDue pc) s = .next { s with hbm :=
      let o := nth s.hbm.owed pc.val 0 + 1
      let h := { s.hbm with owedMax := upd s.hbm.owedMax (pc.val / 32) fun m => max m o }
      if 8 ≤ o then { h with owed := upd h.owed pc.val fun _ => o - 1, forced := upd h.forced (pc.val / 32) fun n => satN 65535 (n + 1) }
      else { h with owed := upd h.owed pc.val fun _ => o } } := by
  simp only [exec, execRefreshDue, hup, hpanic, State.setHbm, Bool.not_true, Bool.or_self, Bool.false_eq_true, if_false]

/-- Writing back what a place holds changes nothing. -/
theorem upd_nth {α : Type} {n i : Nat} {v : Vector α n} {d : α} : upd v i (fun _ => nth v i d) = v := by
  unfold upd nth
  split
  · exact Vector.set_getElem_self _
  · rfl

/-- Settles O49: each row of the stacks by the condition of its guard. -/
theorem hbmRows : Obligations.HbmRows := by
  unfold Obligations.HbmRows
  refine ⟨?wake, ?notWoken, ?refresh, ?noRefresh, ?noRetrain, ?entry, ?noEntry, ?exit, ?retrain, ?heat, ?notFitted⟩
  case wake =>
    intro k s hact hwake hq hfail
    simp only [exec, execStackWakeDone, hact, hwake, hq, hfail, decide_true, Bool.not_false, Bool.and_self, if_true]
  case notWoken =>
    intro k s hoff
    obtain h | h := hoff <;>
      simp only [exec, execStackWakeDone, h, Bool.and_false, Bool.false_and, Bool.not_true, Bool.false_eq_true, if_false]
  case refresh =>
    intro pc s hup hpanic
    have hk : pc.val / 32 < 4 := by omega
    refine ⟨_, exec_refreshDue hup hpanic, kept_hbm _, fun hfew => ?_, fun hmany => ?_, ?_⟩
    · simp only [if_neg (Nat.not_le.2 hfew), nth_upd_same pc.isLt, and_self]
    · simp only [if_pos hmany, nth_upd_same hk, Nat.add_sub_cancel, upd_nth, and_self]
    · dsimp only
      split <;> exact nth_upd_same hk
  case noRefresh =>
    intro pc s hoff
    obtain h | h := hoff <;>
      simp only [exec, execRefreshDue, h, Bool.not_false, Bool.or_true, Bool.true_or, if_true]
  case noRetrain =>
    intro pc s hdown
    simp only [exec, execRetrainDue, hdown, Bool.not_false, if_true]
  case entry =>
    intro p k s hp hup hout
    simp only [exec, execQosPanicEntry, hp, hup, hout, decide_true, Bool.not_false, Bool.and_self, if_true, State.setHbm]
  case noEntry =>
    intro p k s hoff
    obtain h | h | h := hoff
    · simp only [exec, execQosPanicEntry, show ¬ p.val ≤ 3 by omega, decide_false, Bool.false_and, Bool.false_eq_true, if_false]
    · simp only [exec, execQosPanicEntry, h, Bool.and_false, Bool.false_and, Bool.false_eq_true, if_false]
    · simp only [exec, execQosPanicEntry, h, Bool.not_true, Bool.and_false, Bool.false_eq_true, if_false]
  case exit =>
    intro p k s hothers
    refine ⟨_, exec_qosPanicExit_last hothers, kept_hbm _, ?_, fun pc => ⟨fun hin => ⟨?_, ?_⟩, fun hout => ?_⟩⟩
    · have hnone := panicOn_exit (s := s) (k := k.val) p.isLt fun q hq => hothers q fun e => hq (congrArg Fin.val e)
      exact (congrArg (fun v : Vector (BitVec 4) 12 => v.toList.any fun b => b.getLsbD k.val) (catchUps_panic _ _)).trans hnone
    · exact (catchUps_owed pc.isLt _ _).trans (if_pos (mem_stack_channels.2 hin))
    · exact catchUps_late pc.isLt _ _ (mem_stack_channels.2 hin)
    · exact (catchUps_owed pc.isLt _ _).trans (if_neg fun hmem => hout (mem_stack_channels.1 hmem))
  case retrain =>
    intro pc s hup
    refine ⟨fun hcalm => ?_, fun hpanic hlate => ?_, fun t hpanic hlate hpast => ?_⟩
    · simp only [exec, execRetrainDue, hup, hcalm, State.setHbm, Bool.not_true, Bool.not_false, Bool.false_eq_true, if_false, if_true]
    · simp only [exec, execRetrainDue, hup, hpanic, hlate, State.setHbm, Bool.not_true, Bool.false_eq_true, if_false]
    · simp only [exec, execRetrainDue, hup, hpanic, hlate, hpast, State.setHbm, Bool.not_true, Bool.false_eq_true, if_false, if_true]
  case heat =>
    intro k c s hfit
    simp only [exec, execHbmStackTemperature, hfit, if_true, State.setHbm]
  case notFitted =>
    intro k c s hnot
    simp only [exec, execHbmStackTemperature, Nat.not_lt.2 hnot, if_false]

end Sys2Proof.Machine
end

section
/-! The byte lists of the HBM and of the flash stay in canonical form: what every function of the model does to them, and every step. -/

namespace Sys2Proof.Machine

variable {s t : State}

/-- Both byte lists of the state are in canonical form. -/
def State.Canon (s : State) : Prop := Mem.wf s.hbm.mem = true ∧ Mem.wf s.flash.mem = true

namespace State.Canon

/-- The parts of a state other than the HBM and the flash do not matter. -/
theorem same
    {pending free now io ident boot regErr pins clk time lanes eye streams chans created planes drives groups sweeps acqs mps regions
    integ store sinks dma storeQ pau pwr thim pair sec mon} (hs : s.Canon) :
    Canon ⟨pending, free, now, io, ident, boot, regErr, pins, clk, time, lanes, eye, streams, chans, created, planes, drives, groups,
      sweeps, acqs, mps, s.hbm, regions, integ, store, sinks, dma, storeQ, pau, pwr, thim, pair, sec, s.flash, mon⟩ := hs

/-- Of the HBM only the byte list matters. -/
theorem sameHbm
    {pending free now io ident boot regErr pins clk time lanes eye streams chans created planes drives groups sweeps acqs mps regions
    integ store sinks dma storeQ pau pwr thim pair sec mon cfg trained failed selfRef hot cfgErr bar4Drop temp owedMax forced owed
    retrainLate retrained wake wakeQueued qosCfg panic panics overrun} (hs : s.Canon) :
    Canon ⟨pending, free, now, io, ident, boot, regErr, pins, clk, time, lanes, eye, streams, chans, created, planes, drives, groups,
      sweeps, acqs, mps, ⟨s.hbm.mem, cfg, trained, failed, selfRef, hot, cfgErr, bar4Drop, temp, owedMax, forced, owed, retrainLate,
      retrained, wake, wakeQueued, qosCfg, panic, panics, overrun⟩, regions, integ, store, sinks, dma, storeQ, pau, pwr, thim, pair, sec,
      s.flash, mon⟩ := hs

/-- Of the flash only the byte list matters. -/
theorem sameFlash
    {pending free now io ident boot regErr pins clk time lanes eye streams chans created planes drives groups sweeps acqs mps regions
    integ store sinks dma storeQ pau pwr thim pair sec mon desc0 desc1 op addr buf busy denied err run page} (hs : s.Canon) :
    Canon ⟨pending, free, now, io, ident, boot, regErr, pins, clk, time, lanes, eye, streams, chans, created, planes, drives, groups,
      sweeps, acqs, mps, s.hbm, regions, integ, store, sinks, dma, storeQ, pau, pwr, thim, pair, sec, ⟨s.flash.mem, desc0, desc1, op,
      addr, buf, busy, denied, err, run, page⟩, mon⟩ := hs

/-- An operation that is left out when it has no result. -/
theorem getD {o : Option State} (hs : s.Canon) (ho : ∀ {t : State}, o = some t → t.Canon) : (o.getD s).Canon := by
  cases o with
  | none => exact hs
  | some t => exact ho rfl

/-- A change of other parts of the state alone. -/
theorem of_kept {ps : List Part} (hs : s.Canon) (h : Kept ps s t) (hps : .hbm ∉ ps ∧ .flash ∉ ps) : t.Canon := by
  have hhbm : t.hbm = s.hbm := h.2 .hbm hps.1
  have hflash : t.flash = s.flash := h.2 .flash hps.2
  rwa [State.Canon, hhbm, hflash]

/-- What an operation leaves beside another result. -/
theorem fst_of {α : Type} {p : State × α} {a : α} (hp : p.1.Canon) (h : p = (t, a)) : t.Canon := by
  rw [h] at hp
  exact hp

theorem ite {c : Prop} {_ : Decidable c} (hs : s.Canon) (ht : t.Canon) : (if c then s else t).Canon := by
  split
  · exact hs
  · exact ht

/-- An operation that may be left out. -/
theorem when {c : Prop} {_ : Decidable c} (hs : s.Canon) (hf : s.Canon → t.Canon) : (if c then t else s).Canon := .ite (hf hs) hs

/-- An operation that may be left out. -/
theorem whenNot {c : Prop} {_ : Decidable c} (hs : s.Canon) (hf : s.Canon → t.Canon) : (if c then s else t).Canon := .ite hs (hf hs)

theorem foldl {α : Type} {f : State → α → State} {l : List α} (hs : s.Canon) (hf : ∀ t a, t.Canon → (f t a).Canon) :
    (l.foldl f s).Canon :=
  List.foldlRecOn l f hs fun t ht a _ => hf t a ht

end State.Canon

/-- The state that a verdict settles to holds canonical byte lists, its continuation keeps them. -/
inductive Verdict.Canon : Verdict → Prop where
  | done {st : Status} {a b : Nat} {h : Handle} {u : State} : u.Canon → Verdict.Canon (.done st a b h u)
  | wait {stage : Stage} {h : Handle} {u : State} : u.Canon → Verdict.Canon (.wait stage h u)
  | need {n : Need} {cls cost : Nat} {h : Handle} {u : State} {k : State → Verdict} :
      u.Canon → (∀ v : State, v.Canon → Verdict.Canon (k v)) → Verdict.Canon (.need n cls cost h u k)

/-- The next state, where there is one, holds canonical byte lists. -/
inductive NextCanon : Host.Outcome State Fault Refusal → Prop where
  | next {u : State} : u.Canon → NextCanon (.next u)
  | fault {r : Fault} : NextCanon (.fault r)
  | refused {r : Refusal} : NextCanon (.refused r)

theorem Verdict.Canon.ite {c : Prop} {_ : Decidable c} {v w : Verdict} (hv : v.Canon) (hw : w.Canon) :
    Verdict.Canon (if c then v else w) := by
  split
  · exact hv
  · exact hw

theorem Verdict.Canon.fail {st : Status} {d : Desc} (hs : s.Canon) : Verdict.Canon (Machine.fail st d s) := .done hs

theorem NextCanon.ite {c : Prop} {_ : Decidable c} {v w : Host.Outcome State Fault Refusal} (hv : NextCanon v) (hw : NextCanon w) :
    NextCanon (if c then v else w) := by
  split
  · exact hv
  · exact hw

namespace State.Canon

variable {v : Verdict}

/-- The state of a verdict, by the verdict's form. -/
theorem of_done {st : Status} {a b : Nat} {h : Handle} (hv : v.Canon) (e : v = .done st a b h t) : t.Canon := by
  cases hv <;> cases e
  assumption

theorem of_wait {stage : Stage} {h : Handle} (hv : v.Canon) (e : v = .wait stage h t) : t.Canon := by
  cases hv <;> cases e
  assumption

theorem of_need {n : Need} {cls cost : Nat} {h : Handle} {k : State → Verdict} (hv : v.Canon) (e : v = .need n cls cost h t k) :
    t.Canon := by
  cases hv <;> cases e
  assumption

end State.Canon

/-! ### Event records, the journal, completions -/

theorem State.Canon.raise {code cls sev hd time data} (hs : s.Canon) : (s.raise code cls sev hd time data).Canon := by
  simpa only [State.Canon, raise_parts] using hs

theorem State.Canon.raiseAfter {p code cls sev hd data} (hs : s.Canon) : (s.raiseAfter p code cls sev hd data).Canon := .ite (.same hs) hs

theorem State.Canon.event {code cls sev hd data} (hs : s.Canon) : (s.event code cls sev hd data).Canon := by
  simpa only [State.Canon, event_parts] using hs

theorem State.Canon.journalRegs (hs : s.Canon) : s.journalRegs.Canon := by simpa only [State.Canon, journalRegs_parts] using hs

theorem State.Canon.journalReg {off v} (hs : s.Canon) : (s.journalReg off v).Canon := by
  simpa only [State.Canon, journalReg_parts] using hs

theorem State.Canon.journal {source opcode tag hd digest} (hs : s.Canon) : (s.journal source opcode tag hd digest).Canon := by
  simpa only [State.Canon, journal_parts] using hs

theorem State.Canon.interim {r} (hs : s.Canon) : (s.interim r).Canon := by simpa only [State.Canon, interim_parts] using hs

theorem State.Canon.complete {r st a b hd} (hs : s.Canon) :
    (s.complete r st a b hd).Canon := hs.of_kept (kept_complete r st a b hd) (by decide)

/-! ### Operands and host buffers -/

theorem State.Canon.askBuffer {r} (hs : s.Canon) : (s.askBuffer r).Canon := by
  fun_cases State.askBuffer s r
  · exact .same hs
  · exact hs
  · exact hs

theorem Verdict.Canon.readBuffer {d addr len} (hs : s.Canon) : Verdict.Canon (Machine.readBuffer d addr len s) :=
  .wait (.askBuffer (.same hs))

/-- A wait under another handle. -/
theorem Verdict.Canon.rewait {v : Verdict} {h : Stage → Handle → State → Handle} (hv : v.Canon) :
    Verdict.Canon (match v with | .wait st x u => .wait st (h st x u) u | v => v) := by
  cases hv with
  | wait hu => exact .wait hu
  | done hu => exact .done hu
  | need hu hk => exact .need hu hk

theorem Verdict.Canon.result {d addr bytes a b} (hs : s.Canon) : Verdict.Canon (Machine.result d addr bytes a b s) :=
  .ite (.done (.same hs)) (.wait hs)

/-! ### Grants and the free mode -/

theorem State.Canon.setGrant {n cost} (hs : s.Canon) : (s.setGrant n cost).Canon := by
  fun_cases State.setGrant s n cost
  · exact .sameHbm hs
  all_goals exact .same hs

theorem State.Canon.dropGrant {n cost} (hs : s.Canon) : (s.dropGrant n cost).Canon := by
  fun_cases State.dropGrant s n cost
  · exact .same hs
  · exact .setGrant hs

theorem State.Canon.charge {n cost t} (hs : s.Canon) : (s.charge n cost t).Canon := .when (.setGrant hs) .same
theorem State.Canon.toActive (hs : s.Canon) : s.toActive.Canon := .ite (.sameHbm (.ite hs (.same hs))) (.ite (.same hs) hs)
theorem State.Canon.wakeIdle {src} (hs : s.Canon) : (s.wakeIdle src).Canon := .ite (.same (.same (.toActive hs))) hs
theorem State.Canon.handBack {hd} (hs : s.Canon) : (s.handBack hd).Canon := hs.of_kept (kept_handBack hd) (by decide)

theorem State.Canon.dropClaims {r} (hs : s.Canon) : (s.dropClaims r).Canon :=
  .ite hs (.same (.same (.same (.foldl hs fun _ _ h => .ite (.same (.same h)) h))))

theorem State.Canon.unclaim {r hd} (hs : s.Canon) : (s.unclaim r hd).Canon := .whenNot (.dropClaims hs) .handBack

/-- A verdict that is carried out, the free mode's grants included: induction on the verdict. -/
theorem State.Canon.settle {r s₀ v} (hs : State.Canon s₀) (hv : v.Canon) : (Machine.settle r s₀ v).Canon := by
  induction hv with
  | done hu => exact .ite (.complete hu) (.complete (.unclaim hs))
  | wait hu => exact .same hu
  | need hu _ ih =>
    have ha := hu.toActive
    rw [Machine.settle]
    dsimp only
    split
    · exact ih _ (.charge ha)
    · exact .same (.same (.charge ha))
    · exact .interim (.same (.same ha))
    · exact .complete (.unclaim hs)

/-! ### Events -/

theorem State.Canon.note {e hd data} (hs : s.Canon) : (s.note e hd data).Canon := by simpa only [State.Canon, note_parts] using hs
theorem State.Canon.noteAfter {p e hd data} (hs : s.Canon) : (s.noteAfter p e hd data).Canon := .raiseAfter hs

theorem State.Canon.noteAt {e hd tb data} (hs : s.Canon) :
    (s.noteAt e hd tb data).Canon := by simpa only [State.Canon, noteAt_parts] using hs

/-! ### Accepting and finishing commands -/

theorem State.Canon.mirrorOr {r op d data v} (hs : s.Canon) (hv : v.Canon) : (Machine.mirrorOr r op d data s v).Canon := by
  unfold Machine.mirrorOr
  split <;> exact .ite (.same (.same hs)) (.settle hs hv)

theorem State.Canon.fetched {r} (hs : s.Canon) : (s.fetched r).Canon := .wakeIdle (.same hs)
theorem State.Canon.finish {r st a b} (hs : s.Canon) : (s.finish r st a b).Canon := hs.of_kept (kept_finish r st a b) (by decide)

theorem State.Canon.withdrawNeed {n st mine} (hs : s.Canon) : (s.withdrawNeed n st mine).Canon :=
  .foldl (.setGrant (.same hs)) fun _ _ => .finish

/-! ### Regions and records -/

theorem State.Canon.restStacks (hs : s.Canon) : s.restStacks.Canon := .ite (.sameHbm hs) hs
theorem State.Canon.freeRegion {i} (hs : s.Canon) : (s.freeRegion i).Canon := .restStacks (.same hs)
theorem State.Canon.putBytes {i off bytes} (hs : s.Canon) : (s.putBytes i off bytes).Canon := ⟨Mem.wf_writeRegion hs.1, hs.2⟩

theorem State.Canon.putRecord {i off ready hd payload} (hs : s.Canon) : (s.putRecord i off ready hd payload).Canon :=
  .same (.same (.putBytes hs))

theorem State.Canon.appendRecord {i hd payload} (hs : s.Canon) (ht : s.appendRecord i hd payload = some t) : t.Canon := by
  obtain ⟨o, -, rfl⟩ := Option.map_eq_some_iff.1 ht
  exact .putRecord hs

/-- Records appended one after the other. -/
theorem State.Canon.appendAll {i hd} {ps : List (List Byte)} (hs : s.Canon)
    (ht : ps.foldl (fun o p => Option.bind o fun s => State.appendRecord s i hd p) (some s) = some t) : t.Canon := by
  induction ps generalizing s with
  | nil => exact Option.some.inj ht ▸ hs
  | cons p ps ih =>
    rw [List.foldl_cons, Option.bind_some] at ht
    cases h : s.appendRecord i hd p with
    | some u => exact ih (.appendRecord hs h) (h ▸ ht)
    | none =>
      rw [h, List.foldl_fixed' (fun _ => rfl)] at ht
      cases ht

/-! ### Memory errors -/

theorem State.Canon.beginEpisode {loc src} (hs : s.Canon) : (s.beginEpisode loc src).Canon := .when (.same hs) .note
theorem State.Canon.correctedEvent {loc src} (hs : s.Canon) : (s.correctedEvent loc src).Canon := .ite (.note (.same hs)) (.same hs)

theorem State.Canon.corrected {loc src} (hs : s.Canon) : (s.corrected loc src).Canon :=
  .whenNot (.correctedEvent (.whenNot (.same (.same hs)) .beginEpisode)) .same

theorem State.Canon.uncorrectableEvent {loc cls src} (hs : s.Canon) : (s.uncorrectableEvent loc cls src).Canon :=
  .ite (.note (.same (.ite (.same hs) hs))) (.same (.ite (.same hs) hs))

theorem State.Canon.uncorrectable {loc cls src} (hs : s.Canon) : (s.uncorrectable loc cls src).Canon :=
  .uncorrectableEvent (.same (.same hs))

theorem State.Canon.readErr {loc e src} (hs : s.Canon) : (s.readErr loc e src).Canon := by
  fun_cases State.readErr s loc e src
  · exact hs
  · exact .corrected hs
  · exact .uncorrectable hs
  · exact .uncorrectable hs

theorem State.Canon.sramFault {mem inst} (hs : s.Canon) : (s.sramFault mem inst).Canon := .uncorrectable (.same hs)

theorem State.Canon.sramFaults {α : Type} {mem inst : Nat} {lost : List α} (hs : s.Canon) : (s.sramFaults mem inst lost).Canon :=
  .foldl hs fun _ _ => .sramFault

theorem State.Canon.regionFaults {α : Type} {i src : Nat} {lost : List α} (hs : s.Canon) : (s.regionFaults i src lost).Canon :=
  .foldl hs fun _ _ h => .uncorrectable (.same h)

theorem State.Canon.storeFaults {i src lost} (hs : s.Canon) : (s.storeFaults i src lost).Canon := .foldl hs fun _ _ => .uncorrectable

/-! ### Acquisition records -/

theorem State.Canon.acqIgnored {u k xt line cause} (hs : s.Canon) : (s.acqIgnored u k xt line cause).Canon :=
  .ite (.same hs) (.ite (.note (.same (.same hs))) (.same (.same hs)))

theorem State.Canon.recordDone {u flags} (hs : s.Canon) : (s.recordDone u flags).Canon := by
  fun_cases State.recordDone s u flags
  · exact .note hs
  · exact hs

theorem State.Canon.measure {u off ready hd items pre} (hs : s.Canon) : (s.measure u off ready hd items pre).Canon :=
  .recordDone (.putRecord hs)

theorem State.Canon.acqRecord {u off level ready items flags m preItems} (hs : s.Canon) :
    (s.acqRecord u off level ready items flags m preItems).Canon := by
  unfold State.acqRecord
  split
  · exact hs
  · exact .when (.whenNot (.same (.putRecord hs)) .recordDone) .measure

theorem State.Canon.acqLost {u lost items} (hs : s.Canon) : (s.acqLost u lost items).1.Canon := by
  fun_cases State.acqLost s u lost items
  · exact hs
  · exact .sameHbm hs

theorem State.Canon.acqZeroed {u zeroed items} (hs : s.Canon) : (s.acqZeroed u zeroed items).1.Canon := .regionFaults hs
theorem State.Canon.acqIdle {u} (hs : s.Canon) : (s.acqIdle u).Canon := .foldl (.same hs) fun _ _ => .complete
theorem State.Canon.afterRecord {u tEnd} (hs : s.Canon) : (s.afterRecord u tEnd).Canon := .whenNot (.same hs) .acqIdle

theorem State.Canon.acqSpectra {u level off flags m c l} (hs : s.Canon) : (s.acqSpectra u level off flags m c l).Canon := by
  induction l generalizing s off with
  | nil => exact hs
  | cons x l ih => exact ih (.acqRecord hs)

theorem State.Canon.closeCapture {u upTo extra lost zeroed} (hs : s.Canon) : (s.closeCapture u upTo extra lost zeroed).Canon := by
  unfold State.closeCapture
  dsimp only
  split
  · exact hs
  · exact .afterRecord (.same (.ite (.acqSpectra (.acqZeroed (.acqLost hs))) (.acqRecord (.acqZeroed (.acqLost hs)))))

/-- (The function is unfolded as a constant, here and below: the equation that `unfold` uses would have the kernel evaluate a length
against 1 MiB.) -/
theorem State.Canon.dumpSummary {u c extra} (hs : s.Canon) : (s.dumpSummary u c extra).Canon := by
  conv in State.dumpSummary => delta State.dumpSummary
  extract_lets +onlyGivenNames a ch r payload first len lo
  split
  · exact .same hs
  · exact .recordDone (.same (.putRecord hs))

theorem State.Canon.dumpDone {u extra} (hs : s.Canon) : (s.dumpDone u extra).Canon := by
  fun_cases State.dumpDone s u extra
  · exact hs
  · exact .afterRecord (.dumpSummary hs)

theorem State.Canon.ringDrop {u} (hs : s.Canon) : (s.ringDrop u).Canon := .same (.when (.same hs) fun h => .dumpDone (.same h))

theorem State.Canon.putChunk {u items flags} (hs : s.Canon) : (s.putChunk u items flags).Canon := by
  conv in State.putChunk => delta State.putChunk
  split
  · exact hs
  · extract_lets +onlyGivenNames a lastNo
    split
    · split
      · exact .ringDrop hs
      · extract_lets +onlyGivenNames seq no hold s₁ s₂
        have h₂ : s₂.Canon := .same (.acqRecord hs)
        split
        · exact .ite (.dumpDone h₂) h₂
        · exact h₂
    · extract_lets +onlyGivenNames r pay len
      split
      · exact .same hs
      · exact .same (.acqRecord hs)

theorem State.Canon.cutChunk {u extra} (hs : s.Canon) : (s.cutChunk u extra).Canon := .same (.same (.putChunk hs))

theorem State.Canon.acqBreak {u extra} (hs : s.Canon) : (s.acqBreak u extra).Canon :=
  .when (.same (.ite hs (.ite (.ite (.closeCapture hs) (.same hs)) (.ite hs (.when (.cutChunk hs) fun h => .dumpDone (.same h)))))) .acqIdle

theorem State.Canon.acqProduct {u it} (hs : s.Canon) : (s.acqProduct u it).Canon := by
  fun_cases State.acqProduct s u it
  · exact .same hs
  · exact .same (.acqRecord hs)

theorem State.Canon.acqItem {u it} (hs : s.Canon) : (s.acqItem u it).Canon := by
  unfold State.acqItem
  dsimp only
  refine .ite hs (.ite hs (.ite (.acqProduct (.same hs)) (.ite (.same (.same ?_)) (.same (.same ?_)))))
  all_goals
    split
    · exact .whenNot (.same hs) .acqBreak
    · exact .same hs

theorem State.Canon.feed {source srcIdx code it} (hs : s.Canon) : (s.feed source srcIdx code it).Canon :=
  .foldl hs fun _ _ h => .ite (.acqItem h) h

theorem State.Canon.closeChanRecords {c extra} (hs : s.Canon) : (s.closeChanRecords c extra).Canon := .foldl hs fun _ _ => .acqBreak

theorem State.Canon.acqAccept {u xt item oldest lost cause line} (hs : s.Canon) : (s.acqAccept u xt item oldest lost cause line).Canon :=
  .when (.same hs) fun h => .when (.same (.same h)) .dumpDone

theorem State.Canon.acqTrigger {u xt t cause line forced} (hs : s.Canon) : (s.acqTrigger u xt t cause line forced).1.Canon := by
  fun_cases State.acqTrigger s u xt t cause line forced
  · exact hs
  · exact .same hs
  · exact .acqIgnored (.same hs)
  · exact .acqIgnored (.same hs)
  · exact .acqIgnored hs
  · exact .acqIgnored hs
  · exact .acqAccept hs
  · exact .acqIgnored hs
  · exact .acqAccept hs

theorem State.Canon.acqLine {line t stream idx cause} (hs : s.Canon) : (s.acqLine line t stream idx cause).Canon :=
  .foldl hs fun _ _ h => .ite (.acqTrigger h) h

/-! ### Corner turns -/

theorem State.Canon.ctHdr {k b extra} (hs : s.Canon) : (s.ctHdr k b extra).2.Canon := by
  unfold State.ctHdr
  dsimp only
  split
  · exact hs
  · exact .same hs

theorem State.Canon.ctEmit {k b extra} (hs : s.Canon) (ht : s.ctEmit k b extra = some t) : t.Canon := by
  obtain ⟨u, hu, rfl⟩ := Option.map_eq_some_iff.1 ht
  exact .same (.same (.appendAll (.ctHdr hs) hu))

theorem State.Canon.ctBreak {region} (hs : s.Canon) : (s.ctBreak region).Canon := by
  refine .foldl hs fun _ _ h => .ite (.same ?_) h
  split
  · exact .getD h (.ctEmit h)
  · exact h

/-! ### Acquisition commands -/

theorem State.Canon.chanLevel {a} (hs : s.Canon) : (s.chanLevel a).Canon := .ite (.same hs) hs

theorem Verdict.Canon.acqSetBody {d} (hs : s.Canon) : Verdict.Canon (Machine.acqSetBody d s) := by
  fun_cases Machine.acqSetBody d s
  · exact .done (.same (.chanLevel (.same hs)))
  · exact .fail hs
  · exact .fail hs
  · exact .fail hs
  · exact .fail hs
  · exact .fail hs
  · exact .fail hs
  · exact .done (.chanLevel (.same hs))
  · exact .fail hs
  · exact .fail hs
  · exact .done (.same (.same hs))

theorem Verdict.Canon.acqArmBody {d} (hs : s.Canon) : Verdict.Canon (Machine.acqArmBody d s) := by
  unfold Machine.acqArmBody
  split
  · exact .fail hs
  · exact .ite (.fail hs) (.ite (.fail hs) (.done (.same (.ite (.same hs) hs))))

theorem Verdict.Canon.acqDisarmBody {d} (hs : s.Canon) : Verdict.Canon (Machine.acqDisarmBody d s) := by
  unfold Machine.acqDisarmBody
  split
  · exact .fail hs
  · split
    · exact .fail hs
    · exact .ite (.ite (.done (.acqIdle (.acqBreak hs))) (.wait (.same hs))) (.ite (.done (.acqIdle (.cutChunk hs))) (.done (.acqIdle hs)))

theorem Verdict.Canon.acqForceBody {d} (hs : s.Canon) : Verdict.Canon (Machine.acqForceBody d s) := by
  unfold Machine.acqForceBody
  split
  · exact .fail hs
  · split
    · exact .fail hs
    · dsimp only
      split
      · exact .fail hs
      · split <;> exact .done (.fst_of (.acqTrigger hs) ‹_›)

theorem NextCanon.execCaptureComplete {u lost zeroed} (hs : s.Canon) : NextCanon (Machine.execCaptureComplete u lost zeroed s) := by
  unfold Machine.execCaptureComplete
  dsimp only
  refine .next ?_
  split
  · exact .ite (.closeCapture hs) hs
  · exact hs

theorem NextCanon.execChunkClose {u lost zeroed} (hs : s.Canon) : NextCanon (Machine.execChunkClose u lost zeroed s) := by
  unfold Machine.execChunkClose
  dsimp only
  refine .next ?_
  split
  · exact hs
  · exact .ite (.same (.same (.putChunk (.acqZeroed (.acqLost hs))))) hs

theorem State.Canon.arrStep {u new} (hs : s.Canon) : (s.arrStep u new).Canon := by
  unfold State.arrStep
  extract_lets +onlyGivenNames a first s₁ s₂ s₃ s₄
  have h₄ : s₄.Canon := .note (.foldl (.chanLevel (.same hs)) fun _ _ => .ctBreak)
  exact .ite (.same h₄) h₄

/-! ### Trigger decisions -/

theorem State.Canon.evalCond {ch letter idx v} (hs : s.Canon) : (s.evalCond ch letter idx v).Canon := by
  unfold State.evalCond
  split
  · exact hs
  · exact .when (.same hs) .same

theorem State.Canon.drivePin {n} (hs : s.Canon) : (s.drivePin n).Canon := .ite hs (.same (.same hs))

theorem State.Canon.linePin {n line t} (hs : s.Canon) : (s.linePin n line t).Canon :=
  .ite hs (.whenNot (.drivePin hs) fun h => .ite (.drivePin (.same hs)) (.ite h (.ite (.same hs) (.same hs))))

theorem State.Canon.trigger {g t cause} (hs : s.Canon) : (s.trigger g t cause).Canon := by
  fun_cases State.trigger s g t cause
  · exact hs
  · exact .noteAt (.foldl (.acqLine (.same hs)) fun _ _ => .linePin)
  · exact .foldl (.acqLine (.same hs)) fun _ _ => .linePin

theorem State.Canon.decideGroup {g} (hs : s.Canon) : (s.decideGroup g).Canon := by
  fun_cases State.decideGroup s g
  · exact hs
  · exact hs
  · exact .same (.trigger hs)
  · exact .same hs

/-! ### Front ends and detectors -/

theorem State.Canon.flushDet {ch extra} (hs : s.Canon) : (s.flushDet ch extra).Canon := .ite hs (.same (.getD hs (.appendRecord hs)))

theorem State.Canon.windowEnd {ch} (hs : s.Canon) : (s.windowEnd ch).Canon := by
  unfold State.windowEnd
  dsimp only
  split
  · exact hs
  · exact .when (.foldl (.same hs) fun _ _ h => .ite (.evalCond h) h) fun h => .when (.same h) .flushDet

theorem State.Canon.outConditions {ch o} (hs : s.Canon) : (s.outConditions ch o).Canon := by
  refine .foldl hs fun t l h => .foldl (.same ?_) fun u f hu => ?_
  · split
    · exact .ite h (.evalCond h)
    · refine .ite h ?_
      split
      · exact .evalCond (.same h)
      · exact .same h
    · exact h
  · dsimp only
    split
    · exact .complete (.same hu)
    · exact .same hu

theorem State.Canon.emitOutput {ch o startFill} (hs : s.Canon) : (s.emitOutput ch o startFill).Canon :=
  .whenNot (.same (.ite (.windowEnd hs) hs)) fun h => .outConditions (.feed h)

theorem State.Canon.channelOutput {ch} (hs : s.Canon) : (s.channelOutput ch).Canon := by
  unfold State.channelOutput
  dsimp only
  split
  · exact hs
  · split
    · exact .emitOutput (.same hs)
    · exact hs

/-! ### Products -/

theorem State.Canon.emitAcc {ch code shift a extra zeroed} (hs : s.Canon) : (s.emitAcc ch code shift a extra zeroed).Canon :=
  .ite hs (.feed hs)

theorem State.Canon.bankRead {ch code} (hs : s.Canon) : (s.bankRead ch code).2.Canon := .same (.sramFaults hs)

theorem State.Canon.closeInterval {ch code extra} (hs : s.Canon) : (s.closeInterval ch code extra).Canon := by
  unfold State.closeInterval
  split
  · exact hs
  · next a _ =>
    have hread : (if a.added = 0 then ([], s) else s.bankRead ch code).2.Canon := by
      split
      · exact hs
      · exact .bankRead hs
    exact .same (.emitAcc hread)

theorem State.Canon.closeDue {ch m} (hs : s.Canon) : (s.closeDue ch m).Canon := .foldl (.same hs) fun _ _ h => .ite (.closeInterval h) h

theorem State.Canon.closeSk {ch extra} (hs : s.Canon) : (s.closeSk ch extra).Canon := by
  unfold State.closeSk
  dsimp only
  split
  · exact hs
  · next a _ =>
    have hread : (if a.added = 0 then ([], s) else s.bankRead ch 8).2.Canon := by
      split
      · exact hs
      · exact .bankRead hs
    exact .ite (.ite (.same hread) (.feed (.same hread)))
      (.foldl (.ite (.same hread) (.feed (.same hread))) fun _ _ h => .ite (.evalCond h) h)

theorem State.Canon.singleProducts {ch x} (hs : s.Canon) : (s.singleProducts ch x).Canon := by
  unfold State.singleProducts
  extract_lets +onlyGivenNames c pr n one s₁
  have h₁ : s₁.Canon := .ite (.feed hs) hs
  refine .ite h₁ ?_
  extract_lets +onlyGivenNames p e
  refine .ite (.feed h₁) ?_
  extract_lets +onlyGivenNames s₂
  have h₂ : s₂.Canon := by
    unfold s₂
    split
    · exact .ite (.same (.emitAcc h₁)) h₁
    · exact h₁
  exact .ite (.feed h₂) (.ite (.same (.emitAcc h₂)) (.same h₂))

theorem State.Canon.skProduct {ch x} (hs : s.Canon) : (s.skProduct ch x).Canon := .ite hs (.same (.ite (.closeSk hs) hs))
theorem State.Canon.addPair {xch ych x y} (hs : s.Canon) : (s.addPair xch ych x y).Canon := .same (.closeDue hs)

theorem State.Canon.pairProducts {ch x} (hs : s.Canon) : (s.pairProducts ch x).Canon := by
  refine .foldl ?_ fun _ _ h => .ite ?_ h
  · split
    · exact hs
    · split
      · exact .addPair (.same hs)
      · exact .same hs
  · split
    · exact .addPair (.same h)
    · exact .same h

theorem State.Canon.products {ch x} (hs : s.Canon) : (s.products ch x).Canon := by
  unfold State.products
  exact .pairProducts (.skProduct (.same (.singleProducts (.closeDue hs))))

theorem State.Canon.cutProducts {ch extra} (hs : s.Canon) : (s.cutProducts ch extra).Canon := by
  unfold State.cutProducts
  extract_lets +onlyGivenNames f s₁ next s₂ s₃ s₄ s₅ s₆
  have h₂ : s₂.Canon := .closeDue (.same hs)
  have h₃ : s₃.Canon := .ite (.closeSk h₂) h₂
  have h₅ : s₅.Canon := .closeSk (.foldl h₃ fun _ _ => .closeInterval)
  have h₆ : s₆.Canon := by
    unfold s₆
    split
    · exact .emitAcc h₅
    · exact h₅
  exact .same h₆

/-! ### Calibration of the channels -/

theorem State.Canon.calSpectrum {ch x} (hs : s.Canon) : (s.calSpectrum ch x).Canon := by
  unfold State.calSpectrum
  dsimp only
  split
  · exact hs
  · exact .when (.when (.same hs) .same) fun h => .foldl h fun _ _ h => .ite (.same h) h

theorem State.Canon.calRestart {ref} (hs : s.Canon) : (s.calRestart ref).Canon := by
  fun_cases State.calRestart s ref
  · exact hs
  · exact .foldl (.same hs) fun _ _ => .same

theorem State.Canon.calEpoch {ch} (hs : s.Canon) : (s.calEpoch ch).Canon := by
  unfold State.calEpoch
  dsimp only
  refine .calRestart ?_
  split
  · exact .same hs
  · exact .same (.same hs)

theorem State.Canon.periodStart {d k} (hs : s.Canon) : (s.periodStart d k).Canon := by
  unfold State.periodStart
  split
  · exact hs
  · exact .when (.same (.foldl hs fun _ _ => .same)) fun h => .foldl h fun _ _ => .finish

theorem State.Canon.calRecord {v applied frozen gen} (hs : s.Canon) : (s.calRecord v applied frozen gen).Canon := by
  conv in State.calRecord => delta State.calRecord
  extract_lets +onlyGivenNames c k moved manual
  split
  refine .ite hs ?_
  extract_lets +onlyGivenNames payload i r len ok first
  split
  · exact .same hs
  · exact .same (.putRecord hs)

theorem State.Canon.setGroupGen {d ref gen} (hs : s.Canon) : (s.setGroupGen d ref gen).Canon := .foldl (.same hs) fun _ _ => .same

theorem State.Canon.askParts {d tag} (hs : s.Canon) : (s.askParts d tag).Canon := by
  fun_cases State.askParts s d tag
  · exact hs
  · exact .foldl (.same hs) fun _ _ => .same

theorem State.Canon.setSwap {d ref g} (hs : s.Canon) : (s.setSwap d ref g).Canon := by
  fun_cases State.setSwap s d ref g
  · exact .same hs
  · exact .same (.askParts (.same hs))
  · exact .askParts (.same hs)

theorem State.Canon.swapDerived {d ref derived} (hs : s.Canon) : (s.swapDerived d ref derived).Canon :=
  .ite (.foldl (.foldl hs fun _ _ => .same) fun _ _ => .calRecord) (.setSwap (.foldl hs fun _ _ => .same))

theorem State.Canon.withdrawSwaps {d sel frozen} (hs : s.Canon) : (s.withdrawSwaps d sel frozen).Canon := by
  fun_cases State.withdrawSwaps s d sel frozen
  · exact hs
  · refine .foldl hs (fun _ _ h => ?_)
    dsimp only
    split
    · exact .finish (.foldl (.foldl (.setGroupGen (.same h)) fun _ _ => .same) fun _ _ => .calRecord)
    · exact .foldl (.foldl (.setGroupGen (.same h)) fun _ _ => .same) fun _ _ => .calRecord

theorem State.Canon.groupSwapped {d} (hs : s.Canon) : (s.groupSwapped d).Canon := by
  unfold State.groupSwapped
  split
  · exact hs
  · extract_lets +onlyGivenNames s₁
    have h₁ : s₁.Canon := .ite hs (.foldl hs fun _ _ => .askParts)
    split
    · exact h₁
    · extract_lets +onlyGivenNames gen s₂ s₃ s₄ s₅ s₆ s₇
      have h₃ : s₃.Canon := .calRestart (.same (.foldl h₁ fun _ _ h => .ite (.same h) h))
      have h₆ : s₆.Canon := .foldl (.journal (.note h₃)) fun _ _ => .calRecord
      have h₇ : s₇.Canon := .ite (.same h₆) h₆
      split
      · exact .finish h₇
      · exact h₇

/-! ### Clock outputs -/

theorem State.Canon.refreshOut {n} (hs : s.Canon) : (s.refreshOut n).Canon := .when (.same hs) .same
theorem State.Canon.refreshOuts (hs : s.Canon) : s.refreshOuts.Canon := .foldl hs fun _ _ => .refreshOut
theorem State.Canon.gateOut {n gated} (hs : s.Canon) : (s.gateOut n gated).Canon := .refreshOut (.same hs)

theorem State.Canon.clkoutCfg {n v} (hs : s.Canon) : (s.clkoutCfg n v).Canon :=
  .ite (.same (.same hs)) (.ite (.same hs) (.ite (.same hs) (.refreshOut (.same hs))))

theorem State.Canon.clkoutPhase {n v} (hs : s.Canon) : (s.clkoutPhase n v).Canon := .ite (.same hs) (.same hs)

/-! ### CHAN_PRODUCTS -/

theorem Verdict.Canon.chanProductsBody {d} (hs : s.Canon) : Verdict.Canon (Machine.chanProductsBody d s) :=
  .ite (.fail hs) (.ite (.fail hs) (.ite (.fail hs) (.ite (.fail hs) (.ite (.done (.same hs)) (.ite (.fail hs) (.done (.same hs)))))))

/-! ### Calibration commands -/

theorem State.Canon.driveSource {d on} (hs : s.Canon) : (s.driveSource d on).Canon := by
  unfold State.driveSource
  dsimp only
  split
  · exact .gateOut (.when (.same hs) fun h => .same (.same h))
  · exact .when (.same hs) fun h => .same (.same h)

theorem State.Canon.freeOutputs {d} (hs : s.Canon) : (s.freeOutputs d).Canon := by
  unfold State.freeOutputs
  dsimp only
  split
  · exact .gateOut (.ite (.driveSource hs) hs)
  · exact .ite (.driveSource hs) hs

theorem State.Canon.freeDrive {d} (hs : s.Canon) : (s.freeDrive d).Canon := by
  refine .same (.freeOutputs ?_)
  split
  · exact .foldl (.withdrawSwaps hs) fun _ _ => .finish
  · exact .withdrawSwaps hs

theorem State.Canon.calLeave {ch} (hs : s.Canon) : (s.calLeave ch).Canon := by
  refine .same (.same (.same (.same ?_)))
  split
  · exact .freeDrive hs
  · exact hs

theorem State.Canon.setUpDrive {ch d} (hs : s.Canon) : (s.setUpDrive ch d).Canon := .when (.same (.ite (.freeOutputs hs) hs)) .gateOut

theorem Verdict.Canon.calSetBody {d} (hs : s.Canon) : Verdict.Canon (Machine.calSetBody d s) := by
  unfold Machine.calSetBody
  extract_lets +onlyGivenNames ch c k isRef refH members dn out cfg
  refine .ite (.ite (.fail hs) (.ite (.fail hs) (.done (.same hs)))) ?_
  refine .ite (.fail hs) (.ite (.ite (.fail hs) (.ite (.fail hs) (.done (.calLeave hs)))) ?_)
  refine .ite (.fail hs) (.ite (.fail hs) (.ite (.fail hs) (.ite (.fail hs) (.ite (.fail hs) (.ite (.fail hs) ?_)))))
  extract_lets +onlyGivenNames s₁ s₂ s₃ gen s₄
  have h₁ : s₁.Canon := by
    unfold s₁
    split
    · exact .ite hs (.freeDrive hs)
    · exact hs
  have h₂ : s₂.Canon := .same (.same (.same (.same h₁)))
  have h₃ : s₃.Canon := .ite (.setUpDrive h₂) h₂
  exact .done (.calRestart (.same h₃))

theorem Verdict.Canon.calFreezeBody {d} (hs : s.Canon) : Verdict.Canon (Machine.calFreezeBody d s) := by
  fun_cases Machine.calFreezeBody d s
  · exact .fail hs
  · exact .fail hs
  · exact .done (.same (.withdrawSwaps hs))
  · exact .done (.same hs)
  · exact .wait (.same hs)

theorem Verdict.Canon.calTableLoadBody {d} (hs : s.Canon) : Verdict.Canon (Machine.calTableLoadBody d s) :=
  .ite (.fail hs) (.ite (.fail hs) (.readBuffer hs))

theorem Verdict.Canon.calTableData {d buf} (hs : s.Canon) : Verdict.Canon (Machine.calTableData d buf s) := by
  fun_cases Machine.calTableData d buf s
  · exact .fail hs
  · exact .fail hs
  · exact .done (.when (.same hs) fun h => .same (.withdrawSwaps h))
  · exact .fail hs
  · exact .wait (.setSwap (.withdrawSwaps (.same hs)))

theorem NextCanon.execCalPeriodEnd {drive} (hs : s.Canon) : NextCanon (Machine.execCalPeriodEnd drive s) := by
  unfold Machine.execCalPeriodEnd
  dsimp only
  refine .next ?_
  split
  · exact .ite hs (.periodStart (.same (.foldl (.same hs) fun _ _ => .same)))
  · exact hs

theorem NextCanon.execCalDerivationDone {drive} (hs : s.Canon) : NextCanon (Machine.execCalDerivationDone drive s) := by
  unfold Machine.execCalDerivationDone
  dsimp only
  refine .next ?_
  split
  · exact .same (.swapDerived (.foldl hs fun _ _ => .same))
  · exact hs

/-! ### Density planes -/

theorem State.Canon.snapshot {p extra zeroed} (hs : s.Canon) : (s.snapshot p extra zeroed).1.Canon := by
  fun_cases State.snapshot s p extra zeroed
  · exact .same (.putRecord hs)
  · exact .same hs

theorem State.Canon.snapDone {p slot last} (hs : s.Canon) : (s.snapDone p slot last).Canon := by
  unfold State.snapDone
  dsimp only
  refine .foldl (.same hs) (fun _ _ h => ?_)
  split <;> exact .finish h

theorem State.Canon.densConditions {p} (hs : s.Canon) : (s.densConditions p).Canon := by
  fun_cases State.densConditions s p
  · exact hs
  · exact hs
  · exact .foldl hs fun _ _ h => .ite (.evalCond h) h

theorem State.Canon.syncPlane {p r} (hs : s.Canon) : (s.syncPlane p r).Canon := .foldl (.same hs) fun _ _ => .same

theorem State.Canon.rebind {p} (hs : s.Canon) : (s.rebind p).Canon := by
  fun_cases State.rebind s p
  · exact hs
  · exact .syncPlane (.same hs)

theorem State.Canon.frameBoundary {p extra zeroed} (hs : s.Canon) : (s.frameBoundary p extra zeroed).Canon :=
  .rebind (.same (.when (.densConditions hs) fun h => .snapDone (.snapshot h)))

theorem State.Canon.startPlane {p m} (hs : s.Canon) : (s.startPlane p m).Canon := by
  fun_cases State.startPlane s p m
  · exact .rebind hs
  · exact hs
  · exact hs

theorem State.Canon.densTurn {ch m} (hs : s.Canon) : (s.densTurn ch m).Canon :=
  .foldl hs fun _ _ h => .ite h (.same (.startPlane (.ite (.frameBoundary h) h)))

theorem State.Canon.densities {ch sp} (hs : s.Canon) : (s.densities ch sp).Canon := .foldl hs fun _ _ => .same
theorem State.Canon.densLeave {ch} (hs : s.Canon) : (s.densLeave ch).Canon := .foldl hs fun _ _ h => .ite (.snapDone (.snapshot h)) h
theorem State.Canon.densEpoch {ch} (hs : s.Canon) : (s.densEpoch ch).Canon := .foldl hs fun _ _ h => .ite (.same (.frameBoundary h)) h
theorem State.Canon.dropPlane {p} (hs : s.Canon) : (s.dropPlane p).Canon := .same (.same (.snapDone hs))
theorem State.Canon.undoPlane {d} (hs : s.Canon) : (s.undoPlane d).Canon := .ite (.dropPlane hs) (.syncPlane hs)
theorem State.Canon.freePlane {p st} (hs : s.Canon) : (s.freePlane p st).Canon := .dropPlane (.withdrawNeed hs)
theorem Verdict.Canon.densSetGrant {d} (hs : s.Canon) : Verdict.Canon (Machine.densSetGrant d s) := .done (.syncPlane (.same hs))

theorem Verdict.Canon.densSetBody {d} (hs : s.Canon) : Verdict.Canon (Machine.densSetBody d s) := by
  refine .ite (.ite (.fail hs) (.ite (.fail hs) (.done (.freePlane hs)))) ?_
  refine .ite (.fail hs) (.ite (.fail hs) (.ite (.fail hs) (.ite (.fail hs) (.ite (.fail hs) ?_))))
  exact .ite (.densSetGrant (.same (.same hs))) (.need (.same (.same hs)) fun _ => .densSetGrant)

theorem Verdict.Canon.densSnapshotBody {d} (hs : s.Canon) : Verdict.Canon (Machine.densSnapshotBody d s) :=
  .ite (.fail hs) (.ite (.fail hs) (.ite (.fail hs) (.wait (.same hs))))

/-! ### Sweeps -/

theorem State.Canon.sweepStore {u} (hs : s.Canon) : (s.sweepStore u).Canon := by
  fun_cases State.sweepStore s u
  · exact .putBytes hs
  · exact hs

theorem State.Canon.sweepRecord {u} (hs : s.Canon) : (s.sweepRecord u).1.Canon := by
  fun_cases State.sweepRecord s u
  · exact hs
  · exact hs
  · exact .same (.putRecord hs)

theorem State.Canon.sweepConditions {u c} (hs : s.Canon) : (s.sweepConditions u c).Canon := .foldl hs fun _ _ h => .ite (.evalCond h) h

theorem State.Canon.sweepCand {u c} (hs : s.Canon) : (s.sweepCand u c).Canon := by
  unfold State.sweepCand
  extract_lets +onlyGivenNames c' s₁ s₂ x recent s₃
  have h₂ : s₂.Canon := .sweepConditions (.same hs)
  have h₃ : s₃.Canon := .ite h₂ (.ite (.noteAt (.same h₂)) (.same h₂))
  exact .ite (.sweepRecord h₃) h₃

theorem State.Canon.sweepStop {u} (hs : s.Canon) : (s.sweepStop u).Canon :=
  .when (.sweepRecord (.same hs)) fun h => .foldl (.same h) fun _ _ => .finish

theorem State.Canon.sweepMask {u n} (hs : s.Canon) : (s.sweepMask u n).Canon := by
  fun_cases State.sweepMask s u n
  · exact hs
  · exact .foldl (.same hs) fun _ _ => .finish

theorem State.Canon.sweepSpectrum {ch x} (hs : s.Canon) : (s.sweepSpectrum ch x).Canon :=
  .foldl hs fun _ _ h => .ite h (.ite (.sweepStop h) (.sweepStore (.same (.when (.ite (.same h) h) .sweepMask))))

theorem State.Canon.sweepBreak {ch} (hs : s.Canon) : (s.sweepBreak ch).Canon :=
  .foldl hs fun _ _ h => .ite (.whenNot (.same h) .sweepStop) h

theorem State.Canon.sweepEpoch {ch} (hs : s.Canon) : (s.sweepEpoch ch).Canon := .foldl hs fun _ _ => .same
theorem State.Canon.sweepFree {u} (hs : s.Canon) : (s.sweepFree u).Canon := .same (.same (.same (.withdrawNeed hs)))

theorem Verdict.Canon.sweepSetBody {d} (hs : s.Canon) : Verdict.Canon (Machine.sweepSetBody d s) := by
  fun_cases Machine.sweepSetBody d s
  · exact .fail hs
  · exact .fail hs
  · exact .fail hs
  · exact .done (.sweepFree hs)
  · exact .fail hs
  · exact .fail hs
  · exact .fail hs
  · exact .fail hs
  · exact .fail hs
  · exact .fail hs
  · exact .done (.same (.same (.same (.same (.same hs)))))

theorem Verdict.Canon.sweepRunBody {d} (hs : s.Canon) : Verdict.Canon (Machine.sweepRunBody d s) := by
  unfold Machine.sweepRunBody
  dsimp only
  split
  · exact .fail hs
  · split
    · split
      · exact .done hs
      · split
        · exact .wait (.same hs)
        · split
          · exact .wait (.same hs)
          · exact .ite (.done (.sweepRecord (.same (.same hs)))) (.wait (.same (.sweepRecord (.same (.same hs)))))
    · exact .ite (.fail hs) (.need hs fun _ h => .done (.sweepMask (.same h)))
    · exact .ite (.done (.sweepRecord hs)) (.fail hs)
    · exact .readBuffer hs

theorem Verdict.Canon.sweepMaskData {d buf} (hs : s.Canon) : Verdict.Canon (Machine.sweepMaskData d buf s) := .wait (.same hs)

theorem NextCanon.execSweepBlockDecided {u run} (hs : s.Canon) : NextCanon (Machine.execSweepBlockDecided u run s) := by
  unfold Machine.execSweepBlockDecided
  dsimp only
  refine .next ?_
  split
  · exact hs
  · exact .foldl (.same (.storeFaults (.sameHbm hs))) fun _ _ => .sweepCand

theorem NextCanon.execSweepFlushPeriod {u} (hs : s.Canon) : NextCanon (Machine.execSweepFlushPeriod u s) := by
  unfold Machine.execSweepFlushPeriod
  dsimp only
  refine .next ?_
  split
  · exact hs
  · exact .ite (.sweepStop (.same hs)) (.sweepRecord (.same hs))

/-! ### Trigger commands -/

theorem Verdict.Canon.trigSetBody {d} (hs : s.Canon) : Verdict.Canon (Machine.trigSetBody d s) := by
  refine .ite (.fail hs) (.ite (.ite (.fail hs) (.ite (.fail hs) (.wait (.same hs)))) ?_)
  exact .ite (.fail hs) (.ite (.fail hs) (.ite (.fail hs) (.ite (.fail hs) (.ite (.fail hs) (.done (.same hs))))))

theorem Verdict.Canon.trigMaskData {d buf} (hs : s.Canon) : Verdict.Canon (Machine.trigMaskData d buf s) :=
  .ite (.fail hs) (.done (.same hs))

theorem Verdict.Canon.trigMaskLoadBody {d} (hs : s.Canon) : Verdict.Canon (Machine.trigMaskLoadBody d s) :=
  .ite (.fail hs) (.ite (.fail hs) (.ite (.trigMaskData hs) (.readBuffer hs)))

theorem Verdict.Canon.trigCombineBody {d} (hs : s.Canon) : Verdict.Canon (Machine.trigCombineBody d s) := by
  fun_cases Machine.trigCombineBody d s
  · exact .fail hs
  · exact .fail hs
  · exact .fail hs
  · exact .fail hs
  · exact .done (.same hs)
  · exact .done (.same hs)
  · exact .fail hs
  · exact .done (.same hs)

theorem NextCanon.execTrigIoTimedDrive {pin} (hs : s.Canon) : NextCanon (Machine.execTrigIoTimedDrive pin s) := by
  unfold Machine.execTrigIoTimedDrive
  refine .next ?_
  split
  · exact hs
  · exact .drivePin (.same (.same hs))

theorem NextCanon.execTrigIoPulseEnd {pin} (hs : s.Canon) : NextCanon (Machine.execTrigIoPulseEnd pin s) := by
  unfold Machine.execTrigIoPulseEnd
  refine .next ?_
  split
  · exact hs
  · exact .same (.same (.same hs))

/-! ### Frames -/

theorem State.Canon.maskConditions {ch x} (hs : s.Canon) : (s.maskConditions ch x).Canon := .foldl hs fun _ _ h => .ite (.evalCond h) h

theorem State.Canon.emitSpectrum {ch x} (hs : s.Canon) : (s.emitSpectrum ch x).Canon :=
  .calSpectrum (.sweepSpectrum (.maskConditions (.densities (.products (.same hs)))))

theorem State.Canon.storeWrite {ch lost u} (hs : s.Canon) : (s.storeWrite ch lost u).Canon := .putBytes (.putBytes hs)

theorem State.Canon.transform {ch lost u} (hs : s.Canon) : (s.transform ch lost u).2.Canon := by
  fun_cases State.transform s ch lost u
  · exact hs
  · exact .storeWrite hs

theorem State.Canon.frameDone {ch lost} (hs : s.Canon) : (s.frameDone ch lost).Canon := by
  unfold State.frameDone
  dsimp only
  split
  · exact hs
  · exact .whenNot (.same (.densTurn hs)) fun h => .emitSpectrum (.transform h)

theorem State.Canon.flushGo {ch n} (hs : s.Canon) : (State.flushGo ch n s).Canon := by
  induction n generalizing s with
  | zero => exact hs
  | succ n ih => exact .ite hs (ih (.frameDone hs))

theorem State.Canon.flushFrames {ch} (hs : s.Canon) : (s.flushFrames ch).Canon := .ite (.flushGo hs) hs

theorem State.Canon.serveAhead {p ch n} (hs : s.Canon) : (State.serveAhead p ch n s).Canon := by
  induction n generalizing s with
  | zero => exact hs
  | succ n ih =>
    rw [State.serveAhead]
    split
    · exact .ite hs (ih (.frameDone hs))
    · exact hs

/-! ### States of the channels -/

theorem State.Canon.chanBegin {ch k0 sup} (hs : s.Canon) : (s.chanBegin ch k0 sup).Canon := .sweepBreak (.same hs)
theorem State.Canon.dropFires {ch} (hs : s.Canon) : (s.dropFires ch).Canon := .foldl hs fun _ _ h => .foldl (.same h) fun _ _ => .finish
theorem State.Canon.leaveRunning {ch} (hs : s.Canon) : (s.leaveRunning ch).Canon := .when (.dropFires (.densLeave hs)) .calRestart

theorem State.Canon.closeChan {ch extra} (hs : s.Canon) : (s.closeChan ch extra).Canon :=
  .flushDet (.closeChanRecords (.cutProducts (.flushFrames hs)))

theorem State.Canon.stopsDone {ch} (hs : s.Canon) : (s.stopsDone ch).Canon := .foldl hs fun _ _ => .finish

theorem State.Canon.withdrawStart {ch st only} (hs : s.Canon) : (s.withdrawStart ch st only).Canon :=
  .ite hs (.foldl (.same (.setGrant (.same hs))) fun _ _ => .finish)

theorem State.Canon.enterStopped {ch extra} (hs : s.Canon) : (s.enterStopped ch extra).Canon :=
  .withdrawStart (.stopsDone (.sweepBreak (.same (.closeChan hs))))

theorem State.Canon.enterHalted {ch extra} (hs : s.Canon) : (s.enterHalted ch extra).Canon :=
  .stopsDone (.sweepBreak (.same (.closeChan (.when (.flushFrames hs) .leaveRunning))))

theorem State.Canon.starveChan {ch extra} (hs : s.Canon) : (s.starveChan ch extra).Canon := by
  fun_cases State.starveChan s ch extra
  · exact .sweepBreak (.same (.closeChan (.leaveRunning (.flushFrames hs))))
  · exact .enterStopped hs
  · exact hs

theorem State.Canon.epochDrain {ch} (hs : s.Canon) : (s.epochDrain ch).Canon := .ite (.enterStopped hs) (.same hs)

theorem State.Canon.epochChan {ch sup live} (hs : s.Canon) : (s.epochChan ch sup live).Canon :=
  .ite (.epochDrain hs) (.ite hs (.when (.sweepEpoch (.when (.same (.densEpoch (.when (.same hs) .closeChan))) .calEpoch)) .chanBegin))

/-! ### CHAN_SPECTRAL -/

theorem Verdict.Canon.chanSpectralSet {d p user} (hs : s.Canon) : Verdict.Canon (Machine.chanSpectralSet d p user s) :=
  .done (.same (.same hs))

theorem Verdict.Canon.chanSpectralBody {d} (hs : s.Canon) : Verdict.Canon (Machine.chanSpectralBody d s) := by
  fun_cases Machine.chanSpectralBody d s
  · exact .fail hs
  · exact .fail hs
  · exact .fail hs
  · exact .done (.same (.same hs))
  · exact .fail hs
  · exact .fail hs
  · exact .readBuffer (.same (.same hs))
  · exact .chanSpectralSet hs

theorem Verdict.Canon.chanSpectralData {d buf} (hs : s.Canon) : Verdict.Canon (Machine.chanSpectralData d buf s) := by
  fun_cases Machine.chanSpectralData d buf s
  · exact .fail hs
  · exact .fail hs
  · exact .fail hs
  · exact .chanSpectralSet hs

/-! ### Channel commands -/

theorem Verdict.Canon.chanCreateBody {d} (hs : s.Canon) : Verdict.Canon (Machine.chanCreateBody d s) := by
  fun_cases Machine.chanCreateBody d s
  · exact .fail hs
  · exact .fail hs
  · exact .done (.same (.same hs))
  · exact .fail hs

theorem State.Canon.chanFree {ch} (hs : s.Canon) : (s.chanFree ch).Canon :=
  .same (.same (.when (.foldl (.withdrawStart hs) fun _ _ h => .ite (.freePlane h) h) .calLeave))

theorem Verdict.Canon.chanDestroyBody {d} (hs : s.Canon) : Verdict.Canon (Machine.chanDestroyBody d s) :=
  .ite (.fail hs) (.ite (.fail hs) (.ite (.fail hs) (.done (.chanFree hs))))

theorem Verdict.Canon.chanTuneBody {d} (hs : s.Canon) : Verdict.Canon (Machine.chanTuneBody d s) :=
  .ite (.fail hs) (.ite (.fail hs) (.ite (.fail hs) (.ite (.done (.same hs)) (.ite (.done (.same hs)) (.done (.same hs))))))

theorem Verdict.Canon.chanFilterSet {d p bank} (hs : s.Canon) : Verdict.Canon (Machine.chanFilterSet d p bank s) :=
  .done (.same (.same (.same hs)))

theorem Verdict.Canon.chanFilterBody {d} (hs : s.Canon) : Verdict.Canon (Machine.chanFilterBody d s) := by
  fun_cases Machine.chanFilterBody d s
  · exact .fail hs
  · exact .fail hs
  · exact .fail hs
  · exact .readBuffer (.same (.same hs))
  · exact .chanFilterSet hs

theorem Verdict.Canon.chanFilterData {d buf} (hs : s.Canon) : Verdict.Canon (Machine.chanFilterData d buf s) := by
  fun_cases Machine.chanFilterData d buf s
  · exact .fail hs
  · exact .fail hs
  · exact .fail hs
  · exact .chanFilterSet hs

theorem Verdict.Canon.chanStartGrant {d} (hs : s.Canon) : Verdict.Canon (Machine.chanStartGrant d s) := by
  fun_cases Machine.chanStartGrant d s
  · exact .done (.chanBegin (.closeChanRecords hs))
  · exact .done (.same hs)

theorem Verdict.Canon.startBody {want d} (hs : s.Canon) : Verdict.Canon (Machine.startBody want d s) :=
  .ite (.fail hs) (.ite (.fail hs) (.need (.same hs) fun _ => .chanStartGrant))

theorem Verdict.Canon.chanStartBody {d} (hs : s.Canon) : Verdict.Canon (Machine.chanStartBody d s) := .startBody hs
theorem Verdict.Canon.chanResumeBody {d} (hs : s.Canon) : Verdict.Canon (Machine.chanResumeBody d s) := .startBody hs

theorem Verdict.Canon.chanStopBody {d} (hs : s.Canon) : Verdict.Canon (Machine.chanStopBody d s) := by
  fun_cases Machine.chanStopBody d s
  · exact .fail hs
  · exact .wait (.same (.leaveRunning hs))
  · exact .wait hs
  · exact .done (.enterStopped hs)
  · exact .done (.enterStopped hs)
  · exact .done hs

theorem NextCanon.execRetuneApply {ch} (hs : s.Canon) : NextCanon (Machine.execRetuneApply ch s) := by
  unfold Machine.execRetuneApply
  refine .next ?_
  dsimp only
  split
  · exact .ite (.same hs) hs
  · exact hs

/-! ### The error log, the Darner, partial writes -/

theorem Verdict.Canon.memRetireBody {d} (hs : s.Canon) : Verdict.Canon (Machine.memRetireBody d s) :=
  .ite (.fail hs) (.ite (.fail hs) (.ite (.fail hs) (.wait (.same (.same hs)))))

theorem State.Canon.retireDone {ok} (hs : s.Canon) : (s.retireDone ok).Canon := by
  unfold State.retireDone
  refine .foldl hs (fun _ _ h => ?_)
  split
  · exact h
  · exact .ite (.finish h) (.finish (.same (.same (.same h))))

theorem Verdict.Canon.logReadBody {d} (hs : s.Canon) : Verdict.Canon (Machine.logReadBody d s) := .ite (.fail hs) (.result hs)

theorem Verdict.Canon.logClearBody {d} (hs : s.Canon) : Verdict.Canon (Machine.logClearBody d s) := by
  fun_cases Machine.logClearBody d s
  · exact .fail hs
  · exact .done hs
  · exact .fail hs
  · exact .done (.ite hs (.same hs))
  · exact .done (.same hs)

theorem NextCanon.execDarnerScrub {loc outcome} (hs : s.Canon) : NextCanon (Machine.execDarnerScrub loc outcome s) := by
  unfold Machine.execDarnerScrub
  refine .next ?_
  split
  · exact hs
  · split
    · exact .same hs
    · exact .same hs
    · exact .uncorrectable (.same hs)

theorem State.Canon.patrolRead {loc e} (hs : s.Canon) : (s.patrolRead loc e).Canon := by
  fun_cases State.patrolRead s loc e
  · exact hs
  · exact .corrected hs
  · exact .uncorrectable (.same hs)
  · exact .uncorrectable hs

theorem State.Canon.patrolBurst {errs} (hs : s.Canon) : (s.patrolBurst errs).Canon := .same (.foldl hs fun _ _ h => .ite (.patrolRead h) h)

theorem NextCanon.execDarnerPatrolBurst {errs} (hs : s.Canon) : NextCanon (Machine.execDarnerPatrolBurst errs s) := by
  unfold Machine.execDarnerPatrolBurst
  refine .next ?_
  split
  · exact hs
  · split
    · exact .patrolBurst hs
    · split
      · exact hs
      · split
        · exact .patrolBurst (.charge hs)
        · exact .same hs
        · exact hs

theorem State.Canon.putCw {cw off data} (hs : s.Canon) : (s.putCw cw off data).Canon := .ite hs ⟨Mem.wf_writes hs.1, hs.2⟩

theorem State.Canon.partial_ {loc off data old src} (hs : s.Canon) : (s.partial_ loc off data old src).Canon :=
  .ite (.note (.same (.same (.same (.putCw hs))))) (.ite (.same (.putCw hs)) (.same (.putCw hs)))

theorem NextCanon.execPartialWrite {loc off data old} (hs : s.Canon) : NextCanon (Machine.execPartialWrite loc off data old s) := by
  unfold Machine.execPartialWrite
  refine .next ?_
  split
  · exact .partial_ (.same hs)
  · split
    · exact .same (.same hs)
    · exact .note (.same (.same hs))
    · exact .note (.same (.same hs))
    · exact .same hs

/-! ### Regions, BAR4 and the stacks of the HBM -/

theorem State.Canon.wakeStacks {r hd wait ks} (hs : s.Canon) (ht : Machine.wakeStacks r hd wait ks s = some t) : t.Canon := by
  induction ks generalizing s with
  | nil => exact Option.some.inj ht ▸ hs
  | cons k ks ih =>
    rw [Machine.wakeStacks] at ht
    dsimp only at ht
    split at ht
    · exact ih hs ht
    · split at ht
      · split at ht
        · exact ih (.interim hs) ht
        · cases ht
      · split at ht
        · exact ih (.charge hs) ht
        · exact ih (.same (.charge hs)) ht
        · exact ih (.sameHbm (.interim (.same hs))) ht
        · cases ht

theorem Verdict.Canon.regionAllocBody {d} (hs : s.Canon) : Verdict.Canon (Machine.regionAllocBody d s) := by
  unfold Machine.regionAllocBody
  extract_lets +onlyGivenNames n r
  refine .ite (.fail hs) ?_
  extract_lets +onlyGivenNames win
  split
  · extract_lets +onlyGivenNames asleep s₁ fresh s₂ h s₃
    have h₃ : s₃.Canon := .same (.same (.ite (.toActive hs) hs))
    split
    · exact .wait (.wakeStacks h₃ ‹_›)
    · exact .fail h₃
  · exact .fail hs

theorem State.Canon.regionAbort {n r st} (hs : s.Canon) : (s.regionAbort n r st).Canon := by
  induction n generalizing s r with
  | zero => exact hs
  | succ n ih =>
    rw [State.regionAbort]
    split
    · exact hs
    · exact .foldl (.freeRegion (.finish (.foldl hs fun _ _ h => .sameHbm (.same h)))) fun _ _ h => ih h

theorem State.Canon.wakeRefused {k st} (hs : s.Canon) : (s.wakeRefused k st).Canon := .foldl (.sameHbm (.same hs)) fun _ _ => .regionAbort

/-- Ranges cleared one after the other. -/
theorem Mem.wf_clears {lo hi : Nat → Nat} {gs : List Nat} {m : List Host.Cell} (hm : Mem.wf m = true) :
    Mem.wf (gs.foldl (fun m g => Mem.clear m (lo g) (hi g)) m) = true := by
  induction gs generalizing m with
  | nil => exact hm
  | cons g gs ih => exact ih (Mem.wf_clear hm)

theorem State.Canon.zeroRegion {i} (hs : s.Canon) : (s.zeroRegion i).Canon := ⟨Mem.wf_clears hs.1, hs.2⟩

theorem NextCanon.execRegionZeroingDone {ring} (hs : s.Canon) : NextCanon (Machine.execRegionZeroingDone ring s) := by
  unfold Machine.execRegionZeroingDone
  dsimp only
  refine .next ?_
  split
  · exact hs
  · exact .ite hs (.finish (.zeroRegion hs))

theorem Verdict.Canon.regionFreeBody {d} (hs : s.Canon) : Verdict.Canon (Machine.regionFreeBody d s) :=
  .ite (.fail hs) (.ite (.fail hs) (.done (.freeRegion hs)))

theorem State.Canon.bar4Piece {a n e} (hs : s.Canon) : (s.bar4Piece a n e).1.Canon := by
  conv in State.bar4Piece => delta State.bar4Piece
  split
  · exact hs
  · extract_lets +onlyGivenNames x cw data
    split
    · exact .uncorrectable (.same hs)
    · split
      · exact .uncorrectable hs
      · split
        · exact .corrected hs
        · exact hs

theorem NextCanon.execBar4Read {port addr len errs} (hs : s.Canon) : NextCanon (Machine.execBar4Read port addr len errs s) := by
  have hdrop : ∀ {c : Prop} {_ : Decidable c} {t : State}, t.Canon → (if c then t.bar4Drop else t).Canon := fun h => .ite (.sameHbm h) h
  refine .ite .fault (.ite (.next hs) (.next (.same (hdrop ?_))))
  exact List.foldlRecOn (motive := fun p : State × List Byte × Bool => p.1.Canon) _ _ hs fun _ h _ _ => .bar4Piece h

theorem NextCanon.execBar4Write {port addr data} (hs : s.Canon) : NextCanon (Machine.execBar4Write port addr data s) := by
  unfold Machine.execBar4Write
  refine .ite .fault (.ite (.next hs) ?_)
  extract_lets +onlyGivenNames may ps drop s'
  have h' : s'.Canon := by
    refine .foldl hs fun _ _ h => ?_
    split
    · exact h
    · exact .ite (.putBytes h) (.partial_ h)
  exact .next (.ite (.sameHbm h') h')

/-- An update of the HBM beside its bytes. -/
theorem State.Canon.setHbm {f : Hbm → Hbm} (hs : s.Canon) (hf : (f s.hbm).mem = s.hbm.mem) :
    (s.setHbm f).Canon := ⟨hf.symm ▸ hs.1, hs.2⟩

theorem NextCanon.execRefreshDue {pc} (hs : s.Canon) : NextCanon (Machine.execRefreshDue pc s) := by
  refine .next (.ite hs (.setHbm hs ?_))
  dsimp only
  split <;> rfl

theorem NextCanon.execQosPanicExit {p s4} (hs : s.Canon) : NextCanon (Machine.execQosPanicExit p s4 s) := by
  refine .next (.ite (.sameHbm hs) (.foldl (.sameHbm hs) fun _ _ h => .setHbm h ?_))
  dsimp only
  split <;> rfl

theorem NextCanon.execRetrainDue {pc} (hs : s.Canon) : NextCanon (Machine.execRetrainDue pc s) := by
  unfold Machine.execRetrainDue
  refine .next ?_
  split
  · exact hs
  · split
    · exact .sameHbm hs
    · split
      · exact .sameHbm hs
      · exact .ite (.sameHbm hs) hs

theorem State.Canon.hbmCfg {v} (hs : s.Canon) : (s.hbmCfg v).Canon := .ite (.sameHbm hs) (.sameHbm hs)
theorem State.Canon.qosCfg {p v} (hs : s.Canon) : (s.qosCfg p v).Canon := .ite (.sameHbm hs) (.sameHbm hs)

/-! ### Sealed sessions -/

theorem State.Canon.cutDue {k} (hs : s.Canon) : (s.cutDue k).Canon := .same (.foldl hs fun _ _ => .same)
theorem State.Canon.freeSession {k} (hs : s.Canon) : (s.freeSession k).Canon := .same (.setGrant (.same hs))

/-- A cut that is due is written. (The appending of a record is held as a variable, here and in THIMBLE_LOG_FLUSH, so that the kernel
does not evaluate it.) -/
theorem State.Canon.writeCut {k} (hs : s.Canon) : (s.writeCut k).Canon := by
  unfold State.writeCut
  obtain ⟨append, happend⟩ : ∃ f, f = State.appendRecord := ⟨_, rfl⟩
  rw [← happend]
  split
  · exact hs
  · next c rest _ =>
    extract_lets +onlyGivenNames js seg
    have hseg : ∀ {t : State}, seg = some t → t.Canon := by
      intro t ht
      by_cases hnone : js.isEmpty = true
      · rw [show seg = some s from if_pos hnone] at ht
        exact Option.some.inj ht ▸ hs
      · rw [show seg = _ from if_neg hnone] at ht
        obtain ⟨u, hu, rfl⟩ := Option.map_eq_some_iff.1 ht
        exact .same (.appendRecord hs (happend ▸ hu))
    clear_value seg
    split
    · exact hs
    · next s₁ =>
      have h₁ := hseg rfl
      split
      split
      · exact h₁
      · next s₂ hs₂ =>
        extract_lets +onlyGivenNames s₃ s₄ salt s₅
        have h₄ : s₄.Canon := .same (.note (.appendRecord h₁ (happend ▸ hs₂)))
        have h₅ : s₅.Canon := .ite (.freeSession h₄) h₄
        split
        · exact .ite (.finish h₅) (.finish h₅)
        · exact h₅

theorem State.Canon.closeSession {k kind ring} (hs : s.Canon) : (s.closeSession k kind ring).Canon :=
  .foldl (.same (.same hs)) fun _ _ => .writeCut

theorem State.Canon.closeSessions {kind} (hs : s.Canon) : (s.closeSessions kind).Canon := .foldl hs fun _ _ h => .ite (.closeSession h) h
theorem State.Canon.sealDone {k tag} (hs : s.Canon) : (s.sealDone k tag).Canon := .when (.cutDue (.same hs)) .same

/-! ### Measurement processors -/

theorem State.Canon.mpWrite {c} (hs : s.Canon) : (s.mpWrite c).Canon := by
  cases hq : (s.mp c).outq with
  | nil => exact (mpWrite_none hq).symm ▸ hs
  | cons o rest =>
    rw [mpWrite_cons hq]
    cases ht : s.mpAppend c o with
    | none => exact .same hs
    | some u => exact .same (.appendRecord hs ht)

theorem State.Canon.mpFlush {c} (hs : s.Canon) : (s.mpFlush c).Canon := .foldl hs fun _ _ => .mpWrite
theorem State.Canon.mpLeave {c st} (hs : s.Canon) : (s.mpLeave c st).Canon := .same (.same (.mpFlush hs))

theorem State.Canon.mpStopNow {d c} (hs : s.Canon) : (s.mpStopNow d c).Canon :=
  .ite (.same (.ite (.mpLeave hs) hs)) (.when (.ite (.mpLeave hs) hs) .same)

theorem State.Canon.mpDrainCheck {c} (hs : s.Canon) : (s.mpDrainCheck c).Canon := by
  fun_cases State.mpDrainCheck s c
  · refine .foldl hs (fun _ _ h => ?_)
    split
    · exact .ite (.finish (.mpStopNow h)) (.finish h)
    · exact h
  · exact hs

theorem State.Canon.mpTrap {c cause detail} (hs : s.Canon) : (s.mpTrap c cause detail).Canon := .mpDrainCheck (.note (.mpLeave hs))

theorem Verdict.Canon.mpLoadBody {d} (hs : s.Canon) : Verdict.Canon (Machine.mpLoadBody d s) :=
  .ite (.fail hs) (.ite (.fail hs) (.ite (.fail hs) (.wait (.askBuffer (.same hs)))))

theorem Verdict.Canon.mpLoadData {d buf} (hs : s.Canon) : Verdict.Canon (Machine.mpLoadData d buf s) :=
  .ite (.fail hs) (.ite (.fail hs) (.ite (.fail hs) (.ite (.fail hs) (.ite (.fail hs) (.done (.same hs))))))

theorem Verdict.Canon.mpStartGrant {d} (hs : s.Canon) : Verdict.Canon (Machine.mpStartGrant d s) :=
  .ite (.fail hs) (.ite (.fail hs) (.ite (.fail hs) (.done (.same (.same hs)))))

theorem Verdict.Canon.mpStartBody {d} (hs : s.Canon) : Verdict.Canon (Machine.mpStartBody d s) :=
  .ite (.fail hs) (.ite (.fail hs) (.ite (.fail hs) (.ite (.fail hs) (.need (.same hs) fun _ => .mpStartGrant))))

theorem State.Canon.mpWithdraw {c} (hs : s.Canon) : (s.mpWithdraw c).Canon := .ite hs (.foldl (.setGrant (.same hs)) fun _ _ => .finish)

theorem Verdict.Canon.mpStopBody {d} (hs : s.Canon) : Verdict.Canon (Machine.mpStopBody d s) :=
  .ite (.fail hs) (.ite (.wait hs) (.done (.mpDrainCheck (.mpStopNow (.ite (.mpWithdraw hs) hs)))))

theorem NextCanon.execMpStopDrainTimeout {ring} (hs : s.Canon) : NextCanon (Machine.execMpStopDrainTimeout ring s) := by
  unfold Machine.execMpStopDrainTimeout
  refine .next ?_
  split
  · exact .ite (.finish (.same hs)) hs
  · exact hs

theorem State.Canon.mpRun {c err} (hs : s.Canon) : (s.mpRun c err).Canon := by
  fun_cases State.mpRun s c err
  · exact .mpTrap (.ite (.uncorrectable hs) (.ite (.uncorrectable hs) hs))
  · exact .mpDrainCheck (.same hs)
  · exact .same hs
  · exact .mpDrainCheck (.mpLeave (.same (.same hs)))
  · exact .same (.same hs)

theorem NextCanon.execMpInputDelivery {c} (hs : s.Canon) : NextCanon (Machine.execMpInputDelivery c s) := by
  unfold Machine.execMpInputDelivery
  refine .next ?_
  dsimp only
  split
  · exact hs
  · split
    · exact .same hs
    · split <;> exact .same hs

/-! ### Sinks and their rings -/

theorem State.Canon.deliver {k seqs} (hs : s.Canon) : (s.deliver k seqs).Canon := by
  refine .same ?_
  split
  · exact .when (.same hs) .same
  · exact .same hs

theorem State.Canon.writeBack {k b confirmed} (hs : s.Canon) : (s.writeBack k b confirmed).Canon := .when (.when (.same hs) .same) .deliver

theorem State.Canon.closeBuf {k code} (hs : s.Canon) : (s.closeBuf k code).Canon := by
  fun_cases State.closeBuf s k code
  · exact hs
  · exact .same (.same (.same hs))
  · exact .writeBack (.same hs)

theorem State.Canon.openBuf {k first cont} (hs : s.Canon) (ht : s.openBuf k first cont = some t) : t.Canon := by
  unfold State.openBuf at ht
  dsimp only at ht
  split at ht
  · cases ht
  · exact Option.some.inj ht ▸ .same (.when (.same hs) .same)

theorem State.Canon.issue {k seq} (hs : s.Canon) : (s.issue k seq).Canon := .when (.same hs) .same
theorem State.Canon.beginHost {k r} (hs : s.Canon) : (s.beginHost k r).Canon := .same (.issue hs)

theorem State.Canon.startHost {k r} (hs : s.Canon) : (s.startHost k r).Canon := by
  unfold State.startHost
  extract_lets +onlyGivenNames n s₁
  have h₁ : s₁.Canon := by
    unfold s₁
    split
    · exact .ite hs (.closeBuf hs)
    · exact hs
  refine .ite h₁ (.ite (.beginHost h₁) ?_)
  split
  · exact .beginHost (.openBuf h₁ ‹_›)
  · exact h₁

theorem State.Canon.pickQueue {k n ps} (hs : s.Canon) : (s.pickQueue k n ps).1.Canon := by
  induction ps generalizing s with
  | nil => exact hs
  | cons p ps ih =>
    rw [State.pickQueue]
    split
    · split
      · exact hs
      · exact ih (.same hs)
    · exact ih hs

theorem State.Canon.submitOne {k q} (hs : s.Canon) (ht : s.submitOne k q = some t) : t.Canon := by
  unfold State.submitOne at ht
  extract_lets +onlyGivenNames x reg at ht
  split at ht
  · cases ht
  · split at ht
    · cases ht
    · split at ht
      · cases ht
      · exact Option.some.inj ht ▸ .same (.putBytes (.ite (.putBytes hs) hs))

theorem State.Canon.submit {k q} (hs : s.Canon) : (s.submit k q).Canon :=
  .ite hs (.ite hs (.same (.foldl hs fun _ _ h => .getD h (.submitOne h))))

theorem State.Canon.queueRec {k q seq off len} (hs : s.Canon) : (s.queueRec k q seq off len).Canon := .submit (.same hs)
theorem State.Canon.cutSoon {q kind ring} (hs : s.Canon) : (s.cutSoon q kind ring).Canon := .ite (.same hs) (.same hs)

theorem State.Canon.dropCur {k} (hs : s.Canon) : (s.dropCur k).Canon := by
  fun_cases State.dropCur s k
  · exact .cutDue (.same hs)
  · exact .same hs

theorem State.Canon.haltSink {k cause code seq info} (hs : s.Canon) : (s.haltSink k cause code seq info).Canon := by
  unfold State.haltSink
  extract_lets +onlyGivenNames x b count s₁ s₂ s₃ s₄ data
  have h₃ : s₃.Canon := .same (.dropCur (.same hs))
  have h₄ : s₄.Canon := by
    unfold s₄
    clear_value b
    split
    · exact .writeBack h₃
    · exact h₃
  exact .ite (.noteAfter h₄) (.note h₄)

theorem State.Canon.dropQueues {k} (hs : s.Canon) : (s.dropQueues k).Canon := .foldl (.same hs) fun _ _ => .same

theorem State.Canon.unbindNow {k release} (hs : s.Canon) : (s.unbindNow k release).Canon :=
  .ite (.same (.dropQueues (.foldl (.same (.same hs)) fun _ _ => .same))) (.same (.foldl (.same (.same hs)) fun _ _ => .same))

theorem State.Canon.unbindStep {k drain} (hs : s.Canon) : (s.unbindStep k drain).1.Canon := by
  fun_cases State.unbindStep s k drain
  · exact hs
  · exact hs
  · exact .closeBuf hs
  · exact hs
  · exact hs
  · exact .foldl (.same hs) fun _ _ h => .submit (.same h)

theorem State.Canon.unbindCheck {k} (hs : s.Canon) : (s.unbindCheck k).Canon := by
  unfold State.unbindCheck
  split
  · exact hs
  · split
    · exact hs
    · split
      · exact .finish (.unbindNow (.fst_of (.unbindStep hs) ‹_›))
      · exact .fst_of (.unbindStep hs) ‹_›

theorem State.Canon.fetch {port base k bytes i n} (hs : s.Canon) : (s.fetch port base k bytes i n).Canon := .when (.same hs) .same
theorem State.Canon.fetchData {n} (hs : s.Canon) : (s.fetchData n).Canon := .ite (.same (.fetch hs)) hs

theorem State.Canon.startStore {k r} (hs : s.Canon) : (s.startStore k r).Canon := by
  unfold State.startStore
  extract_lets +onlyGivenNames x n
  split
  · exact .haltSink (.fst_of (.pickQueue hs) ‹_›)
  · next s₁ p hp =>
    have h₁ : s₁.Canon := .fst_of (.pickQueue hs) hp
    extract_lets +onlyGivenNames q
    split
    · exact h₁
    · exact .same (.issue h₁)

theorem State.Canon.sealRec {k r} (hs : s.Canon) : (s.sealRec k r).Canon := by
  fun_cases State.sealRec s k r
  · exact .sealDone (.same (.putBytes (.putBytes hs)))
  · exact hs

theorem State.Canon.recordPassed {k r} (hs : s.Canon) : (s.recordPassed k r).Canon := .same (.sealRec hs)

theorem State.Canon.moveBeat {k c err} (hs : s.Canon) : (s.moveBeat k c err).Canon := by
  unfold State.moveBeat
  extract_lets +onlyGivenNames x
  split
  · exact .dropCur hs
  · next r _ =>
    extract_lets +onlyGivenNames s₁ x₁ room m isLast fromHbm met src s₂ s₃
    have h₁ : s₁.Canon := .ite (.getD hs (.openBuf hs)) hs
    have h₂ : s₂.Canon := by
      unfold s₂
      clear_value met
      split
      · exact .readErr h₁
      · exact h₁
    have h₃ : s₃.Canon := .same h₂
    refine .ite (.haltSink (.ite (.same h₃) h₃)) ?_
    extract_lets +onlyGivenNames bytes
    refine .ite ?_ ?_
    · exact .when (.same (.putBytes h₃)) fun h => .queueRec (.recordPassed (.putBytes h))
    · split
      · exact h₃
      · extract_lets +onlyGivenNames p s₄ used s₅ s₆ late
        have h₆ : s₆.Canon := .ite (.recordPassed (.same (.same h₃))) (.same (.same h₃))
        exact .ite (.closeBuf h₆) h₆

theorem State.Canon.sinkBeat {k err} (hs : s.Canon) : (s.sinkBeat k err).Canon := by
  unfold State.sinkBeat
  dsimp only
  refine .unbindCheck ?_
  split
  · refine .moveBeat ?_
    split
    · exact hs
    · split
      · exact .ite hs (.ite (.startStore hs) (.startHost hs))
      · exact hs
  · split
    · exact hs
    · split
      · exact .ite hs (.ite (.startStore hs) (.startHost hs))
      · exact hs

/-! ### Sink commands and NVMe -/

theorem Verdict.Canon.sinkBindRest {d ins} (hs : s.Canon) : Verdict.Canon (Machine.sinkBindRest d ins s) := by
  fun_cases Machine.sinkBindRest d ins s
  · exact .fail hs
  · exact .fail hs
  · exact .done (.whenNot (.when (.same (.same hs)) .same) .same)

theorem Verdict.Canon.sinkBindBody {d} (hs : s.Canon) : Verdict.Canon (Machine.sinkBindBody d s) := by
  unfold Machine.sinkBindBody
  refine .ite (.fail hs) (.ite (.fail hs) (.ite (.fail hs) (.ite ?_ (.sinkBindRest hs))))
  split
  · exact .fail hs
  · exact .wait (.askBuffer (.same (.same (.same hs))))

theorem Verdict.Canon.sinkBindData {d buf} (hs : s.Canon) : Verdict.Canon (Machine.sinkBindData d buf s) :=
  .ite (.fail hs) (.ite (.fail hs) (.sinkBindRest hs))

theorem Verdict.Canon.sinkUnbindBody {d} (hs : s.Canon) : Verdict.Canon (Machine.sinkUnbindBody d s) := by
  unfold Machine.sinkUnbindBody
  extract_lets +onlyGivenNames k
  refine .ite (.fail hs) (.ite (.fail hs) ?_)
  split
  · exact .done (.unbindNow (.fst_of (.unbindStep hs) ‹_›))
  · exact .wait (.same (.fst_of (.unbindStep hs) ‹_›))

theorem Verdict.Canon.storeQueueAttachBody {d} (hs : s.Canon) : Verdict.Canon (Machine.storeQueueAttachBody d s) := by
  fun_cases Machine.storeQueueAttachBody d s
  · exact .fail hs
  · exact .fail hs
  · exact .fail hs
  · exact .fail hs
  · exact .fail hs
  · exact .fail hs
  · exact .done (.same (.same (.same hs)))

theorem State.Canon.stripeSpare {k p} (hs : s.Canon) (hp : s.stripeSpare k = some p) : p.1.Canon := by
  unfold State.stripeSpare at hp
  dsimp only at hp
  split at hp
  · exact Option.some.inj hp ▸ .same (.same hs)
  · cases hp

theorem Verdict.Canon.dmaRestartBody {d} (hs : s.Canon) : Verdict.Canon (Machine.dmaRestartBody d s) := by
  unfold Machine.dmaRestartBody
  extract_lets +onlyGivenNames k x skip
  refine .ite (.fail hs) (.ite (.fail hs) ?_)
  extract_lets +onlyGivenNames gone s₁ first s₂ s₃ s₄ s₅
  have h₂ : s₂.Canon := .same (.same hs)
  have h₃ : s₃.Canon := by
    refine .ite ?_ h₂
    split
    · exact .stripeSpare (p := (_, _)) h₂ ‹_›
    · exact h₂
  have h₄ : s₄.Canon := .foldl h₃ fun _ _ => .submit
  exact .done (.ite h₄ (.fetchData h₄))

theorem NextCanon.execSinkUnbindDrainTimeout {ring} (hs : s.Canon) : NextCanon (Machine.execSinkUnbindDrainTimeout ring s) := by
  unfold Machine.execSinkUnbindDrainTimeout
  refine .next ?_
  split
  · exact .ite (.finish (.same (.same hs))) hs
  · exact hs

theorem NextCanon.execSinkPacingStart {k} (hs : s.Canon) : NextCanon (Machine.execSinkPacingStart k s) := by
  unfold Machine.execSinkPacingStart
  refine .next ?_
  dsimp only
  split
  · exact hs
  · split
    · exact .same hs
    · split
      · exact .ite (.same (.same hs)) hs
      · exact hs

theorem NextCanon.execBufferCloseTime {k} (hs : s.Canon) : NextCanon (Machine.execBufferCloseTime k s) := by
  unfold Machine.execBufferCloseTime
  refine .next ?_
  dsimp only
  split
  · exact .ite (.unbindCheck (.closeBuf (.same hs))) hs
  · exact hs

theorem NextCanon.execConfirmReadDone {k r} (hs : s.Canon) : NextCanon (Machine.execConfirmReadDone k r s) := by
  unfold Machine.execConfirmReadDone
  refine .next ?_
  split
  · exact hs
  · split
    · exact .unbindCheck (.writeBack (.same hs))
    · exact .unbindCheck (.haltSink (.same hs))

theorem State.Canon.nvmeEnd {q r ok} (hs : s.Canon) : (s.nvmeEnd q r ok).Canon := by
  unfold State.nvmeEnd
  extract_lets +onlyGivenNames x k
  split
  · exact hs
  · extract_lets +onlyGivenNames y s₁ drop
    have h₁ : s₁.Canon := .same hs
    refine .unbindCheck (.submit ?_)
    refine .ite h₁ (.ite (.same h₁) (.ite (.same (.same h₁)) (.ite (.deliver (.same h₁)) (.ite (.same h₁) ?_))))
    extract_lets +onlyGivenNames s₂
    have h₂ : s₂.Canon := .same (.same h₁)
    split
    · exact .queueRec (.stripeSpare (p := (_, _)) h₂ ‹_›)
    · exact .haltSink h₂

theorem NextCanon.execCornerTurnBlockEmit {k} (hs : s.Canon) : NextCanon (Machine.execCornerTurnBlockEmit k s) := by
  unfold Machine.execCornerTurnBlockEmit
  refine .next ?_
  split
  · exact .ite (.getD hs (.ctEmit hs)) hs
  · exact hs

theorem NextCanon.execCornerTurnWaitExpiry {k} (hs : s.Canon) : NextCanon (Machine.execCornerTurnWaitExpiry k s) := by
  unfold Machine.execCornerTurnWaitExpiry
  refine .next ?_
  split
  · exact .ite (.getD (.same hs) (.ctEmit (.same hs))) hs
  · exact hs

/-! ### Command and data rings -/

theorem Verdict.Canon.nopBody {d} (hs : s.Canon) : Verdict.Canon (Machine.nopBody d s) := .ite (.done hs) (.fail hs)
theorem Verdict.Canon.devInfoBody {d} (hs : s.Canon) : Verdict.Canon (Machine.devInfoBody d s) := .ite (.fail hs) (.result hs)
theorem Verdict.Canon.badOpcodeBody {d} (hs : s.Canon) : Verdict.Canon (Machine.badOpcodeBody d s) := .fail hs

theorem State.Canon.takeCmds {n ws} (hs : s.Canon) : (s.takeCmds n ws).Canon := by
  induction ws generalizing s with
  | nil => exact hs
  | cons w ws ih =>
    rw [State.takeCmds]
    split
    · exact hs
    · exact ih (.same hs)

theorem State.Canon.takeData {n ws} (hs : s.Canon) : (s.takeData n ws).Canon := by
  induction ws generalizing s with
  | nil => exact hs
  | cons w ws ih =>
    rw [State.takeData]
    split
    · exact hs
    · exact ih (.same hs)

theorem State.Canon.fetchCmd {n} (hs : s.Canon) : (s.fetchCmd n).Canon := .ite (.same (.fetch hs)) hs
theorem State.Canon.rung {n value} (hs : s.Canon) : (s.rung n value).Canon := .wakeIdle (.ite (.same hs) hs)

theorem NextCanon.execCommandDoorbell {port off width value slots} (hs : s.Canon) :
    NextCanon (Machine.execCommandDoorbell port off width value slots s) := by
  unfold Machine.execCommandDoorbell
  refine .next ?_
  split
  · exact hs
  · exact .ite hs (.ite (.same hs) (.takeCmds (.fetchCmd (.same (.rung hs)))))

theorem NextCanon.execDataDoorbell {port off width value slots} (hs : s.Canon) :
    NextCanon (Machine.execDataDoorbell port off width value slots s) := by
  unfold Machine.execDataDoorbell
  refine .next ?_
  split
  · exact hs
  · exact .ite hs (.ite (.same hs) (.whenNot (.same (.rung hs)) fun h => .takeData (.fetchData h)))

theorem NextCanon.execEventDoorbell {port off width value} (hs : s.Canon) :
    NextCanon (Machine.execEventDoorbell port off width value s) := by
  unfold Machine.execEventDoorbell
  refine .next ?_
  split
  · exact hs
  · exact .ite hs (.ite (.same hs) (.same (.rung hs)))

theorem State.Canon.cmdRingCfg {n v} (hs : s.Canon) : (s.cmdRingCfg n v).Canon :=
  .whenNot (.same hs) fun h => .ite (.same h) (.whenNot h fun h => .whenNot h fun h => .whenNot h fun h => .ite h h)

theorem State.Canon.evtRingCfg {n v} (hs : s.Canon) : (s.evtRingCfg n v).Canon :=
  .ite (.whenNot (.same hs) fun h => .ite h h) (.whenNot (.same hs) fun h => .whenNot h fun h => .whenNot h fun h => .whenNot h .same)

theorem State.Canon.dataRingCfg {n v} (hs : s.Canon) : (s.dataRingCfg n v).Canon :=
  .ite (.whenNot (.same hs) fun h => .ite h h) (.whenNot (.same hs) fun h => .whenNot h fun h => .whenNot h fun h => .ite h h)

theorem State.Canon.haltPort {p} (hs : s.Canon) : (s.haltPort p).Canon := .foldl hs fun _ _ h => .ite (.haltSink h) h

/-! ### Streams -/

theorem State.Canon.setLanes {ls f} (hs : s.Canon) : (s.setLanes ls f).Canon := by simpa only [State.Canon, setLanes_parts] using hs
theorem State.Canon.eyeLeave {ls} (hs : s.Canon) : (s.eyeLeave ls).Canon := .ite (.same hs) hs
theorem State.Canon.parkLanes {ls rate} (hs : s.Canon) : (s.parkLanes ls rate).Canon := .setLanes (.eyeLeave hs)
theorem State.Canon.restartAll {i} (hs : s.Canon) : (s.restartAll i).Canon := .foldl hs fun _ _ h => .same (.same h)
theorem State.Canon.laneFault {i l cause stage value} (hs : s.Canon) : (s.laneFault i l cause stage value).Canon := .note hs

theorem State.Canon.streamDownEvent {i cause lane} (hs : s.Canon) : (s.streamDownEvent i cause lane).Canon := by
  unfold State.streamDownEvent
  cases (s.stream i).lastReleased with
  | some k => exact .note hs
  | none => exact .note (.same hs)

theorem State.Canon.markDown {i cause lane} (hs : s.Canon) : (s.markDown i cause lane).Canon := .streamDownEvent (.same hs)

theorem State.Canon.streamDown {i cause lane} (hs : s.Canon) : (s.streamDown i cause lane).Canon :=
  .same (.same (.setLanes (.eyeLeave (.foldl (.foldl (.markDown hs) fun _ _ => .starveChan) fun _ _ => .acqBreak))))

theorem Verdict.Canon.streamOpenGrant {i d} (hs : s.Canon) : Verdict.Canon (Machine.streamOpenGrant i d s) :=
  .done (.same (.setLanes (.ite (.parkLanes hs) hs)))

theorem Verdict.Canon.streamOpenBody {d} (hs : s.Canon) : Verdict.Canon (Machine.streamOpenBody d s) := by
  fun_cases Machine.streamOpenBody d s
  · exact .fail hs
  · exact .fail hs
  · exact .fail hs
  · exact .streamOpenGrant (.same hs)
  · exact .need (.same hs) fun _ => .streamOpenGrant
  · exact .fail hs
  · exact .need (.same hs) fun _ => .streamOpenGrant

theorem Verdict.Canon.streamCloseBody {d} (hs : s.Canon) : Verdict.Canon (Machine.streamCloseBody d s) :=
  .ite (.fail hs) (.ite (.fail hs) (.ite (.done (.same (.setLanes (.eyeLeave hs)))) (.done (.same (.parkLanes hs)))))

theorem Verdict.Canon.streamStatusBody {d} (hs : s.Canon) : Verdict.Canon (Machine.streamStatusBody d s) := by
  unfold Machine.streamStatusBody
  extract_lets +onlyGivenNames x addr
  refine .ite (.fail hs) ?_
  cases x.lastReleased with
  | some k => exact .result hs
  | none => exact .result (.same hs)

/-! ### Clocks -/

theorem State.Canon.abortSlew (hs : s.Canon) : s.abortSlew.Canon := .ite (.same (.same hs)) hs

theorem State.Canon.closeClocked {i} (hs : s.Canon) : (s.closeClocked i).Canon :=
  .foldl (.foldl hs fun _ _ h => .ite (.closeChan h) h) fun _ _ => .acqBreak

theorem State.Canon.clockDown {i} (hs : s.Canon) : (s.clockDown i).Canon :=
  .foldl (.same (.when (.setLanes (.ite (.markDown hs) hs)) .eyeLeave)) fun _ _ => .starveChan

theorem State.Canon.drivesOff (hs : s.Canon) : s.drivesOff.Canon := .foldl hs fun _ _ h => .ite (.driveSource h) h

theorem State.Canon.loseLock {cause drift} (hs : s.Canon) : (s.loseLock cause drift).Canon := by
  unfold State.loseLock
  extract_lets +onlyGivenNames s₁ s₂ s₃ s₄ mine s₅ units s₆ s₇ s₈
  have h₄ : s₄.Canon := .same (.same (.note (.drivesOff (.refreshOuts (.same hs)))))
  have h₅ : s₅.Canon := .foldl h₄ fun _ _ h => .foldl h fun _ _ => .flushFrames
  have h₇ : s₇.Canon := .foldl (.foldl h₅ fun _ _ => .closeClocked) fun _ _ => .acqIdle
  have h₈ : s₈.Canon := .foldl h₇ fun _ _ => .clockDown
  exact .foldl (.same (.same (.same (.abortSlew (.same h₈))))) fun _ _ => .finish

theorem State.Canon.loseLockFree {cause} (hs : s.Canon) : (s.loseLockFree cause).Canon := .ite (.loseLock hs) (.loseLock (.same hs))

theorem State.Canon.pllCfg {v} (hs : s.Canon) : (s.pllCfg v).Canon :=
  .ite (.ite hs (.when (.same hs) .loseLockFree)) (.whenNot (.same hs) fun h => .when h fun h => .refreshOuts (.same h))

theorem State.Canon.coastCfg {v} (hs : s.Canon) : (s.coastCfg v).Canon := .ite (.same hs) (.same hs)
theorem State.Canon.restored {kind} (hs : s.Canon) : (s.restored kind).Canon := .note hs
theorem State.Canon.timeBreak {cause ps periods} (hs : s.Canon) : (s.timeBreak cause ps periods).Canon := .note hs

theorem NextCanon.execPhaseOffsetMeasured {ps} (hs : s.Canon) : NextCanon (Machine.execPhaseOffsetMeasured ps s) := by
  refine .next (.ite hs (.ite (.loseLockFree hs) (.ite (.restored (.same hs)) (.ite ?_ (.same (.same (.same hs)))))))
  exact .same (.restored (.timeBreak (.same (.same hs))))

theorem NextCanon.execCoastWindowExpiry (hs : s.Canon) : NextCanon (Machine.execCoastWindowExpiry s) := by
  unfold Machine.execCoastWindowExpiry
  refine .next ?_
  split
  · exact .loseLockFree (.same hs)
  · exact hs

/-! ### Time -/

theorem State.Canon.acceptEdge {ns t} (hs : s.Canon) : (s.acceptEdge ns t).Canon := .same (.when (.same hs) fun h => .same (.timeBreak h))
theorem State.Canon.edgeRtc (hs : s.Canon) : s.edgeRtc.Canon := .ite (.same hs) hs

theorem State.Canon.goodEdge {ns t} (hs : s.Canon) : (s.goodEdge ns t).Canon :=
  .whenNot (.same hs) fun h => .when (.same h) fun h => .edgeRtc (.acceptEdge h)

theorem State.Canon.badEdge {edge} (hs : s.Canon) : (s.badEdge edge).Canon := .ite (.when (.same hs) .same) (.same (.same hs))

theorem Verdict.Canon.syncScheduleBody {d} (hs : s.Canon) : Verdict.Canon (Machine.syncScheduleBody d s) :=
  .ite (.fail hs) (.ite (.fail hs) (.ite (.fail hs) (.ite (.fail hs) (.wait hs))))

theorem State.Canon.applyEpoch {mask sec sysrefPs sup} (hs : s.Canon) : (s.applyEpoch mask sec sysrefPs sup).1.Canon :=
  .same (.foldl (.foldl hs fun _ _ => .same) fun _ _ h => .foldl h fun _ _ => .epochChan)

theorem State.Canon.sendSysref {d} (hs : s.Canon) : (s.sendSysref d).2.Canon := by
  unfold State.sendSysref
  split
  · exact hs
  · exact .whenNot (.same hs) .same

theorem NextCanon.execSyncEpoch {ring} (hs : s.Canon) : NextCanon (Machine.execSyncEpoch ring s) := by
  unfold Machine.execSyncEpoch
  dsimp only
  refine .next ?_
  split
  · exact hs
  · exact .ite (.finish (.ite (.same hs) hs)) (.finish (.applyEpoch (.sendSysref (.ite (.same hs) hs))))

theorem State.Canon.loadTime {force tb edge} (hs : s.Canon) : (s.loadTime force tb edge).1.Canon := by
  fun_cases State.loadTime s force tb edge
  · exact hs
  · exact .foldl (.when (.same hs) fun h => .same (.timeBreak h)) fun _ _ => .finish

theorem Verdict.Canon.timeSetBody {d} (hs : s.Canon) : Verdict.Canon (Machine.timeSetBody d s) := by
  unfold Machine.timeSetBody
  extract_lets +onlyGivenNames sec
  refine .ite (.fail hs) (.ite ?_ (.wait hs))
  split
  · exact .done (.fst_of (.loadTime hs) ‹_›)
  · exact .fail hs

theorem NextCanon.execTimeSetLoad {ring} (hs : s.Canon) : NextCanon (Machine.execTimeSetLoad ring s) := by
  unfold Machine.execTimeSetLoad
  dsimp only
  refine .next ?_
  split
  · exact hs
  · exact .ite hs (.finish (.loadTime hs))

theorem NextCanon.execTimeSetTimeout {ring} (hs : s.Canon) : NextCanon (Machine.execTimeSetTimeout ring s) := by
  unfold Machine.execTimeSetTimeout
  dsimp only
  refine .next ?_
  split
  · exact hs
  · exact .ite hs (.finish (.same hs))

/-! ### The pair -/

theorem State.Canon.pairPin {new} (hnew : new.Canon) : (Machine.pairPin s new).Canon := .ite (.same hnew) hnew
theorem State.Canon.setRole {role} (hs : s.Canon) : (s.setRole role).Canon := .pairPin (.refreshOuts (.same (.same hs)))
theorem State.Canon.seamOff (hs : s.Canon) : s.seamOff.Canon := .same (.setGrant hs)
theorem Verdict.Canon.pairJoinGrant {d} (hs : s.Canon) : Verdict.Canon (Machine.pairJoinGrant d s) := .wait (.same hs)

theorem Verdict.Canon.pairJoinBody {d} (hs : s.Canon) : Verdict.Canon (Machine.pairJoinBody d s) :=
  .ite (.fail hs) (.ite (.fail hs) (.need hs fun _ => .pairJoinGrant))

theorem State.Canon.joined {r d} (hs : s.Canon) : (s.joined r d).Canon := by
  refine .ite (.finish ?_) (.finish (.same (.setRole (.same hs))))
  exact .foldl (.foldl (.setRole (.same hs)) fun _ _ => .same) fun _ _ h => .ite (.same (.same h)) h

theorem State.Canon.joinFails {r st} (hs : s.Canon) : (s.joinFails r st).Canon := .seamOff (.finish hs)

theorem State.Canon.joinOffer {serial peer role mode rate fw lifecycle agrees} (hs : s.Canon) :
    (s.joinOffer serial peer role mode rate fw lifecycle agrees).Canon := by
  unfold State.joinOffer
  split
  · exact hs
  · exact .ite (.joinFails hs) (.ite (.joinFails hs) (.when (.same hs) .joined))

theorem NextCanon.execPairJoinTimeout {ring} (hs : s.Canon) : NextCanon (Machine.execPairJoinTimeout ring s) := by
  unfold Machine.execPairJoinTimeout
  refine .next ?_
  split
  · exact .joinFails (.same hs)
  · exact hs

theorem State.Canon.releaseCal (hs : s.Canon) : s.releaseCal.Canon := .foldl hs fun _ _ h => .ite (.same (.same h)) h
theorem State.Canon.dissolved (hs : s.Canon) : s.dissolved.Canon := .when (.setRole (.seamOff hs)) .releaseCal

theorem Verdict.Canon.pairRoleBody {d} (hs : s.Canon) : Verdict.Canon (Machine.pairRoleBody d s) := by
  refine .ite (.fail hs) (.ite (.ite (.fail hs) (.done (.dissolved (.same hs)))) ?_)
  exact .ite (.ite (.fail hs) (.wait hs)) (.ite (.fail hs) (.done (.setRole hs)))

theorem NextCanon.execSwitchoverTimeout {ring} (hs : s.Canon) : NextCanon (Machine.execSwitchoverTimeout ring s) := by
  unfold Machine.execSwitchoverTimeout
  refine .next ?_
  split
  · exact .finish (.same hs)
  · exact hs

theorem Verdict.Canon.pairStatusBody {d} (hs : s.Canon) : Verdict.Canon (Machine.pairStatusBody d s) := .ite (.fail hs) (.result hs)
theorem State.Canon.shadowStep {u item level} (hs : s.Canon) : (s.shadowStep u item level).Canon := .ctBreak (.when (.same hs) .same)

theorem State.Canon.shadowSwap {ref ms gen table} (hs : s.Canon) : (s.shadowSwap ref ms gen table).Canon := by
  fun_cases State.shadowSwap s ref ms gen table
  · exact hs
  · exact .askParts (.same (.ite hs (.setGroupGen hs)))

theorem State.Canon.shadowDeliver {k seq} (hs : s.Canon) : (s.shadowDeliver k seq).Canon := .same (.ite (.foldl hs fun _ _ => .sealRec) hs)

theorem State.Canon.mirrored {f} (hs : s.Canon) : (s.mirrored f).Canon := by
  unfold State.mirrored
  split
  · exact .same hs
  · exact .same hs
  · exact .same hs
  · exact .same hs
  · exact .same hs
  · exact .same hs
  · exact .shadowDeliver (.same hs)
  · exact .ite hs (.shadowSwap hs)
  · exact .ite hs (.shadowStep hs)
  · exact hs

theorem State.Canon.takeRings (hs : s.Canon) : s.takeRings.Canon :=
  .same (.foldl (.foldl (.same hs) fun _ _ h => .ite h (.fetchData (.same h))) fun _ _ h => .ite h (.fetchCmd (.same h)))

theorem State.Canon.fillers {n} (hs : s.Canon) : (s.fillers n).Canon := by
  fun_cases State.fillers s n
  · exact hs
  · exact .same hs

theorem State.Canon.takeSinks {dup} (hs : s.Canon) : (s.takeSinks dup).Canon := by
  refine .foldl hs fun t k h => .ite h (.ite ?_ (.same h))
  split
  · exact .same (.same (.same h))
  · exact .same h

theorem State.Canon.resendDone (hs : s.Canon) : s.resendDone.Canon := .same (.foldl hs fun _ _ => .same)

/-! ### Sessions, challenges, the life cycle -/

theorem Verdict.Canon.sealOpenBody {d} (hs : s.Canon) : Verdict.Canon (Machine.sealOpenBody d s) := by
  unfold Machine.sealOpenBody
  refine .ite (.fail hs) (.ite (.fail hs) (.ite (.fail hs) ?_))
  split
  · exact .fail hs
  · exact .wait (.askBuffer (.same (.same (.same hs))))

theorem Verdict.Canon.sealOpenGrant {d} (hs : s.Canon) : Verdict.Canon (Machine.sealOpenGrant d s) := by
  unfold Machine.sealOpenGrant
  extract_lets +onlyGivenNames h k
  refine .ite (.fail hs) (.ite (.fail hs) ?_)
  extract_lets +onlyGivenNames s₁ s₂
  have h₂ : s₂.Canon := .writeCut (.same (.same (.same hs)))
  exact .ite (.done h₂) (.wait (.same h₂))

theorem Verdict.Canon.sealOpenData {d buf} (hs : s.Canon) : Verdict.Canon (Machine.sealOpenData d buf s) := by
  fun_cases Machine.sealOpenData d buf s
  · exact .fail hs
  · exact .fail hs
  · exact .fail hs
  · exact .fail hs
  · exact .fail hs
  · exact .need (.same (.same (.same (.same hs)))) fun _ => .sealOpenGrant

theorem Verdict.Canon.sealCheckpointBody {d} (hs : s.Canon) : Verdict.Canon (Machine.sealCheckpointBody d s) :=
  .ite (.fail hs) (.ite (.fail hs) (.wait (.cutSoon hs)))

theorem Verdict.Canon.sealCloseBody {d} (hs : s.Canon) : Verdict.Canon (Machine.sealCloseBody d s) :=
  .ite (.fail hs) (.ite (.fail hs) (.ite (.fail hs) (.wait (.same (.same hs)))))

theorem State.Canon.reply {p bytes} (hs : s.Canon) : (s.reply p bytes).Canon := .ite (.same hs) hs
theorem State.Canon.issueChallenge (hs : s.Canon) : (s.issueChallenge).2.Canon := .same (.same hs)

theorem State.Canon.finishSealed (hs : s.Canon) : s.finishSealed.Canon := by
  unfold State.finishSealed
  refine .foldl hs (fun _ _ h => ?_)
  split
  · split
    · refine .foldl h (fun _ _ h => ?_)
      split
      · exact .moveBeat h
      · exact h
    · exact h
  · exact h

theorem State.Canon.closeAll {kind} (hs : s.Canon) : (s.closeAll kind).Canon := .closeSessions (.finishSealed hs)

theorem State.Canon.lifeStep {r kind ok} {effect : State → State} (hs : s.Canon)
    (heffect : ∀ {t : State}, t.Canon → (effect t).Canon) : (Machine.lifeStep r kind ok effect s).Canon :=
  .ite hs (.ite (.reply (.journal (heffect (.same hs)))) (.reply hs))

theorem State.Canon.unlock {mask expiry} (hs : s.Canon) : (s.unlock mask expiry).Canon := .journal (.same (.closeAll hs))
theorem State.Canon.relock (hs : s.Canon) : s.relock.Canon := .ite (.journal (.same hs)) hs

theorem NextCanon.execDebugGrantExpiry (hs : s.Canon) : NextCanon (Machine.execDebugGrantExpiry s) := by
  unfold Machine.execDebugGrantExpiry
  refine .next ?_
  split
  · exact .relock (.same hs)
  · exact hs

/-! ### The PAU -/

theorem Verdict.Canon.grantOf {op hd d} (hs : s.Canon) : Verdict.Canon (Machine.grantOf op hd d s) := by
  fun_cases Machine.grantOf op hd d s
  · exact .streamOpenGrant hs
  · exact .chanStartGrant hs
  · exact .chanStartGrant hs
  · exact .done (.sweepMask (.same hs))
  · exact .mpStartGrant hs
  · exact .densSetGrant hs
  · exact .sealOpenGrant hs
  · exact .pairJoinGrant hs
  · exact .done hs

theorem State.Canon.undoOf {op hd d} (hs : s.Canon) : (Machine.undoOf op hd d s).Canon := by
  unfold Machine.undoOf
  split
  · exact .ite (.same hs) (.same hs)
  · exact .same hs
  · exact .same hs
  · exact .undoPlane hs
  · exact .same (.same hs)
  · exact .seamOff hs
  · exact .same hs
  · exact hs

theorem State.Canon.settleGrant {r f need v} (hs : s.Canon) (hv : v.Canon) : (s.settleGrant r f need v).Canon := by
  unfold State.settleGrant
  split
  · exact .complete (.of_done hv rfl)
  · exact .complete (.setGrant (.undoOf hs))
  · exact .settle hs hv

theorem State.Canon.shadowGrant {hd} (hs : s.Canon) : (s.shadowGrant hd).Canon := by
  unfold State.shadowGrant
  split
  · exact hs
  · extract_lets +onlyGivenNames s₁
    have h₁ : s₁.Canon := .same (.same hs)
    split
    · exact .of_done (.grantOf h₁) ‹_›
    · exact h₁
    · have h₂ := State.Canon.of_wait (.grantOf h₁) ‹_›
      exact .ite h₂ (.same h₂)
    · exact h₁

theorem State.Canon.issueGrant {cls q} (hs : s.Canon) : (s.issueGrant cls q).Canon := by
  unfold State.issueGrant
  extract_lets +onlyGivenNames s₁
  have h₁ : s₁.Canon := by
    unfold s₁
    split
    · exact .note hs
    · exact hs
  split
  · exact h₁
  · exact h₁
  · exact .shadowGrant h₁
  · split
    · exact .settleGrant h₁ (.grantOf h₁)
    · exact h₁

theorem State.Canon.examine {n} (hs : s.Canon) : (s.examine n).Canon := by
  induction n generalizing s with
  | zero => exact hs
  | succ n ih =>
    rw [State.examine]
    split
    · exact hs
    · refine .ite hs ?_
      extract_lets +onlyGivenNames rest
      split
      · exact ih (.same (.charge (.same hs)))
      · exact ih (.issueGrant (.charge (.same hs)))

theorem State.Canon.examineAll (hs : s.Canon) : s.examineAll.Canon := .examine hs

theorem State.Canon.refuse {c q st} (hs : s.Canon) : (s.refuse c q st).Canon := by
  fun_cases State.refuse s c q st
  · exact .wakeRefused hs
  · exact .finish (.undoOf (.same hs))
  · exact .same hs
  · exact .same hs

theorem State.Canon.denyUnfit (hs : s.Canon) : s.denyUnfit.Canon := .foldl hs fun _ _ h => .foldl h fun _ _ h => .ite (.refuse h) h

theorem Verdict.Canon.powerBudgetBody {d} (hs : s.Canon) : Verdict.Canon (Machine.powerBudgetBody d s) :=
  .ite (.fail hs) (.done (.examineAll (.denyUnfit (.same hs))))

theorem Verdict.Canon.powerQueryBody {d} (hs : s.Canon) : Verdict.Canon (Machine.powerQueryBody d s) := .ite (.fail hs) (.result hs)

theorem Verdict.Canon.sleepBody {d} (hs : s.Canon) : Verdict.Canon (Machine.sleepBody d s) :=
  .ite (.fail hs) (.ite (.fail hs) (.done (.same hs)))

/-! ### Reset and power states -/

theorem State.Canon.outputsOff (hs : s.Canon) : s.outputsOff.Canon :=
  .foldl (.foldl hs fun _ _ h => .ite (.same h) h) fun _ _ h => .ite (.same h) h

theorem State.Canon.resetDie {keepLog} (hs : s.Canon) : (s.resetDie keepLog).Canon := ⟨rfl, hs.2⟩
theorem State.Canon.releaseDie (hs : s.Canon) : s.releaseDie.Canon := .ite (.same hs) (.same hs)
theorem State.Canon.restartDie {keepLog} (hs : s.Canon) : (s.restartDie keepLog).Canon := .releaseDie (.resetDie hs)
theorem State.Canon.enterSafe {heat} (hs : s.Canon) : (s.enterSafe heat).Canon := .ite (.same hs) (.same (.same (.resetDie hs)))
theorem State.Canon.toIdle (hs : s.Canon) : s.toIdle.Canon := .refreshOuts (.sameHbm hs)
theorem State.Canon.toDormant (hs : s.Canon) : s.toDormant.Canon := .same (.resetDie hs)

theorem State.Canon.wakeSleep {src} (hs : s.Canon) : (s.wakeSleep src).Canon := by
  fun_cases State.wakeSleep s src
  · exact hs
  · exact .same (.same (.ite (.toIdle hs) (.same hs)))
  · exact .same (.same (.ite (.toIdle hs) (.same hs)))
  · exact .same (.same (.same (.same (.same hs))))
  · exact .restartDie (.same (.same (.same hs)))
  · exact hs

theorem State.Canon.leaveSafe (hs : s.Canon) : s.leaveSafe.Canon := .restartDie (.same hs)

/-! ### Thimble -/

theorem State.Canon.shed {ch} (hs : s.Canon) : (s.shed ch).Canon := .journal (.note (.enterHalted hs))
theorem State.Canon.refreshAlarms (hs : s.Canon) : s.refreshAlarms.Canon := .foldl hs fun _ _ h => .ite (.same (.same h)) h
theorem State.Canon.aonEvent {i r cleared v} (hs : s.Canon) : (s.aonEvent i r cleared v).Canon := .event hs

theorem State.Canon.ruleActs {i r v} (hs : s.Canon) : (s.ruleActs i r v).Canon := by
  unfold State.ruleActs
  extract_lets +onlyGivenNames s₁ s₂ s₃ s₄ s₅
  have h₂ : s₂.Canon := .when (.refreshAlarms hs) fun h => .ite (.foldl h fun _ _ => .shed) (.enterSafe h)
  have h₄ : s₄.Canon := .when (.when h₂ .same) .same
  exact .when (.when h₄ .aonEvent) .wakeSleep

theorem State.Canon.ruleSee {i v} (hs : s.Canon) : (s.ruleSee i v).Canon := by
  unfold State.ruleSee
  split
  · exact hs
  · extract_lets +onlyGivenNames x
    split
    · exact .ite (.when (.when (.refreshAlarms (.same hs)) .same) .aonEvent) hs
    · exact .ite (.same hs) (.ite (.ruleActs (.same hs)) (.same hs))

theorem State.Canon.rulesSee {input v} (hs : s.Canon) : (s.rulesSee input v).Canon := by
  unfold State.rulesSee
  refine .foldl hs (fun _ _ h => ?_)
  split
  · exact .ite (.ruleSee h) h
  · exact h

theorem State.Canon.monResult {input code urgent} (hs : s.Canon) : (s.monResult input code urgent).Canon := by
  unfold State.monResult
  extract_lets +onlyGivenNames w
  have htake : (if filtL w = 1 then (0#64, s) else s.freeTake).2.Canon := by
    split
    · exact hs
    · exact .same hs
  split
  next v s₁ hv =>
    rw [hv] at htake
    split
    split
    · exact .same htake
    · exact .whenNot (.same htake) .rulesSee

theorem State.Canon.monSequenced {code} (hs : s.Canon) : (s.monSequenced code).Canon :=
  .same (.ite (.same (.same hs)) (.monResult (.same hs)))

theorem State.Canon.monUrgent {input code} (hs : s.Canon) : (s.monUrgent input code).Canon := .monResult (.same hs)

/-! ### Thimble commands and its log -/

theorem Verdict.Canon.aonRulesData {d buf} (hs : s.Canon) : Verdict.Canon (Machine.aonRulesData d buf s) :=
  .ite (.fail hs) (.ite (.fail hs) (.ite (.fail hs) (.ite (.fail hs) (.done (.refreshAlarms (.same (.same hs)))))))

theorem Verdict.Canon.aonRulesBody {d} (hs : s.Canon) : Verdict.Canon (Machine.aonRulesBody d s) :=
  .ite (.fail hs) (.ite (.fail hs) (.ite (.aonRulesData hs) (.ite (.fail hs) (.readBuffer (.ite hs (.same (.same hs)))))))

theorem NextCanon.execMonConversionDone {code} (hs : s.Canon) : NextCanon (Machine.execMonConversionDone code s) := by
  unfold Machine.execMonConversionDone
  refine .next ?_
  split
  · exact .monUrgent hs
  · exact .ite (.monSequenced (.same hs)) hs

theorem NextCanon.execThimbleLogFlush (hs : s.Canon) : NextCanon (Machine.execThimbleLogFlush s) := by
  unfold Machine.execThimbleLogFlush
  obtain ⟨append, happend⟩ : ∃ f, f = State.appendRecord := ⟨_, rfl⟩
  rw [← happend]
  refine .next ?_
  split
  · refine .ite hs ?_
    extract_lets +onlyGivenNames ents due s₁ plain hdr
    have h₁ : s₁.Canon := .ite hs (.same hs)
    split
    · next u hu => exact .same (.appendRecord h₁ (happend ▸ hu))
    · exact h₁
  · exact hs

theorem State.Canon.monTable {e j v} (hs : s.Canon) : (s.monTable e j v).Canon := .ite (.same hs) (.same hs)
theorem State.Canon.monFilt {i v} (hs : s.Canon) : (s.monFilt i v).Canon := .ite (.same hs) (.same hs)
theorem State.Canon.monCmp {k v} (hs : s.Canon) : (s.monCmp k v).Canon := .ite (.same hs) (.same hs)
theorem State.Canon.alarmCfg {v} (hs : s.Canon) : (s.alarmCfg v).Canon := .refreshAlarms (.same hs)
theorem State.Canon.wdtCfg {v} (hs : s.Canon) : (s.wdtCfg v).Canon := .ite (.same hs) (.same hs)

/-! ### Commands of a ring -/

theorem Verdict.Canon.bodyOf {op d} (hs : s.Canon) : Verdict.Canon (Machine.bodyOf op d s) := by
  cases op with
  | nop => exact .nopBody hs
  | devInfo => exact .devInfoBody hs
  | powerBudget => exact .powerBudgetBody hs
  | powerQuery => exact .powerQueryBody hs
  | syncSchedule => exact .syncScheduleBody hs
  | timeSet => exact .timeSetBody hs
  | streamOpen => exact .streamOpenBody hs
  | streamClose => exact .streamCloseBody hs
  | streamStatus => exact .streamStatusBody hs
  | regionAlloc => exact .regionAllocBody hs
  | regionFree => exact .regionFreeBody hs
  | memRetire => exact .memRetireBody hs
  | chanCreate => exact .chanCreateBody hs
  | chanDestroy => exact .chanDestroyBody hs
  | chanTune => exact .chanTuneBody hs
  | chanFilter => exact .chanFilterBody hs
  | chanSpectral => exact .chanSpectralBody hs
  | chanProducts => exact .chanProductsBody hs
  | chanStart => exact .chanStartBody hs
  | chanStop => exact .chanStopBody hs
  | chanResume => exact .chanResumeBody hs
  | trigSet => exact .trigSetBody hs
  | trigCombine => exact .trigCombineBody hs
  | trigMaskLoad => exact .trigMaskLoadBody hs
  | acqSet => exact .acqSetBody hs
  | acqArm => exact .acqArmBody hs
  | acqDisarm => exact .acqDisarmBody hs
  | acqForce => exact .acqForceBody hs
  | sweepSet => exact .sweepSetBody hs
  | sweepRun => exact .sweepRunBody hs
  | densSet => exact .densSetBody hs
  | densSnapshot => exact .densSnapshotBody hs
  | calSet => exact .calSetBody hs
  | calTableLoad => exact .calTableLoadBody hs
  | calFreeze => exact .calFreezeBody hs
  | sinkBind => exact .sinkBindBody hs
  | sinkUnbind => exact .sinkUnbindBody hs
  | storeQueueAttach => exact .storeQueueAttachBody hs
  | dmaRestart => exact .dmaRestartBody hs
  | mpLoad => exact .mpLoadBody hs
  | mpStart => exact .mpStartBody hs
  | mpStop => exact .mpStopBody hs
  | logRead => exact .logReadBody hs
  | logClear => exact .logClearBody hs
  | sealOpen => exact .sealOpenBody hs
  | sealCheckpoint => exact .sealCheckpointBody hs
  | sealClose => exact .sealCloseBody hs
  | pairJoin => exact .pairJoinBody hs
  | pairRole => exact .pairRoleBody hs
  | pairStatus => exact .pairStatusBody hs
  | aonRules => exact .aonRulesBody hs
  | sleep => exact .sleepBody hs
  | bad _ => exact .badOpcodeBody hs

theorem Verdict.Canon.dataOf {op d data} (hs : s.Canon) : Verdict.Canon (Machine.dataOf op d data s) := by
  unfold Machine.dataOf
  split
  · exact .trigMaskData hs
  · exact .calTableData hs
  · exact .sweepMaskData hs
  · exact .chanSpectralData hs
  · exact .chanFilterData hs
  · exact .mpLoadData hs
  · exact .sinkBindData hs
  · exact .aonRulesData hs
  · exact .sealOpenData hs
  · exact .fail hs

theorem Verdict.Canon.dataWith {op d data} (hs : s.Canon) : Verdict.Canon (Machine.dataWith op d data s) := .ite (.dataOf hs) (.fail hs)

theorem Verdict.Canon.runWith {op d data} (hs : s.Canon) : Verdict.Canon (Machine.runWith op d data s) := by
  unfold Machine.runWith
  refine .ite (.fail hs) ?_
  split
  · exact .dataOf hs
  · exact .bodyOf hs

theorem Verdict.Canon.rerun {f} (hs : s.Canon) : Verdict.Canon (s.rerun f) := .ite (.runWith (.same hs)) (.dataWith (.same hs))

theorem State.Canon.view (hs : s.Canon) : s.view.Canon := by
  refine .foldl hs fun _ _ h => ?_
  split
  · exact .same (.of_done (.rerun h) ‹_›)
  · exact .same (.of_wait (.rerun h) ‹_›)
  · exact .same (.of_need (.rerun h) ‹_›)
  · exact h

theorem State.Canon.mirrorRun {r op d} (hs : s.Canon) : (s.mirrorRun r op d).Canon := by
  unfold State.mirrorRun
  extract_lets +onlyGivenNames w
  split
  · exact .complete hs
  · split
    · exact .same (.settle hs (.bodyOf (.same hs)))
    · exact .mirrorOr hs (.bodyOf (.view hs))

theorem State.Canon.commit {r} (hs : s.Canon) : (s.commit r).Canon := by
  fun_cases State.commit s r
  · exact hs
  · exact .same (.settle (.same hs) (.rerun (.same hs)))

theorem State.Canon.acceptRun {op d} (hs : s.Canon) : (Machine.acceptRun op d s).Canon := by
  fun_cases Machine.acceptRun op d s
  · exact .mirrorRun (.same hs)
  · exact .complete (.same hs)
  · exact .settle (.same hs) (.bodyOf (.same hs))

theorem State.Canon.runCommand {op d} (hs : s.Canon) : (Machine.runCommand op d s).Canon :=
  .ite hs (.ite (.acceptRun (.fetched hs)) (.same (.fetched hs)))

theorem State.Canon.adopt {op d hd} (hs : s.Canon) : (s.adopt op d hd).Canon := by
  fun_cases State.adopt s op d hd
  · exact hs
  all_goals exact .same (.same hs)

theorem State.Canon.warmHold {hd d} (hs : s.Canon) : (s.warmHold hd d).Canon := .same (.same (.parkLanes hs))

theorem Verdict.Canon.warmRun {op d data} (hs : s.Canon) : Verdict.Canon (s.warmRun op d data) := by
  unfold State.warmRun
  extract_lets +onlyGivenNames i stop close
  split
  · exact .done (.same (.same hs))
  · exact .done (.same (.same hs))
  · exact .done (.same hs)
  · split
    · exact .done (.warmHold (.of_need (.streamOpenBody hs) ‹_›))
    · exact .done (.warmHold hs)
    · exact .streamOpenBody hs
  · split
    · exact .done (.same (.ite hs (.of_done (.streamCloseBody hs) ‹_›)))
    · exact .streamCloseBody hs
  · exact .runWith hs

theorem State.Canon.stepDown (hs : s.Canon) : s.stepDown.Canon := by
  refine .ite (.foldl (.foldl hs fun _ _ h => ?_) fun _ _ h => ?_) (.foldl hs fun _ _ h => .ite (.same (.same h)) h)
  · exact .when (.ite (.same h) h) .enterStopped
  · exact .ite (.warmHold h) (.ite (.same (.parkLanes h)) h)

theorem State.Canon.switchTurn (hs : s.Canon) : s.switchTurn.Canon := by
  unfold State.switchTurn
  split
  · exact .ite (.stepDown (.setRole (.finish (.same hs)))) hs
  · exact hs

theorem State.Canon.shadowRun {op d data hd} (hs : s.Canon) : (s.shadowRun op d data hd).Canon := by
  unfold State.shadowRun
  extract_lets +onlyGivenNames r
  refine .ite (.same hs) ?_
  extract_lets +onlyGivenNames s₀ s₁ clear
  have h₁ : s₁.Canon := .same (.adopt hs)
  have hv : Verdict.Canon (if s₁.pair.warm then s₁.warmRun op d data else Machine.runWith op d data s₁) :=
    .ite (.warmRun h₁) (.runWith h₁)
  revert hv
  generalize (if s₁.pair.warm then s₁.warmRun op d data else Machine.runWith op d data s₁) = v
  intro hv
  split
  · exact .complete (.same (.same (.of_done hv rfl)))
  · exact .same hs
  · exact .same (.same (.same (.of_wait hv rfl)))
  · cases hv with
    | need h₂ hk =>
      extract_lets +onlyGivenNames s₂
      have h₃ : s₂.Canon := .same (.toActive (.same h₂))
      split
      · exact .settle h₃ (hk _ (.charge h₃))
      · exact .same (.same (.charge h₃))
      · exact .same (.same (.same (.same h₃)))

theorem State.Canon.shadowTurn (hs : s.Canon) : s.shadowTurn.Canon := by
  fun_cases State.shadowTurn s
  · exact hs
  · exact hs
  · exact hs
  · exact .shadowRun (.same hs)

theorem State.Canon.firmware (hs : s.Canon) : s.firmware.Canon := by
  unfold State.firmware
  split
  · exact hs
  · exact .ite (.acceptRun (.same hs)) (.same hs)

theorem State.Canon.commitAll (hs : s.Canon) : s.commitAll.Canon := .ite hs (.foldl hs fun _ _ => .commit)
theorem State.Canon.turnAll (hs : s.Canon) : s.turnAll.Canon := .ite hs (.same (.switchTurn (.shadowTurn (.firmware (.commitAll hs)))))

/-! ### Thermal states, ports, power -/

theorem NextCanon.execPowerQueueTimeout {cls i} (hs : s.Canon) : NextCanon (Machine.execPowerQueueTimeout cls i s) := by
  unfold Machine.execPowerQueueTimeout
  refine .next ?_
  split
  · exact hs
  · exact .ite hs (.refuse (.same hs))

theorem NextCanon.execGrantSpacingExpiry (hs : s.Canon) : NextCanon (Machine.execGrantSpacingExpiry s) := by
  unfold Machine.execGrantSpacingExpiry
  refine .next ?_
  split
  · exact hs
  · exact .issueGrant (.same (.same hs))

theorem State.Canon.thermal {cause} (hs : s.Canon) : (s.thermal cause).Canon := .note hs
theorem State.Canon.criticalStep (hs : s.Canon) : s.criticalStep.Canon := .foldl hs fun _ _ h => .ite (.arrStep h) h

theorem State.Canon.thermalStates (hs : s.Canon) : s.thermalStates.Canon := by
  unfold State.thermalStates
  extract_lets +onlyGivenNames hot w limit crit hyst set s₁ s₂
  have h₁ : s₁.Canon := by
    unfold s₁
    split
    · exact .ite (.thermal (.same hs)) hs
    · exact hs
  have h₂ : s₂.Canon := by
    unfold s₂
    split
    · exact .ite (.criticalStep (.thermal (.same h₁))) h₁
    · exact .ite (.thermal (.same h₁)) h₁
  split
  · exact .ite (.thermal (.same h₂)) h₂
  · exact h₂

theorem NextCanon.execShedTimer (hs : s.Canon) : NextCanon (Machine.execShedTimer s) := by
  unfold Machine.execShedTimer
  refine .next ?_
  split
  · dsimp only
    split
    · exact .shed (.same (.same hs))
    · exact .same (.same hs)
  · exact hs

theorem State.Canon.avsStat {v} (hs : s.Canon) : (s.avsStat v).Canon := .ite (.same (.same hs)) hs

theorem State.Canon.resumePort {p} (hs : s.Canon) : (s.resumePort p).Canon := by
  unfold State.resumePort
  extract_lets +onlyGivenNames w held io s₁ s₂ s₃ s₄ s₅
  have h₃ : s₃.Canon := by
    refine .foldl (.same (.same hs)) fun t r h => ?_
    extract_lets +onlyGivenNames u
    have hu : u.Canon := by
      unfold u
      split
      · exact .ite (.settle h (.bodyOf h)) (.ite (.askBuffer h) h)
      · exact h
    exact .ite (.fetchCmd hu) hu
  have h₄ : s₄.Canon := .foldl h₃ fun _ _ h => .ite (.fetchData h) h
  have h₅ : s₅.Canon := .foldl h₄ fun _ _ h => .ite (.same h) h
  exact .same h₅

theorem NextCanon.execHostReadCompletion {target r} (hs : s.Canon) : NextCanon (Machine.execHostReadCompletion target r s) := by
  unfold Machine.execHostReadCompletion
  refine .next ?_
  split
  · split
    · exact hs
    · split
      · exact .mirrorOr (.same hs) (.dataWith (.same hs))
      · exact .complete (.unclaim (.same hs))
  · split
    · exact hs
    · split
      · exact .takeCmds hs
      · exact .same (.same hs)
  · split
    · exact hs
    · split
      · exact .takeData hs
      · exact .foldl (.same (.same hs)) fun _ _ h => .ite (.haltSink h) h

theorem NextCanon.execPowerStateEntryDone (hs : s.Canon) : NextCanon (Machine.execPowerStateEntryDone s) := by
  unfold Machine.execPowerStateEntryDone
  refine .next ?_
  split
  · exact hs
  · exact .ite (.toIdle hs) (.same hs)
  · exact .ite (.same hs) (.ite hs (.same (.ite (.toIdle hs) hs)))
  · exact .ite (.toDormant hs) (.same hs)
  · exact hs

theorem State.Canon.abortCmd {r} (hs : s.Canon) : (s.abortCmd r).Canon := by
  unfold State.abortCmd
  split
  · exact hs
  · exact .ite (.regionAbort hs) (.finish (.ite (.when (.undoOf (.same hs)) .dropGrant) hs))

theorem State.Canon.reload (hs : s.Canon) : s.reload.Canon := .same (.foldl (.ite (.same (.same hs)) hs) fun _ _ => .abortCmd)

/-! ### The boot flash -/

theorem State.Canon.flashSel {v} (hs : s.Canon) : (s.flashSel v).Canon := .ite (.ite (.sameFlash hs) (.same (.sameFlash hs))) hs

theorem State.Canon.flashGo {op} (hs : s.Canon) : (s.flashGo op).Canon :=
  .ite (.sameFlash hs) (.ite (.sameFlash hs) (.same (.sameFlash hs)))

theorem State.Canon.flashCtl {v} (hs : s.Canon) : (s.flashCtl v).Canon := .ite (.same hs) (.when (.flashSel (.sameFlash hs)) .flashGo)

theorem State.Canon.flashBytes {a n} (hs : s.Canon) : (s.flashBytes a n).2.Canon := by
  fun_cases State.flashBytes s a n
  · exact .same hs
  · exact hs

/-- Bytes put into the flash's array. -/
theorem State.Canon.flashPut {a l} (hs : s.Canon) : (s.setFlash fun f => f.put a l).Canon := ⟨hs.1, Mem.wf_writes hs.2⟩

/-- A page programmed. -/
theorem State.Canon.flashProgram {a} (hs : s.Canon) : (s.setFlash fun f => f.program a).Canon := by
  refine ⟨hs.1, ?_⟩
  simp only [State.setFlash, Flash.program]
  exact Mem.wf_writes hs.2

/-- The descriptor copies lie beside the flash's array. -/
theorem State.Canon.flashWriteDesc {slotB how} (hs : s.Canon) : (s.setFlash fun f => f.writeDesc slotB how).Canon := by
  refine ⟨hs.1, ?_⟩
  simp only [State.setFlash, Flash.writeDesc]
  split <;> exact hs.2

theorem NextCanon.execFlashOperationDone {failed} (hs : s.Canon) : NextCanon (Machine.execFlashOperationDone failed s) := by
  unfold Machine.execFlashOperationDone
  refine .next ?_
  split
  · exact hs
  · next op a _ =>
    extract_lets +onlyGivenNames s₁
    have h₁ : s₁.Canon := .sameFlash hs
    split
    · have hbytes : (if failed then s₁.freeBytes 256 else s₁.flashBytes a 256).2.Canon := by
        split
        · exact .same h₁
        · exact .flashBytes h₁
      exact .sameFlash hbytes
    · exact .ite (.flashPut (.same h₁)) (.flashProgram h₁)
    · exact .ite (.flashPut (.same h₁)) ⟨h₁.1, Mem.wf_clear h₁.2⟩
    · have hfree : (if failed then s₁.freeTake else (0, s₁)).2.Canon := by
        split
        · exact .same h₁
        · exact h₁
      exact .flashWriteDesc hfree

/-! ### Lanes -/

theorem State.Canon.readOrder {i l info} (hs : s.Canon) : (s.readOrder i l info).Canon :=
  .ite (.restartAll (.setLanes (.laneFault (.same hs)))) (.same (.same hs))

theorem State.Canon.deskew {i l skewPs} (hs : s.Canon) : (s.deskew i l skewPs).Canon :=
  .ite hs (.ite (.restartAll (.laneFault (.same hs))) (.same (.same hs)))

theorem NextCanon.execLaneStageComplete {lane info} (hs : s.Canon) : NextCanon (Machine.execLaneStageComplete lane info s) := by
  unfold Machine.execLaneStageComplete
  dsimp only
  refine .next ?_
  split
  · exact hs
  · split
    · exact hs
    · split
      · exact .same hs
      · exact .same hs
      · exact .same (.same (.same hs))
      · exact .same hs
      · exact .same hs
      · exact .ite (.same hs) hs
      · exact .ite (.readOrder hs) (.same hs)
      · exact .deskew hs
      · exact hs

theorem NextCanon.execLaneStageTimeout {lane} (hs : s.Canon) : NextCanon (Machine.execLaneStageTimeout lane s) := by
  unfold Machine.execLaneStageTimeout
  dsimp only
  refine .next ?_
  split
  · exact hs
  · exact .ite (.same (.same (.laneFault (.same hs)))) hs

theorem State.Canon.release {i latest edge arrivalPs} (hs : s.Canon) : (s.release i latest edge arrivalPs).Canon :=
  .same (.when (.note (.when (.setLanes hs) .laneFault)) fun h => .foldl h fun _ _ => .same)

theorem NextCanon.execLaneLockLoss {lane cause} (hs : s.Canon) : NextCanon (Machine.execLaneLockLoss lane cause s) := by
  unfold Machine.execLaneLockLoss
  dsimp only
  refine .next ?_
  split
  · exact hs
  · exact .ite (.streamDown hs) (.ite (.same (.same (.laneFault (.same hs)))) hs)

theorem State.Canon.streamSample {i slots gap} (hs : s.Canon) : (s.streamSample i slots gap).Canon := by
  fun_cases State.streamSample s i slots gap
  · exact hs
  · exact .feed (.same hs)
  · exact .foldl (.feed (.same hs)) fun _ _ => .same

theorem State.Canon.crcFail {i l} (hs : s.Canon) : (s.crcFail i l).Canon := .when (.same (.same hs)) .laneFault

theorem State.Canon.countMultiblock {i mb} (hs : s.Canon) : (s.countMultiblock i mb).Canon :=
  .foldl (.foldl (.foldl hs fun _ _ h => .ite (.crcFail h) h) fun _ _ h => .ite (.same (.same h)) h) fun _ _ => .same

theorem State.Canon.adaptAll {i} (hs : s.Canon) : (s.adaptAll i).Canon := .foldl hs fun _ _ h => .same (.same h)
theorem State.Canon.eyeCtl {v} (hs : s.Canon) : (s.eyeCtl v).Canon := .when (.same hs) fun h => .ite h h

/-! ### Register reads -/

theorem State.Canon.clearRc {t r} (hs : s.Canon) : (s.clearRc t r).Canon := by
  fun_cases State.clearRc s t r
  case case14 | case15 | case16 => exact .sameHbm hs
  case case26 => exact hs
  all_goals exact .same hs

theorem State.Canon.busRead {port w touched} (hs : s.Canon) : (s.busRead port w touched).2.Canon := by
  fun_cases State.busRead s port w touched
  · exact hs
  · exact hs
  · exact .ite hs (.clearRc hs)

/-! ### Register writes -/

theorem State.Canon.pinsMoved {new} (hnew : new.Canon) : (Machine.pinsMoved s new).Canon := .foldl hnew fun _ _ h => .ite (.same h) h

theorem State.Canon.pinFunc {n v} (hs : s.Canon) : (s.pinFunc n v).Canon :=
  .whenNot (.same hs) fun h => .whenNot h fun h => .ite (.refreshAlarms h) (.pinsMoved h)

theorem State.Canon.trigCfg {n v} (hs : s.Canon) : (s.trigCfg n v).Canon := by
  refine .whenNot (.same hs) fun h => .whenNot h fun h => ?_
  exact .pinsMoved h

theorem State.Canon.evtMod {n v} (hs : s.Canon) : (s.evtMod n v).Canon := .whenNot (.same hs) fun h => .when h .same
theorem State.Canon.msixWrite {port e w v} (hs : s.Canon) : (s.msixWrite port e w v).Canon := .when (.same hs) fun h => .same (.same h)

theorem State.Canon.budgetDef {v} (hs : s.Canon) : (s.budgetDef v).Canon :=
  .whenNot (.same hs) fun h => .whenNot h fun h => .examineAll (.denyUnfit (.same h))

theorem State.Canon.thermCfg {v} (hs : s.Canon) : (s.thermCfg v).Canon := .whenNot (.same hs) fun h => .denyUnfit (.thermalStates h)
theorem State.Canon.uartCfg {v} (hs : s.Canon) : (s.uartCfg v).Canon := .ite hs (.ite (.same hs) (.same hs))

theorem State.Canon.writeClear {v x2} (hs : s.Canon) : (s.writeClear v x2).Canon := by
  fun_cases State.writeClear s v x2
  · exact .same hs
  · exact .same hs
  · exact .same hs
  · exact .same hs
  · exact .sameHbm hs
  · exact .same hs
  · exact .sameFlash hs
  · exact hs

theorem State.Canon.writeReg {port v r} (hs : s.Canon) : (s.writeReg port v r).Canon := by
  unfold State.writeReg
  dsimp only
  split
  · exact .ite (.restartDie hs) hs
  · exact .ite hs (.same hs)
  · exact .ite hs (.same hs)
  · exact .cmdRingCfg hs
  · exact .ite hs (.same hs)
  · exact .evtRingCfg hs
  · exact .evtMod hs
  · exact .ite hs (.same hs)
  · exact .dataRingCfg hs
  · exact .same hs
  · exact .msixWrite hs
  · exact .pinFunc hs
  · exact .pinsMoved (.same hs)
  · exact .trigCfg hs
  · exact .pllCfg hs
  · exact .coastCfg hs
  · exact .clkoutCfg hs
  · exact .clkoutPhase hs
  · exact .same hs
  · exact .eyeCtl hs
  · exact .hbmCfg hs
  · exact .qosCfg hs
  · exact .same hs
  · exact .budgetDef hs
  · exact .thermCfg hs
  · exact .same (.same hs)
  · exact .avsStat hs
  · exact .same hs
  · exact .alarmCfg hs
  · exact .same hs
  · exact .wdtCfg hs
  · exact .same hs
  · exact .same hs
  · exact .monCmp hs
  · exact .monTable hs
  · exact .monFilt hs
  · exact .flashCtl hs
  · exact .sameFlash hs
  · exact .sameFlash hs
  · exact .uartCfg hs
  · exact .writeClear hs

theorem State.Canon.tryWrite {port v r} (hs : s.Canon) : (s.tryWrite port v r).1.Canon := .sameHbm (.writeReg (.sameHbm hs))

theorem State.Canon.wordWrite {port off v} (hs : s.Canon) : (s.wordWrite port off v).Canon := by
  unfold State.wordWrite
  split
  · exact .same hs
  · exact .ite hs (.ite (.whenNot (.tryWrite hs) .journalReg) (.writeReg hs))

theorem State.Canon.busWrite {port off width v} (hs : s.Canon) : (s.busWrite port off width v).Canon :=
  .ite hs (.whenNot (.wordWrite hs) fun h => .ite (.when h .wordWrite) (.same hs))

theorem State.Canon.write0 {off v} (hs : s.Canon) : (s.write0 off v).Canon := .busWrite hs

theorem NextCanon.execMonConfigWrite {off value} (hs : s.Canon) : NextCanon (Machine.execMonConfigWrite off value s) := by
  unfold Machine.execMonConfigWrite
  refine .next ?_
  split
  · exact .write0 hs
  · exact .write0 hs
  · exact .write0 hs
  · exact .write0 hs
  · exact hs

theorem State.Canon.busReads {port off width} (hs : s.Canon) : (s.busReads port off width).2.Canon :=
  List.foldlRecOn (motive := fun p : List Byte × State => p.2.Canon) _ _ hs fun _ h _ _ => .busRead h

theorem NextCanon.execRtcSecRead {port} (hs : s.Canon) : NextCanon (Machine.execRtcSecRead port s) := by
  refine .next (.ite hs ?_)
  have hreads := hs.busReads (port := port.val) (off := 0x0B0010) (width := 4)
  generalize s.busReads port.val 0x0B0010 4 = q at hreads ⊢
  exact .same hreads

/-! ### The serial monitor -/

/-- The state that a reply leaves holds canonical byte lists. -/
def Reply.Canon (r : Reply) : Prop := r.2.2.2.Canon

theorem Reply.Canon.okReply {lines} (hs : s.Canon) : Reply.Canon (Machine.okReply lines s) := hs

theorem Reply.Canon.errReply {st word} (hs : s.Canon) : Reply.Canon (Machine.errReply st word s) := hs

theorem Reply.Canon.ite {c : Prop} {_ : Decidable c} {q r : Reply} (hq : Reply.Canon q) (hr : Reply.Canon r) :
    Reply.Canon (if c then q else r) := by
  split
  · exact hq
  · exact hr

theorem State.Canon.say {lines} (hs : s.Canon) : (s.say lines).Canon := .foldl hs fun _ _ => .same
theorem State.Canon.answerLine {r} (hr : Reply.Canon r) : (State.answerLine r).Canon := .same (.say hr)

theorem State.Canon.monRun {always} {body : State → Reply} (hs : s.Canon) (hb : Reply.Canon (body s)) : (s.monRun always body).Canon :=
  .ite hs (.ite (.answerLine (.errReply hs)) (.answerLine hb))

theorem Reply.Canon.helpReply {topic} (hs : s.Canon) : Reply.Canon (Machine.helpReply topic s) := by
  unfold Machine.helpReply
  refine .ite (.okReply hs) ?_
  split
  · exact .okReply hs
  · exact .errReply hs

theorem Reply.Canon.rdReply {off count} (hs : s.Canon) : Reply.Canon (Machine.rdReply off count s) := by
  refine .ite (.errReply hs) ?_
  exact List.foldlRecOn (motive := fun p : List String × State => p.2.Canon) _ _ hs fun _ h _ _ => .busRead h

theorem Reply.Canon.chanReply {hd} (hs : s.Canon) : Reply.Canon (Machine.chanReply hd s) := by
  unfold Machine.chanReply
  split
  · exact .ite (.okReply hs) (.errReply hs)
  · exact .okReply hs

theorem Reply.Canon.lanesReply {lane} (hs : s.Canon) : Reply.Canon (Machine.lanesReply lane s) := by
  unfold Machine.lanesReply
  split
  · exact .okReply hs
  · exact .ite (.errReply hs) (.okReply hs)

theorem Reply.Canon.sleepReply {target mask second} (hs : s.Canon) : Reply.Canon (Machine.sleepReply target mask second s) :=
  .ite (.errReply hs) (.ite (.errReply hs) (.ite (.errReply hs) (.ite (.errReply hs) (.okReply (.same (.journal hs))))))

theorem Reply.Canon.selftestReply {which failures} (hs : s.Canon) : Reply.Canon (Machine.selftestReply which failures s) :=
  .ite (.errReply hs) (.okReply (.journal (.ite (.same hs) hs)))

theorem Reply.Canon.authChallengeReply (hs : s.Canon) : Reply.Canon (Machine.authChallengeReply s) :=
  .ite (.errReply hs) (.okReply hs.issueChallenge)

theorem Reply.Canon.authTokenReply {tok} (hs : s.Canon) : Reply.Canon (Machine.authTokenReply tok s) :=
  .ite (.okReply (.unlock (.same hs))) (.errReply (.same hs))

theorem Reply.Canon.freeSelftest {which} (hs : s.Canon) : Reply.Canon (Machine.freeSelftest which s) := by
  refine .selftestReply ?_
  exact List.foldlRecOn (motive := fun p : List (SelfTest × String) × State => p.2.Canon) _ _ hs fun _ h _ _ => .same h

theorem State.Canon.badLine (hs : s.Canon) : (Machine.badLine s).Canon := .monRun hs (.errReply hs)

theorem State.Canon.authLine {args} (hs : s.Canon) : (Machine.authLine args s).Canon := by
  unfold Machine.authLine
  split
  · exact .ite (.monRun hs (.authChallengeReply hs)) (.ite (.same hs) (.ite (.monRun hs (.okReply (.relock hs))) (.badLine hs)))
  · exact .badLine hs

theorem State.Canon.ringLine {args} (hs : s.Canon) : (Machine.ringLine args s).Canon := by
  have hring : ∀ {sel}, (s.monRun false (ringReply sel)).Canon := .monRun hs (.okReply hs)
  unfold Machine.ringLine
  split
  · exact hring
  · split
    · exact .ite hring (.ite hring (.ite hring (.badLine hs)))
    · exact .badLine hs
  · exact .badLine hs

theorem State.Canon.accessLine {write args} (hs : s.Canon) : (Machine.accessLine write args s).Canon := by
  unfold Machine.accessLine
  split
  · split
    · exact .monRun hs (.rdReply hs)
    · exact .badLine hs
  · split
    · exact .monRun hs (.rdReply hs)
    · exact .badLine hs
  · split
    · exact .ite (.monRun hs (.okReply (.busWrite hs))) (.badLine hs)
    · exact .badLine hs
  · exact .badLine hs

theorem State.Canon.runWords {cmd args} (hs : s.Canon) : (s.runWords cmd args).Canon := by
  have hbad := hs.badLine
  have hsmall : ∀ {limit : Nat} {f : Nat → State → Reply}, (∀ n, Reply.Canon (f n s)) →
      State.Canon (match oneNumber args limit with | some n => s.monRun false (f n) | none => Machine.badLine s) := by
    intro limit f hf
    split
    · exact .monRun hs (hf _)
    · exact hbad
  have hplain : ∀ {f : State → Reply}, Reply.Canon (f s) → (if args.isEmpty then s.monRun false f else Machine.badLine s).Canon :=
    fun hf => .ite (.monRun hs hf) hbad
  unfold State.runWords
  extract_lets +onlyGivenNames none' small plain
  refine .ite ?help (.ite (.ite (.monRun hs (.okReply hs)) hbad) (.ite (.authLine hs) (.ite (.monRun hs (.errReply hs))
    (.ite (.monRun hs (.errReply hs)) (.ite (.accessLine hs) (.ite (.accessLine hs) (.ite (.ringLine hs) (.ite ?chan (.ite ?ev
    (.ite ?log (.ite ?lanes (.ite ?clk (.ite ?pau (.ite ?thim (.ite ?sealed (.ite ?sleep (.ite ?wake ?selftest)))))))))))))))))
  case help =>
    split
    · exact .monRun hs (.helpReply hs)
    · exact .monRun hs (.helpReply hs)
    · exact hbad
  case chan => exact .ite (.monRun hs (.chanReply hs)) (hsmall fun _ => .chanReply hs)
  case ev => exact hsmall fun _ => .okReply hs
  case log => exact .ite (.monRun hs (.ite (.okReply hs) (.okReply hs))) hbad
  case lanes => exact .ite (.monRun hs (.lanesReply hs)) (hsmall fun _ => .lanesReply hs)
  case clk => exact hplain (.okReply hs)
  case pau => exact hplain (.okReply hs)
  case thim => exact .ite (.monRun hs (.okReply hs)) (hsmall fun _ => .okReply hs)
  case sealed => exact hplain (.okReply hs)
  case sleep =>
    split
    · exact .monRun hs (.sleepReply hs)
    · split
      · exact .monRun hs (.sleepReply hs)
      · exact hbad
    · split
      · exact .monRun hs (.sleepReply hs)
      · exact hbad
    · exact hbad
  case wake => exact hplain (.okReply hs)
  case selftest =>
    split
    · split
      · exact .monRun hs (.freeSelftest hs)
      · exact hbad
    · exact hbad

theorem State.Canon.tokenEnd {text} (hs : s.Canon) : (s.tokenEnd text).Canon := .monRun (.same hs) (.authTokenReply (.same hs))

theorem State.Canon.lineEnd (hs : s.Canon) : s.lineEnd.Canon := by
  unfold State.lineEnd
  extract_lets +onlyGivenNames l long mon s₁ s₂
  have h₁ : s₁.Canon := .same hs
  have h₂ : s₂.Canon := by
    unfold s₂
    split
    · exact .same h₁
    · exact h₁
  refine .ite (.answerLine (.errReply (.same h₁))) (.ite (.answerLine (.errReply h₂)) ?_)
  split
  · exact .ite (.tokenEnd h₂) (.same h₂)
  · split
    · exact .same h₂
    · exact .runWords h₂

theorem State.Canon.monChar {c} (hs : s.Canon) : (s.monChar c).Canon :=
  .ite (.lineEnd (.ite (.same hs) hs)) (.whenNot (.same (.ite (.same hs) hs)) fun h => .ite h h)

theorem State.Canon.monDrain {n} (hs : s.Canon) : (s.monDrain n).Canon := by
  induction n generalizing s with
  | zero => exact hs
  | succ n ih =>
    rw [State.monDrain]
    split
    · exact hs
    · exact .ite (ih (.monChar (.same hs))) hs

theorem State.Canon.receive {c} (hs : s.Canon) : (s.receive c).Canon := .when (.same (.wakeSleep hs)) .same

/-! ### Takeover and the seam -/

theorem State.Canon.pairLost {cause} (hs : s.Canon) : (s.pairLost cause).Canon := .note hs

theorem State.Canon.startWarm {op d hd cls cost} (hs : s.Canon) : (s.startWarm op d hd cls cost).Canon := by
  fun_cases State.startWarm s op d hd cls cost
  · exact .shadowGrant (.same (.charge (.toActive hs)))
  · exact .same (.same (.charge (.toActive hs)))
  · exact .same (.same (.toActive hs))

theorem State.Canon.warmStart (hs : s.Canon) : s.warmStart.Canon := .same (.foldl (.foldl hs fun _ _ => .startWarm) fun _ _ => .startWarm)

theorem State.Canon.takeover (hs : s.Canon) : s.takeover.Canon := by
  unfold State.takeover
  extract_lets +onlyGivenNames since warm dups s₁ s₂ s₃ s₄
  have h₃ : s₃.Canon := .takeRings (.takeSinks (.releaseCal (.setRole (.seamOff hs))))
  have h₄ : s₄.Canon := .foldl h₃ fun _ _ h => .ite (.fillers h) h
  exact .when (.journal (.same (.same (.resendDone (.note (.same h₄)))))) .warmStart

theorem State.Canon.alone {cause} (hs : s.Canon) : (s.alone cause).Canon := by
  fun_cases State.alone s cause
  · exact .commitAll (.pairLost (.setRole (.seamOff hs)))
  · exact .takeover hs
  · exact hs

theorem State.Canon.losePeer {cause} (hs : s.Canon) : (s.losePeer cause).Canon := .ite (.alone (.same hs)) (.same (.same hs))
theorem State.Canon.heartbeat {wake} (hs : s.Canon) : (s.heartbeat wake).Canon := .ite hs (.when (.same hs) .wakeIdle)

theorem NextCanon.execArbWaitExpiry (hs : s.Canon) : NextCanon (Machine.execArbWaitExpiry s) := by
  unfold Machine.execArbWaitExpiry
  refine .next ?_
  split
  · exact hs
  · exact .pairLost (.seamOff (.setRole (.same hs)))

theorem NextCanon.execSeamTrainingDone {ok} (hs : s.Canon) : NextCanon (Machine.execSeamTrainingDone ok s) := by
  unfold Machine.execSeamTrainingDone
  dsimp only
  refine .next ?_
  split
  · exact .ite (.joinFails hs) (.ite (.joined (.same (.same hs))) (.same (.same hs)))
  · exact .ite hs (.ite (.losePeer (.same hs)) (.same hs))

theorem NextCanon.execSeamRetransmit (hs : s.Canon) : NextCanon (Machine.execSeamRetransmit s) := by
  unfold Machine.execSeamRetransmit
  refine .next ?_
  split
  · exact hs
  · dsimp only
    split
    · exact .same (.same hs)
    · exact .same hs

theorem State.Canon.takeMirrored {op d data hd} (hs : s.Canon) : (s.takeMirrored op d data hd).Canon := .ite hs (.shadowTurn (.same hs))

theorem State.Canon.takeStatus {r code} (hs : s.Canon) : (s.takeStatus r code).Canon := by
  unfold State.takeStatus
  split
  · exact .ite (.commit hs) (.complete (.unclaim (.same hs)))
  · exact hs

theorem State.Canon.switchedIn (hs : s.Canon) : s.switchedIn.Canon :=
  .same (.when (.releaseCal (.takeRings (.setRole (.takeSinks hs)))) .warmStart)

theorem NextCanon.execSeamFrameReceived {authentic f} (hs : s.Canon) : NextCanon (Machine.execSeamFrameReceived authentic f s) := by
  unfold Machine.execSeamFrameReceived
  refine .next ?_
  split
  · exact .same hs
  · split
    · exact .joinOffer hs
    · exact .heartbeat hs
    · exact .takeMirrored hs
    · exact .takeStatus hs
    · exact .ite (.dissolved hs) hs
    · exact .ite (.switchedIn hs) hs
    · exact .ite (.same hs) hs
    · exact hs
    · exact .ite (.mirrored hs) hs

/-! ### Steps -/

theorem State.Canon.idle (hs : s.Canon) : (Machine.idle s).Canon := .monDrain (.turnAll (.journalRegs (.same hs)))

/-- Every command keeps the byte lists canonical: the cases of `exec`. -/
theorem NextCanon.exec {i : Instr} (hs : s.Canon) : NextCanon (Machine.exec i s) := by
  cases i with
  | commandDoorbell => exact .execCommandDoorbell hs
  | eventDoorbell => exact .execEventDoorbell hs
  | dataDoorbell => exact .execDataDoorbell hs
  | badOpcode => exact .ite (.next (.runCommand hs)) .fault
  | nop | devInfo | powerBudget | powerQuery | syncSchedule | timeSet | streamOpen | streamClose | streamStatus | regionAlloc | regionFree
    | memRetire | chanCreate | chanDestroy | chanTune | chanFilter | chanSpectral | chanProducts | chanStart | chanStop | chanResume
    | trigSet | trigCombine | trigMaskLoad | acqSet | acqArm | acqDisarm | acqForce | sweepSet | sweepRun | densSet | densSnapshot
    | calSet | calTableLoad | calFreeze | sinkBind | sinkUnbind | storeQueueAttach | dmaRestart | mpLoad | mpStart | mpStop | logRead
    | logClear | sealOpen | sealCheckpoint | sealClose | pairJoin | pairRole | pairStatus | aonRules | sleep => exact .next (.runCommand hs)
  | powerGrant => exact .next (.examineAll hs)
  | powerQueueTimeout => exact .execPowerQueueTimeout hs
  | grantSpacingExpiry => exact .execGrantSpacingExpiry hs
  | cmdRingEnable | cmdRingDisable => exact .next (.ite (.cmdRingCfg hs) hs)
  | evtRingEnable | evtRingDisable => exact .next (.ite (.evtRingCfg hs) hs)
  | dataRingEnable | dataRingDisable => exact .next (.ite (.dataRingCfg hs) hs)
  | pllSEnable | pllSDisable | clkoutEnable | clkoutDisable | pinFuncWrite | tapDiscard | eyeScanStart => exact .next (.write0 hs)
  | eyeScanDone => exact .ite .fault (.next (.ite (.same hs) hs))
  | sysResetDie => exact .next (.ite (.restartDie hs) hs)
  | flashRead | flashProgram | flashErase | flashSelect => exact .next (.ite (.flashCtl hs) hs)
  | flashOperationDone => exact .execFlashOperationDone hs
  | avsFaultClear => exact .next (.ite (.avsStat hs) hs)
  | rtcSecRead => exact .execRtcSecRead hs
  | rcFieldRead => exact .next (.ite hs (.when (.same (.busReads hs)) .same))
  | monConfigWrite => exact .execMonConfigWrite hs
  | registerWrite => exact .next (.busWrite hs)
  | refinAbsent => exact .next (.whenNot (.same hs) fun h => .ite (.loseLockFree h) (.note (.same (.abortSlew h))))
  | refinPresent | swapBoundary | pairPartnerTimeout | monComparatorRearm | lifetimeCounterUpdate => exact .next (.same hs)
  | phaseOffsetMeasured => exact .execPhaseOffsetMeasured hs
  | slewEnd => exact .next (.ite (.restored (.same hs)) hs)
  | coastWindowExpiry => exact .execCoastWindowExpiry hs
  | coastDriftExceeded => exact .next (.ite hs (.ite (.loseLock hs) (.same hs)))
  | pllSPhaseError => exact .next (.ite (.loseLockFree hs) hs)
  | crystalStopped => exact .next (.when (.same hs) .loseLockFree)
  | pllSLock => exact .next (.ite (.refreshOuts (.same hs)) hs)
  | ppsEdge => exact .next (.ite (.same (.goodEdge (.same hs))) (.badEdge (.same hs)))
  | ppsEdgeMissing => exact .next (.badEdge hs)
  | syncEpoch => exact .execSyncEpoch hs
  | timeSetLoad => exact .execTimeSetLoad hs
  | timeSetTimeout => exact .execTimeSetTimeout hs
  | fabricPllSwitch => exact .next (.ite hs (.ite (.note (.same (.same hs))) (.enterSafe hs)))
  | fabricPllRelock => exact .next (.when (.same hs) .same)
  | safeStateExit => exact .next (.ite (.leaveSafe hs) hs)
  | laneStageComplete => exact .execLaneStageComplete hs
  | laneStageTimeout => exact .execLaneStageTimeout hs
  | releasePoint => exact .next (.ite hs (.ite (.release (.same hs)) (.whenNot (.same hs) fun h => .same (.laneFault h))))
  | laneLockLoss => exact .execLaneLockLoss hs
  | multiblockReceived =>
    exact .next (.ite hs (.whenNot (.adaptAll (.countMultiblock hs)) fun h => .foldl (.same (.when h .sramFault)) fun _ _ => .streamSample))
  | channelOutput => exact .next (.ite (.ite (.enterHalted (.sramFault hs)) (.enterStopped (.sramFault hs))) (.channelOutput hs))
  | retuneApply => exact .execRetuneApply hs
  | detectorWindowEnd => exact .next (.windowEnd hs)
  | channelDrainDone => exact .next (.ite (.enterStopped hs) hs)
  | spectrumComplete =>
    exact .next (.ite hs (.ite (.when (.same (.densTurn (.sramFault (.serveAhead hs)))) .enterHalted) (.frameDone (.serveAhead hs))))
  | largeTransformComplete => exact .next (.ite hs (.frameDone (.sameHbm (.storeFaults hs))))
  | intervalBoundary => exact .next (.closeDue (.same hs))
  | skBlockEnd => exact .next (.ite (.closeSk (.same hs)) hs)
  | densityFrameBoundary => exact .next (.ite (.frameBoundary (.sramFaults hs)) hs)
  | calOnStart => exact .next (.ite hs (.when (.driveSource (.same (.same hs))) .periodStart))
  | calOnEnd => exact .next (.ite hs (.driveSource (.same hs)))
  | calPeriodEnd => exact .execCalPeriodEnd hs
  | calDerivationDone => exact .execCalDerivationDone hs
  | calSwap => exact .next (.groupSwapped hs)
  | trigIoEdge => exact .next (.whenNot (.same hs) fun h => .whenNot (.same h) fun h => .foldl h fun _ _ h => .ite (.same h) h)
  | triggerDecision => exact .next (.decideGroup hs)
  | trigIoTimedDrive => exact .execTrigIoTimedDrive hs
  | trigIoPulseEnd => exact .execTrigIoPulseEnd hs
  | sweepBlockDecided => exact .execSweepBlockDecided hs
  | sweepFlushPeriod => exact .execSweepFlushPeriod hs
  | holdoffEnd | l1EntryRequest | pwrEnFall => exact .next (.ite (.same (.same hs)) hs)
  | captureComplete => exact .execCaptureComplete hs
  | chunkClose => exact .execChunkClose hs
  | arrStepUp | arrStepDown => exact .next (.ite (.arrStep hs) hs)
  | mpInstruction | mpMailboxWake => exact .next (.ite (.mpRun hs) hs)
  | mpInputDelivery => exact .execMpInputDelivery hs
  | mpOutputRecordWrite => exact .next (.mpWrite hs)
  | mpWatchdogExpiry => exact .next (.ite (.mpTrap hs) hs)
  | bar4Read => exact .execBar4Read hs
  | bar4Write => exact .execBar4Write hs
  | regionZeroingDone => exact .execRegionZeroingDone hs
  | stackWakeDone | qosPanicEntry | hbmStackTemperature => exact .next (.ite (.sameHbm hs) hs)
  | refreshDue => exact .execRefreshDue hs
  | qosPanicExit => exact .execQosPanicExit hs
  | retrainDue => exact .execRetrainDue hs
  | partialWrite => exact .execPartialWrite hs
  | darnerScrub => exact .execDarnerScrub hs
  | darnerPatrolBurst => exact .execDarnerPatrolBurst hs
  | sramPatrol => exact .next (.foldl hs fun _ _ h => .ite (.readErr h) h)
  | persistentStoreSave => exact .next (.ite hs (.ite (.retireDone hs) (.retireDone (.same hs))))
  | mgmtCoreReload => exact .next (.ite (.reload (.sramFault hs)) hs)
  | sinkPacingStart => exact .execSinkPacingStart hs
  | bufferCloseTime => exact .execBufferCloseTime hs
  | confirmReadDone => exact .execConfirmReadDone hs
  | nvmeCompletion => exact .next (.ite (.nvmeEnd (.same (.same hs))) hs)
  | nvmeCommandTimeout => exact .next (.ite (.nvmeEnd (.same hs)) hs)
  | cornerTurnBlockEmit => exact .execCornerTurnBlockEmit hs
  | cornerTurnWaitExpiry => exact .execCornerTurnWaitExpiry hs
  | pcieLinkDown => exact .next (.ite hs (.haltPort (.same hs)))
  | pcieLinkUp => exact .next (.ite hs (.when (.when (.same hs) fun h => .same (.same h)) .resumePort))
  | portReset => exact .next (.ite hs (.same (.same (.foldl (.haltPort (.same hs)) fun _ _ h => .ite (.same (.same h)) h))))
  | interruptTimerExpiry | pcieL2Entry | monComparatorTrip | laneColdRestart | standbyPllLockLoss => exact .next (.ite (.same hs) hs)
  | thermalSensorRead =>
    exact .next (.whenNot (.same (.same hs)) fun h => .ite (.enterSafe h) (.whenNot h fun h => .denyUnfit (.same (.thermalStates h))))
  | criticalArrStep => exact .next (.ite hs (.criticalStep hs))
  | shedTimer => exact .execShedTimer hs
  | avsStep => exact .next (.ite (.same hs) (.ite (.same (.same hs)) (.ite (.same hs) (.thermal (.same hs)))))
  | l2Timeout => exact .next (.ite (.same (.when (.same hs) .toIdle)) hs)
  | wakeIn => exact .next (.wakeSleep hs)
  | scheduledWake => exact .next (.ite (.wakeSleep (.same hs)) hs)
  | perstNDeassert => exact .next (.ite hs (.when (.same hs) fun h => .same (.same (.same h))))
  | monConversionDone => exact .execMonConversionDone hs
  | thimbleLogFlush => exact .execThimbleLogFlush hs
  | rcOscillatorCalibration => exact .next hs
  | watchdogStage1 => exact .next (.ite hs (.reload (.pairPin (.same (.same hs)))))
  | watchdogStage2 => exact .next (.ite hs (.restartDie (.same (.same hs))))
  | vddAonLow => exact .next (.same (.resetDie (.same (.same hs))))
  | monRxCharacter => exact .next (.monDrain (.receive hs))
  | monHelp => exact .next (.monRun hs (.helpReply hs))
  | monId | monRing | monEv | monClk | monPau | monThim | monSeal | monWake => exact .next (.monRun hs (.okReply hs))
  | monRd => exact .next (.monRun hs (.rdReply hs))
  | monWr => exact .next (.monRun hs (.okReply (.busWrite hs)))
  | monChan => exact .next (.monRun hs (.chanReply hs))
  | monLog => exact .next (.monRun hs (.ite (.okReply hs) (.okReply hs)))
  | monLanes => exact .next (.monRun hs (.lanesReply hs))
  | monSleep => exact .next (.monRun hs (.sleepReply hs))
  | monSelftest => exact .next (.monRun hs (.selftestReply hs))
  | monAuthChallenge => exact .next (.monRun hs (.authChallengeReply hs))
  | monAuthToken => exact .next (.monRun hs (.authTokenReply hs))
  | monAuthLock => exact .next (.monRun hs (.okReply (.relock hs)))
  | debugGrantExpiry => exact .execDebugGrantExpiry hs
  | heartbeatReceived => exact .next (.heartbeat hs)
  | heartbeatMissed => exact .next (.ite hs (.when (.same (.same hs)) .losePeer))
  | arbWaitExpiry => exact .execArbWaitExpiry hs
  | pairArbAssert => exact .next (.when (.same hs) fun h => .alone (.same h))
  | seamFrameReceived => exact .execSeamFrameReceived hs
  | seamRetransmit => exact .execSeamRetransmit hs
  | mirroredCommand => exact .next (.takeMirrored hs)
  | mirrorStatusReceived => exact .next (.takeStatus hs)
  | sealCheckpointTimer => exact .next (.ite (.cutSoon (.same hs)) hs)
  | checkpointWrite => exact .next (.writeCut hs)
  | getVersion | getCapabilities | negotiateAlgorithms | getDigests | getCertificate => exact .next (.reply hs)
  | challenge => exact .next (.ite (.reply (.issueChallenge hs)) hs)
  | getMeasurements => exact .next (.ite (.reply hs) (.reply hs))
  | claim | enrolPair => exact .next (.lifeStep hs .same)
  | release | decommission => exact .next (.lifeStep hs fun h => .same (.closeAll h))
  | debugToken => exact .next (.ite hs (.ite (.reply (.unlock (.same hs))) (.reply hs)))
  | porNAssert => exact .next (.whenNot (.same hs) .resetDie)
  | porNRelease => exact .next (.ite hs (.ite (.releaseDie (.same (.resetDie (.same hs)))) (.releaseDie (.same hs))))
  | xt32CrystalStart => exact .next (.ite hs (.whenNot (.same hs) .releaseDie))
  | bootReady =>
    exact .next (.ite hs (.same (.same (.journal (.same (.foldl (.same (.sameHbm hs)) fun _ _ h => .ite (.same (.same h)) h))))))
  | bootStartTimeout => exact .next (.ite hs (.when (.restartDie (.same hs)) .same))
  | dmaBeat => exact .next (.ite (.sinkBeat hs) hs)
  | hostReadCompletion => exact .execHostReadCompletion hs
  | mpStopDrainTimeout => exact .execMpStopDrainTimeout hs
  | sinkUnbindDrainTimeout => exact .execSinkUnbindDrainTimeout hs
  | pairJoinTimeout => exact .execPairJoinTimeout hs
  | seamTrainingDone => exact .execSeamTrainingDone hs
  | switchoverTimeout => exact .execSwitchoverTimeout hs
  | heartbeatSend => exact .next (.ite hs (.same (.ite (.same (.same (.same hs))) hs)))
  | powerStateEntryDone => exact .execPowerStateEntryDone hs

theorem NextCanon.step (hs : s.Canon) : NextCanon (Machine.step s) := by
  unfold Machine.step
  split
  · exact .next (.idle hs)
  · exact .exec (.same hs)

/-- Settles O5: the command at the front of the queue, or the idle step, keeps both byte lists canonical. -/
theorem memoryStaysCanonical : Obligations.MemoryStaysCanonical := by
  unfold Obligations.MemoryStaysCanonical
  intro s t hhbm hflash ht
  have hnext := NextCanon.step (s := s) ⟨hhbm, hflash⟩
  rw [ht] at hnext
  cases hnext with
  | next hs => exact hs

end Sys2Proof.Machine
end


section
/-! SUPPORT. Commands that wait, updates of a session, and what the journal changes of the security state. -/

namespace Sys2Proof.Machine

variable {d : Desc} {s : State} {op : Op} {stage : Stage} {h h' : Handle} {t u : State}

/-! ### Commands that wait -/

/-- A ready command whose body waits for a later event. -/
theorem exec_wait (hop : Op.ofCode op.code = op) (hr : Ready op d s) (hb : bodyOf op d (accepted op d s) = .wait stage h u) :
    exec (ringInstr op d) s = .next (u.setInflight d.ring.val (Option.map fun f => { f with stage := stage, handle := h })) := by
  rw [exec_ready hop hr, hb, settle]

/-- A ready command whose request for power is granted at once and that then waits for a later event. -/
theorem exec_granted_wait {n : Need} {cls cost : Nat} {k : State → Verdict} (hop : Op.ofCode op.code = op) (hr : Ready op d s)
    (hb : bodyOf op d (accepted op d s) = .need n cls cost h' t k) (hio : t.io = (accepted op d s).io)
    (hg : GrantedNow t cls cost d.waitForPower) (hk : k (withGrant t n cost) = .wait stage h u) :
    exec (ringInstr op d) s = .next (u.setInflight d.ring.val (Option.map fun f => { f with stage := stage, handle := h })) := by
  obtain ⟨f, hf, -, hd, -⟩ := accepted_inflight op d s
  have hwait : ((t.toActive.cmdRing d.ring.val).inflight.any fun f => f.d.waitForPower) = d.waitForPower := by
    rw [State.cmdRing, toActive_io, hio, ← State.cmdRing, hf]
    simp [hd]
  rw [exec_ready hop hr, hb, settle_granted (by rw [hwait]; exact hg)]
  exact congrArg Host.Outcome.next (congrArg (settle _ _) hk)

/-! ### Parts of the security state -/

/-- A change of the security state alone. -/
theorem kept_sec (x : Sec) : Kept [.sec] s { s with sec := x } := by
  refine ⟨rfl, fun p hp => ?_⟩
  cases p with
  | sec => simp at hp
  | _ => rfl

/-- A session of the device after its own update. -/
theorem session_setSession_same {k : Nat} (hk : k < 16) {f : Session → Session} : (s.setSession k f).session k = f (s.session k) :=
  nth_upd_same hk

/-- Two updates of a session are one. -/
theorem setSession_setSession {k : Nat} {f g : Session → Session} :
    (s.setSession k f).setSession k g = s.setSession k fun x => g (f x) := by
  simp only [State.setSession, upd_upd]

/-- A journal entry changes the journal, its head, its next number and the register writes that wait for theirs. -/
theorem journal_sec_shape (src : Nat) (opc : Byte) (tag : BitVec 16) (h : Handle) (digest : BitVec 384) : ∃ js head n regs,
    (s.journal src opc tag h digest).sec = { s.sec with journal := js, head := head, jNext := n, jRegs := regs } := by
  have add (t : State) (src : Nat) (opc : Byte) (tag : BitVec 16) (h : Handle) (digest : BitVec 384) : ∃ js head n,
      (t.journalAdd src opc tag h digest).sec = { t.sec with journal := js, head := head, jNext := n } := ⟨_, _, _, rfl⟩
  have regs : ∃ js head n regs, s.journalRegs.sec = { s.sec with journal := js, head := head, jNext := n, jRegs := regs } := by
    unfold State.journalRegs
    split
    · exact ⟨s.sec.journal, s.sec.head, s.sec.jNext, s.sec.jRegs, rfl⟩
    · obtain ⟨js, head, n, hadd⟩ := add s 1 0xFF 0 0 (Config.sha384 (s.sec.jRegs.flatMap fun w => le 4 w.2.toNat))
      exact ⟨js, head, n, [], congrArg (fun x : Sec => { x with jRegs := [] }) hadd⟩
  obtain ⟨js, head, n, hadd⟩ := add s.journalRegs src opc tag h digest
  obtain ⟨js', head', n', regs, hregs⟩ := regs
  exact ⟨js, head, n, regs, by rw [State.journal, hadd, hregs]⟩

end Sys2Proof.Machine
end

section
/-! The events of the DMA engine, the storage queues and the corner turns (R575–R599), and the statement they settle. -/

namespace Sys2Proof.Machine

variable {s : State}

/-- Settles O52: each event by whether its cause is there. -/
theorem sinkRows : Obligations.SinkRows := by
  unfold Obligations.SinkRows
  refine ⟨?beat, ?starts, ?idle, ?noBuffer, ?noConfirm, ?closes, ?confirms, ?completes, ?fails, ?notBusy, ?emits, ?expires, ?noBlock, ?noUnbind, ?unbind⟩
  case beat =>
    intro k c err s
    refine ⟨fun hserved => ?_, fun hother => ?_⟩
    · exact congrArg Host.Outcome.next (if_pos (by simp [hserved]))
    · refine congrArg Host.Outcome.next (if_neg ?_)
      cases hserved : s.servedChan with
      | none => simp
      | some x => simpa using hother x hserved
  case starts =>
    intro k s x r hbound hmoving hhalted
    have hmay : ¬(!x.bound || x.moving || x.halted) = true := by simp [hbound, hmoving, hhalted]
    refine ⟨fun hfill => ?_, fun y hfill hy hage => ?_⟩
    · exact congrArg Host.Outcome.next ((if_neg hmay).trans (if_pos hfill))
    · refine congrArg Host.Outcome.next ((if_neg hmay).trans ((if_neg (by rw [hfill]; decide)).trans ?_))
      rw [hy]
      exact if_pos hage
  case idle =>
    intro k s hnot
    exact congrArg Host.Outcome.next (if_pos (by simpa [or_assoc] using hnot))
  case noBuffer =>
    intro k s hbuf
    simp only [exec, execBufferCloseTime, hbuf]
  case noConfirm =>
    intro k r s hconfirm
    simp only [exec, execConfirmReadDone, hconfirm]
  case closes =>
    intro k b s hbuf hclose hcur hused
    simp only [exec, execBufferCloseTime, hbuf]
    exact congrArg Host.Outcome.next (if_pos (by simp [hclose, hcur, hused]))
  case confirms =>
    intro k b bytes s hconfirm
    refine ⟨?_, fun r hr => ?_⟩
    · simp only [exec, execConfirmReadDone, hconfirm]
    · cases r with
      | ok l => exact absurd rfl (hr l)
      | ur | ca | poisoned | timeout => simp only [exec, execConfirmReadDone, hconfirm]
  case completes =>
    intro q r ok s hbusy x head t
    exact congrArg Host.Outcome.next (if_pos hbusy)
  case fails =>
    intro q r y s hbusy hy
    refine congrArg Host.Outcome.next ((if_pos hbusy).trans ?_)
    rw [hy]
    rfl
  case notBusy =>
    intro q r ok s hbusy
    have hidle : ¬(s.queue q.val).busy r = true := by simp [hbusy]
    exact ⟨congrArg Host.Outcome.next (if_neg hidle), congrArg Host.Outcome.next (if_neg hidle)⟩
  case emits =>
    intro k b t s hopen hbound hcorner hfull hemit
    simp only [exec, execCornerTurnBlockEmit, hopen, hbound, hcorner, hfull, hemit, Bool.and_self, if_true, Option.getD_some]
  case expires =>
    intro k b s hopen hbound hcorner tms u
    simp only [exec, execCornerTurnWaitExpiry, hopen, hbound, hcorner, Bool.and_self, if_true]
    rfl
  case noBlock =>
    intro k s hopen
    simp only [exec, execCornerTurnBlockEmit, execCornerTurnWaitExpiry, hopen, and_self]
  case noUnbind =>
    intro ring s hwait
    simp only [exec, execSinkUnbindDrainTimeout, hwait]
  case unbind =>
    intro ring f s hwait hop hdrain
    simp only [exec, execSinkUnbindDrainTimeout, hwait, hop, hdrain, decide_true, Bool.and_self, if_true]

end Sys2Proof.Machine
end

section
/-! POWER_BUDGET, POWER_QUERY, SLEEP and the queues, heat and voltage, sleep and waking (R605–R633, R733, R799), and the statements they
settle. -/

namespace Sys2Proof.Machine

variable {d : Desc} {s : State}

/-! ### Commands and queues -/

theorem powerBudgetBody_ok (hclean : d.clean [(0x08, 8)] = true) (hbudget : inR (d.u 0x08 4) 30000 285000 = true)
    (hqueue : inR (d.u 0x0C 4) 1 600000 = true) :
    powerBudgetBody d s =
      let b : State := { s with pau := { s.pau with budget := d.u 0x08 4, budgetSet := true, queueMs := d.u 0x0C 4 } }
      .done .ok (if d.u 0x08 4 < b.static + b.granted then 1 else 0) 0 d.handle b.denyUnfit.examineAll := by
  simp only [powerBudgetBody, hclean, hbudget, hqueue, Bool.not_true, Bool.or_self, Bool.false_eq_true, if_false, b2n, decide_eq_true_eq]

theorem powerQueryBody_ok (hclean : d.clean [(0x08, 12)] = true) (hlen : 64 ≤ d.u 0x10 4) (haddr : addrOk (d.u 0x08 8) (d.u 0x10 4) 64 = true) :
    powerQueryBody d s = result d (d.u 0x08 8) s.powerBlock 0 s.available.toNat s := by
  simp [powerQueryBody, hclean, Nat.not_lt.2 hlen, haddr]

theorem sleepBody_ok (hclean : d.clean [(0x08, 2), (0x10, 8)] = true) (hok : s.sleepOk (d.u 0x08 1) (d.u 0x09 1) (d.u 0x10 8) = true)
    (hgoes : s.sleepGoes (d.u 0x08 1) = true) :
    sleepBody d s = .done .ok 0 0 d.handle (s.beginSleep (d.u 0x08 1) (d.u 0x09 1) (d.u 0x10 8)) := by
  simp only [sleepBody, hclean, hok, hgoes, Bool.not_true, Bool.or_self, Bool.false_eq_true, if_false]

/-- SLEEP notes the state to enter, unless IDLE is asked for in IDLE (R622, R623). -/
theorem beginSleep_eq (target mask second : Nat) : s.beginSleep target mask second = { s with pwr := { s.pwr with
    entering := if target = 1 ∧ s.pwr.st = .idle then none
      else some (if target = 1 then .idle else if target = 2 then .retain else .dormant)
    enteredAt := s.now, wakeMask := BitVec.ofNat 6 mask, wakeSec := BitVec.ofNat 40 second } } := by
  simp only [State.beginSleep, Bool.and_eq_true, decide_eq_true_eq]

/-- Settles O19: each command passes its checks, each event finds its request. -/
theorem powerCommandsAndQueues : Obligations.PowerCommandsAndQueues := by
  unfold Obligations.PowerCommandsAndQueues
  refine ⟨?budget, ?query, ?sleep, fun _ => rfl, ?timeout, ?spacing⟩
  case budget =>
    intro d s hr hclean hbudget hqueue a b
    exact exec_done rfl hr (powerBudgetBody_ok hclean hbudget hqueue)
  case query =>
    intro d s hr hclean hlen haddr a hlink
    exact exec_done rfl hr ((powerQueryBody_ok hclean hlen haddr).trans (result_linkUp hlink))
  case sleep =>
    intro d s hr hclean a hok hgoes
    rw [← beginSleep_eq]
    exact exec_done rfl hr (sleepBody_ok hclean hok hgoes)
  case timeout =>
    intro cls pos q s hq hring hrole
    have hlimit : (q.ring.isNone || decide (s.pair.role = .secondary)) = false := by simp [← Option.not_isSome, hring, hrole]
    simp only [exec, execPowerQueueTimeout, hq, hlimit, Bool.false_eq_true, if_false]
  case spacing =>
    intro c q s hq
    simp only [exec, execGrantSpacingExpiry, hq]

/-! ### Heat and voltage -/

/-- A device that serves its rings is not held in reset. -/
theorem die_of_serving (h : s.serving = true) : s.boot.die ≠ .held := by
  intro hheld
  simp [State.serving, hheld] at h

/-- A step of AVS that has succeeded, on a device that serves and whose setpoint moves (R615). -/
theorem exec_avsStep_ok (hserves : s.serving = true) (hmoves : s.avsMoves = true) : exec (.avsStep true) s = .next
    (let v := if s.pau.setpoint < s.avsGoal then min s.avsGoal (s.pau.setpoint + 5) else max s.avsGoal (s.pau.setpoint - 5)
     State.emit { s with pau := { s.pau with setpoint := v, avsFails := 0, avsMoving := v != s.avsGoal } } (.pmbus (s.pau.avsCfg.toNat % 128) v)) := by
  simp only [exec, execAvsStep, hserves, hmoves, Bool.not_true, Bool.or_self, Bool.false_eq_true, if_false, if_true]

/-- Settles O20: each reading, step and instant by the branch that its conditions take. -/
theorem heatAndVoltageRows : Obligations.HeatAndVoltageRows := by
  unfold Obligations.HeatAndVoltageRows
  refine ⟨?hot, ?warm, ?arr, ?noArr, ?shed, ?rises, ?falls, ?fails, ?clears⟩
  case hot =>
    intro temps s hdie p hhot
    exact congrArg Host.Outcome.next ((if_neg hdie).trans (if_pos hhot))
  case warm =>
    intro temps s hserves p hwarm
    have hserving : ¬(!s.serving) = true := by simp [hserves]
    exact congrArg Host.Outcome.next ((if_neg (die_of_serving hserves)).trans ((if_neg (Int.not_le.2 hwarm)).trans (if_neg hserving)))
  case arr =>
    intro s t hcrit
    exact congrArg Host.Outcome.next (if_neg (by simp [hcrit]))
  case noArr =>
    intro s hcrit
    exact congrArg Host.Outcome.next (if_pos (by simp [hcrit]))
  case shed =>
    intro s c t ch rest hcrit hshed u u' hfirst
    simp only [exec, execShedTimer, hcrit, hshed]
    rw [show State.granted_ _ = ch :: rest from hfirst]
  case rises =>
    intro s hserves hmoves hbelow
    rw [exec_avsStep_ok hserves hmoves, if_pos hbelow]
  case falls =>
    intro s hserves hmoves habove
    rw [exec_avsStep_ok hserves hmoves, if_neg (Nat.not_lt.2 habove)]
  case fails =>
    intro s hserves hmoves hthird
    have hlast : ¬s.pau.avsFails + 1 < 3 := by omega
    simp only [exec, execAvsStep, hserves, hmoves, hlast, Bool.not_true, Bool.or_self, Bool.false_eq_true, if_false]
  case clears =>
    intro v s hserves hone hfault
    refine ⟨_, congrArg Host.Outcome.next ((if_pos hserves).trans (if_pos (by simp [hone, hfault]))), rfl, rfl, rfl, rfl, fun p hp => ?_⟩
    cases p with
    | pau => simp at hp
    | _ => rfl

/-! ### Sleep and waking -/

/-- Settles O21: each event by the branch that its conditions take. -/
theorem sleepAndWakeRows : Obligations.SleepAndWakeRows := by
  unfold Obligations.SleepAndWakeRows
  refine ⟨?l2, ?timeout, ?idle, ?retain, ?dormant, fun _ => rfl, ?scheduled, ?linkUp, ?leaves, ?train, ?noPort⟩
  case l2 =>
    intro p s hentering hlink
    exact congrArg Host.Outcome.next (if_pos (by simp [hentering, hlink]))
  case timeout =>
    intro s hentering hmissing
    exact congrArg Host.Outcome.next (if_pos (by simp [hentering, hmissing]))
  case idle =>
    intro s hentering hmay
    simp only [exec, execPowerStateEntryDone, hentering, hmay, if_true]
  case retain =>
    intro s hentering hmay hl2
    simp only [exec, execPowerStateEntryDone, hentering, hmay, hl2, Bool.not_true, Bool.false_eq_true, if_false]
  case dormant =>
    intro s hentering hmay
    simp only [exec, execPowerStateEntryDone, hentering, hmay, if_true]
  case scheduled =>
    intro s hmask hasleep
    exact congrArg Host.Outcome.next (if_pos (by simpa [hmask, or_assoc] using hasleep))
  case linkUp =>
    intro p speed width s hport hdie hretain hdormant hperst
    exact congrArg Host.Outcome.next (if_neg (by simp [hport, hdie, hretain, hdormant, hperst]))
  case leaves =>
    intro p s hretain hport
    refine ⟨_, congrArg Host.Outcome.next ((if_neg (by simp [hport])).trans (if_pos hretain)), rfl, rfl, rfl, rfl, rfl, rfl, fun q hq => ?_⟩
    cases q with
    | io | time | pwr | pins => simp at hq
    | _ => rfl
  case train =>
    intro p s hretain hport
    exact congrArg Host.Outcome.next ((if_neg (by simp [hport])).trans (if_neg hretain))
  case noPort =>
    intro p s hport
    exact congrArg Host.Outcome.next (if_pos (by simp [hport]))

end Sys2Proof.Machine
end

section
/-! PAIR_JOIN, PAIR_ROLE and PAIR_STATUS, and the pair at work (R667–R686, R798), and the statements they settle. -/

namespace Sys2Proof.Machine

variable {d : Desc} {s : State}

/-! ### Roles -/

/-- The parts that a device's role reaches: the control path, the clock outputs and the pair. -/
theorem setRole_shape (role : Role) : ∃ (x : Io) (c : Clk), s.setRole role = { s with io := x, clk := c, pair := { s.pair with role := role } } ∧
    x.cmd = s.io.cmd ∧ x.evt = s.io.evt := by
  have refresh (t : State) : ∃ (x : Io) (c : Clk), t.refreshOuts = { t with io := x, clk := c } ∧ x.cmd = t.io.cmd ∧ x.evt = t.io.evt := by
    unfold State.refreshOuts
    refine List.foldlRecOn (motive := fun u : State => ∃ (x : Io) (c : Clk), u = { t with io := x, clk := c } ∧ x.cmd = t.io.cmd ∧ x.evt = t.io.evt)
      _ _ ⟨t.io, t.clk, rfl, rfl, rfl⟩ fun u hu n _ => ?_
    obtain ⟨x, c, rfl, hcmd, hevt⟩ := hu
    simp only [State.refreshOut, State.emit]
    split
    · exact ⟨_, _, rfl, hcmd, hevt⟩
    · exact ⟨_, _, rfl, hcmd, hevt⟩
  let t := s.setPair fun p => { p with role := role }
  obtain ⟨x, c, hrefresh, hcmd, hevt⟩ := refresh { t with io := { t.io with mirrors := role == Role.primary } }
  have hrole : s.setRole role = pairPin s { t with io := x, clk := c } := congrArg (pairPin s) hrefresh
  rw [hrole]
  unfold pairPin
  split
  · exact ⟨_, _, rfl, hcmd, hevt⟩
  · exact ⟨_, _, rfl, hcmd, hevt⟩

/-! ### Commands -/

theorem pairJoinBody_asks (hclean : d.clean [(0x08, 3), (0x0C, 2), (0x10, 8)] = true) (hrole : inR (d.u 0x08 1) 1 2 = true)
    (hmode : d.u 0x09 1 ≤ 1) (hrate : d.u 0x0A 1 ≤ 1) (hwait : inR (d.u 0x0C 2) 1 1000 = true)
    (hfree : s.pair.role = .solo ∨ (s.pair.role = .fenced ∧ d.u 0x08 1 = 2)) (hempty : d.u 0x08 1 = 2 → s.liveHandles = [])
    (harb : s.pair.arb = (d.u 0x08 1 == 1))
    (halone : (s.ringsWaiting fun f => f.op == .pairJoin && (f.stage == .join || f.stage == .power)) = []) :
    pairJoinBody d s = .need .seam 0 5400 d.handle s (pairJoinGrant d) := by
  have hparam : (!d.clean [(0x08, 3), (0x0C, 2), (0x10, 8)] || !inR (d.u 0x08 1) 1 2 || decide (1 < d.u 0x09 1) || decide (1 < d.u 0x0A 1) ||
      !inR (d.u 0x0C 2) 1 1000) = false := by
    simp [hclean, hrole, hwait, hmode, hrate]
  have hasks : d.u 0x08 1 = 1 ∨ d.u 0x08 1 = 2 := by
    simp only [inR, Bool.and_eq_true, decide_eq_true_eq] at hrole
    omega
  unfold pairJoinBody
  dsimp only
  rw [hparam, halone]
  rcases hfree with hsolo | ⟨hfenced, hsec⟩
  · rcases hasks with hprim | hsec
    · simp [hsolo, harb, hprim]
    · simp [hsolo, harb, hsec, hempty hsec]
  · simp [hfenced, harb, hsec, hempty hsec]

theorem pairStatusBody_ok (hclean : d.clean [(0x08, 12)] = true) (hlen : 64 ≤ d.u 0x10 4) (haddr : addrOk (d.u 0x08 8) (d.u 0x10 4) 64 = true) :
    pairStatusBody d s = result d (d.u 0x08 8) s.pairBlock s.pair.role.code s.pair.unshadowed.length s := by
  simp [pairStatusBody, hclean, Nat.not_lt.2 hlen, haddr]

theorem pairRoleBody_dissolves (hclean : d.clean [(0x08, 1)] = true) (haction : d.u 0x08 1 = 0)
    (hrole : s.pair.role = .primary ∨ s.pair.role = .secondary) :
    pairRoleBody d s = .done .ok 0 0 d.handle ((s.emit (.seam .dissolve)).dissolved) := by
  rcases hrole with hrole | hrole <;> simp [pairRoleBody, hclean, haction, hrole]

theorem pairRoleBody_switches (hclean : d.clean [(0x08, 1)] = true) (haction : d.u 0x08 1 = 1) (hrole : s.pair.role = .primary)
    (hidle : s.switching = false) : pairRoleBody d s = .wait .switchover d.handle s := by
  simp [pairRoleBody, hclean, haction, hrole, hidle]

theorem pairRoleBody_unfences (hclean : d.clean [(0x08, 1)] = true) (haction : d.u 0x08 1 = 2) (hrole : s.pair.role = .fenced) :
    pairRoleBody d s = .done .ok 0 0 d.handle (s.setRole .solo) := by
  simp [pairRoleBody, hclean, haction, hrole]

/-! ### Training -/

/-- The widest width that n working lanes allow is above half of n (R667). -/
theorem seamWidth_bounds {n : Nat} (hmax : n ≤ 8) : seamWidth n ≤ n ∧ (n ≠ 0 → n < 2 * seamWidth n) := by
  unfold seamWidth
  split_ifs <;> omega

/-- Only a Seam without a working lane has no width. -/
theorem seamWidth_eq_zero (n : Fin 9) : seamWidth n.val = 0 ↔ n.val = 0 := by
  have hbounds := seamWidth_bounds (show n.val ≤ 8 by omega)
  omega

/-- Settles O59: each command passes its checks, each end of a join or of a switchover finds its command. -/
theorem pairCommands : Obligations.PairCommands := by
  unfold Obligations.PairCommands
  refine ⟨?join, ?role, ?setRole, ?status, ?timeouts, ?idleTimeouts, ?trains, ?joins, ?width⟩
  case join =>
    intro d s hr a hclean hrole hmode hrate hwait hfree hempty harb halone hgrant
    exact exec_granted_wait rfl hr (pairJoinBody_asks hclean hrole hmode hrate hwait hfree hempty harb halone) rfl hgrant rfl
  case role =>
    intro d s hr hclean a
    refine ⟨fun haction hrole => ?_, fun haction hrole hidle => ?_, fun haction hrole => ?_⟩
    · exact exec_done rfl hr (pairRoleBody_dissolves hclean haction hrole)
    · exact exec_wait rfl hr (pairRoleBody_switches hclean haction hrole hidle)
    · exact exec_done rfl hr (pairRoleBody_unfences hclean haction hrole)
  case setRole =>
    intro role s
    obtain ⟨x, c, hshape, hcmd, hevt⟩ := setRole_shape (s := s) role
    rw [hshape]
    exact ⟨rfl, rfl, rfl, rfl, hcmd, hevt⟩
  case status =>
    intro d s hr hclean hlen haddr a hlink
    exact exec_done rfl hr ((pairStatusBody_ok hclean hlen haddr).trans (result_linkUp hlink))
  case timeouts =>
    intro ring f s
    refine ⟨fun hwait => ?_, fun hwait => ?_⟩
    · simp only [exec, execPairJoinTimeout, hwait]
    · simp only [exec, execSwitchoverTimeout, hwait]
  case idleTimeouts =>
    intro ring s
    refine ⟨fun hwait => ?_, fun hwait => ?_⟩
    · simp only [exec, execPairJoinTimeout, hwait]
    · simp only [exec, execSwitchoverTimeout, hwait]
  case trains =>
    intro n s hjoin
    simp only [exec, execSeamTrainingDone, hjoin]
    refine ⟨fun hpair => ?_, fun hpair hn => ?_, fun hpair hn => ?_⟩
    · exact congrArg _ (if_pos (by simp [hpair]))
    · exact congrArg _ ((if_neg (by simp [hpair])).trans (if_pos ((seamWidth_eq_zero n).2 hn)))
    · exact congrArg _ ((if_neg (by simp [hpair])).trans (if_neg (mt (seamWidth_eq_zero n).1 hn)))
  case joins =>
    intro n r f s hjoin
    simp only [exec, execSeamTrainingDone, hjoin]
    refine ⟨fun hn => ?_, fun hn hagreed => ?_, fun hn hagreed => ?_⟩
    · exact congrArg _ (if_pos ((seamWidth_eq_zero n).2 hn))
    · exact congrArg _ ((if_neg (mt (seamWidth_eq_zero n).1 hn)).trans (if_neg (by simp [hagreed, State.setPair, State.emit])))
    · exact congrArg _ ((if_neg (mt (seamWidth_eq_zero n).1 hn)).trans (if_pos (by simp [hagreed, State.setPair, State.emit])))
  case width =>
    intro n hmax hn
    exact (seamWidth_bounds hmax).imp_right fun h => h hn

/-! ### The pair at work -/

theorem heartbeat_inPair (hpair : s.inPair = true) (wake : Bool) : s.heartbeat wake =
    let t : State := { s with pair := { s.pair with lastBeat := s.now, missedRun := 0, peerOk := true } }
    if wake then t.wakeIdle 4 else t := by
  simp only [State.heartbeat, hpair, Bool.not_true, Bool.false_eq_true, if_false]
  rfl

/-- What the secondary's status does to the command of a primary that waits for it. -/
theorem takeStatus_waiting {r : Nat} {f : Inflight} (hrole : s.pair.role = .primary) (hwait : s.waitsAt r .mirror = some f) (code : Byte) :
    s.takeStatus r code = if code = 0 then s.commit r else
      (State.unclaim { s with pair := { s.pair with
        longest := max s.pair.longest (s.now - f.since), divTag := f.d.tag, divOp := f.op.code, divSt := code, diverged := true } } r f.handle).complete r
        (Status.ofCode code.toNat) 0 0 f.d.handle := by
  simp only [State.takeStatus, hrole, hwait, State.setPair]

/-- A status finds nothing to decide on a device that is not the primary, or where no command waits for one. -/
theorem takeStatus_other {r : Nat} (hother : s.pair.role ≠ .primary ∨ s.waitsAt r .mirror = none) (code : Byte) : s.takeStatus r code = s := by
  unfold State.takeStatus
  split
  · next f hrole hwait => exact absurd hother (by simp [hrole, hwait])
  · rfl

/-- Settles O60: each event by the branch that the role, the wait and the frame take. -/
theorem pairRows : Obligations.PairRows := by
  unfold Obligations.PairRows
  refine ⟨?beat, ?noPair, ?missed, ?waits, ?secondarySends, ?primarySends, ?goesOn, ?noWait, ?frames, ?fences, ?arb, ?forged, ?doorbell, ?delivered,
    ?command, ?status, ?noStatus, ?again, ?nothing⟩
  case beat =>
    intro s hpair
    exact ⟨congrArg Host.Outcome.next (heartbeat_inPair hpair false), congrArg Host.Outcome.next (heartbeat_inPair hpair true)⟩
  case noPair =>
    intro w s hpair
    have hout : (!s.inPair) = true := by simp [hpair]
    exact ⟨congrArg Host.Outcome.next (if_pos hout), congrArg Host.Outcome.next (if_pos hout), congrArg Host.Outcome.next (if_pos hout)⟩
  case missed =>
    intro s hpair t u
    refine congrArg Host.Outcome.next ((if_neg (by simp [hpair])).trans ?_)
    by_cases hrun : s.pair.missedRun < 2
    · exact (if_neg (show ¬3 ≤ s.pair.missedRun + 1 by omega)).trans (if_pos hrun).symm
    · exact (if_pos (show 3 ≤ s.pair.missedRun + 1 by omega)).trans (if_neg hrun).symm
  case waits =>
    intro cause s harb
    exact if_neg (show ¬s.pair.arb = true by simp [harb])
  case secondarySends =>
    intro s hpair hrole
    refine congrArg Host.Outcome.next ((if_neg (by simp [hpair])).trans ?_)
    simp only [hrole]
    rfl
  case primarySends =>
    intro s hpair hrole sec
    refine ⟨fun hsame => ?_, fun hnew => ?_⟩
    · refine congrArg Host.Outcome.next ((if_neg (by simp [hpair])).trans ?_)
      simp [hrole, ← hsame, sec]
    · intro ps t
      have hdue : (decide (s.pair.role = .primary) && decide (s.time.tb / unitS ≠ s.pair.offsetSec)) = true := by simpa [hrole] using hnew
      refine congrArg Host.Outcome.next ((if_neg (by simp [hpair])).trans ?_)
      simp only [hdue, if_true]
      rfl
  case goesOn =>
    intro cause s harb
    exact if_pos harb
  case noWait =>
    intro s hwait
    simp only [exec, execArbWaitExpiry, hwait]
  case frames =>
    intro w op d data h ring code s
    refine ⟨rfl, rfl, rfl, rfl, fun hpair => ?_, fun hpair => ?_, fun hrole => ?_, fun hrole => ?_⟩
    · exact congrArg Host.Outcome.next (if_pos hpair)
    · exact congrArg Host.Outcome.next (if_neg (show ¬s.inPair = true by simp [hpair]))
    · exact congrArg Host.Outcome.next (if_pos hrole)
    · exact congrArg Host.Outcome.next (if_neg hrole)
  case fences =>
    intro t s hwait
    simp only [exec, execArbWaitExpiry, hwait]
  case arb =>
    intro s
    refine ⟨fun hwait => ?_, fun hwait => ?_⟩
    · exact congrArg Host.Outcome.next (if_neg (by simp [hwait]))
    · exact congrArg Host.Outcome.next (if_pos (Option.isSome_iff_ne_none.2 hwait))
  case forged => exact fun _ _ => rfl
  case doorbell =>
    intro n c s hrole
    exact congrArg Host.Outcome.next (if_pos hrole)
  case delivered =>
    intro k q s hrole
    exact congrArg Host.Outcome.next (if_pos hrole)
  case command =>
    intro op d data h s
    refine ⟨fun hrole hmirrored => ?_, fun hother => ?_⟩
    · exact congrArg Host.Outcome.next (if_neg (by simp [hrole, hmirrored]))
    · exact congrArg Host.Outcome.next (if_pos (by simpa using hother))
  case status =>
    intro ring f s hrole hwait
    exact ⟨congrArg Host.Outcome.next ((takeStatus_waiting hrole hwait 0).trans (if_pos rfl)),
      fun code hcode => congrArg Host.Outcome.next ((takeStatus_waiting hrole hwait code).trans (if_neg hcode))⟩
  case noStatus =>
    intro ring code s hother
    exact congrArg Host.Outcome.next (takeStatus_other hother code)
  case again =>
    intro f l s htrained hout
    refine congrArg Host.Outcome.next ((if_neg (by simp [htrained])).trans ?_)
    simp [State.setPair, hout]
  case nothing =>
    intro s
    refine ⟨fun htrained => ?_, fun htrained hout => ?_⟩
    · exact congrArg Host.Outcome.next (if_pos (by simp [htrained]))
    · refine congrArg Host.Outcome.next ((if_neg (by simp [htrained])).trans ?_)
      simp [State.setPair, hout]

end Sys2Proof.Machine
end

section
/-! SEAL_OPEN, SEAL_CHECKPOINT, SEAL_CLOSE and the checkpoints (R701–R713), and the statement they settle. -/

namespace Sys2Proof.Machine

variable {d : Desc} {s t u : State} {k : Nat} {c : Cut} {rest : List Cut} {ring : Option (Fin 16)}

/-! ### Sessions -/

/-- A session after a cut: one more checkpoint to write, nothing since it (R705). -/
theorem session_cut (hk : k < 16) (kind : Nat) : (s.cut k kind ring).session k =
    { s.session k with
      cuts := (s.session k).cuts ++ [{ kind := kind, time := s.time74, first := (s.session k).next - (s.session k).since
                                       count := (s.session k).since, chain := (s.session k).chain, ring := ring }]
      since := 0, cutAt := s.now } :=
  session_setSession_same hk

/-! ### Commands -/

/-- The session that SEAL_OPEN claims, with its region (R701). -/
def State.sealClaimed (s : State) (d : Desc) (k : Nat) : State :=
  (s.setWriter (hIdx (sealRegion d)) (.session k)).setSession k fun x =>
    { Session.reset with gen := x.gen, claim := some d.ring.val, rate := d.u 0x24 4 }

/-- SEAL_OPEN reads its recipient block on behalf of the session that it claims (R709, R710). -/
theorem sealOpenBody_reads (hfields : sealOpenFields d s = true) (hregion : s.valid 3 (sealRegion d) = true) (hmay : s.sealBarred = false)
    (hclaim : sealClaim d s = .ok k) :
    sealOpenBody d s =
      readBuffer { d with handle := (s.sealClaimed d k).handleOf 8 k } (d.u 0x08 8) (d.u 0x10 4) (s.sealClaimed d k) := by
  simp only [sealOpenBody, hfields, hregion, hmay, hclaim, Bool.not_true, Bool.false_eq_true, if_false]
  rfl

theorem sealCheckpointBody_cuts (hclean : d.clean [] = true) (hopen : (s.session (hIdx d.handle)).closing = false) :
    sealCheckpointBody d s = .wait .checkpoint d.handle (s.cutSoon (hIdx d.handle) 2 (some d.ring)) := by
  simp only [sealCheckpointBody, hclean, hopen, Bool.not_true, Bool.false_eq_true, if_false]

theorem sealCloseBody_cuts (hclean : d.clean [] = true) (hopen : (s.session (hIdx d.handle)).closing = false)
    (hsink : (s.session (hIdx d.handle)).sink = none) :
    sealCloseBody d s = .wait .checkpoint d.handle
      ((s.cut (hIdx d.handle) 3 (some d.ring)).setSession (hIdx d.handle) fun x => { x with closing := true }) := by
  simp only [sealCloseBody, hclean, hopen, hsink, Option.isSome_none, Bool.not_true, Bool.false_eq_true, if_false]

/-! ### Checkpoints written -/

/-- Appending a record leaves the security state. -/
theorem appendRecord_sec {i : Nat} {h : Hdr} {p : List Byte} (ht : s.appendRecord i h p = some t) : t.sec = s.sec := by
  obtain ⟨o, -, rfl⟩ := Option.map_eq_some_iff.1 ht
  rfl

/-- The front checkpoint is in the region: reported, numbered, no longer waiting (R705). -/
def State.cutWritten (s : State) (k : Nat) (c : Cut) (rest : List Cut) : State :=
  (s.note .sealCheckpoint (s.handleOf 8 k) [(1, c.kind), (3, (s.session k).number % 2 ^ 24), (8, c.last)]).setSession k fun x =>
    { x with cuts := rest, number := x.number + 1 }

/-- A checkpoint that is written leaves whether its session closes. -/
theorem cutWritten_closing (hk : k < 16) : ((s.cutWritten k c rest).session k).closing = (s.session k).closing := by
  rw [State.cutWritten, session_setSession_same hk]
  simp [State.session]

/-- What a written checkpoint ends: a closing session at its last one, and the command that waits for it. -/
def State.cutEnds (s : State) (k : Nat) (c : Cut) (rest : List Cut) : State :=
  let salt := (s.session k).salt.toNat
  let s := if (s.session k).closing && rest.isEmpty then s.freeSession k else s
  match c.ring with
  | some r => if c.kind = 0 then s.finish r.val .ok k salt else s.finish r.val .ok 0 (if c.kind = 2 then c.last % 2 ^ 32 else 0)
  | none => s

/-- CHECKPOINT_WRITE whose journal segment, if one is due, and whose checkpoint find room (R705). -/
theorem writeCut_written {v : State} (hcuts : (s.session k).cuts = c :: rest)
    (hseg : (if (s.unwritten k).isEmpty then some s
      else (s.appendRecord (s.session k).region (Hdr.plain (s.handleOf 8 k) 0x0D 2 (timeOf74 c.time)) (segmentBytes (s.unwritten k))).map
        fun t => t.setSession k fun x => { x with jNext := s.sec.jNext }) = some v)
    (hroom : v.appendRecord (v.session k).region (v.checkpoint k c).1 (v.checkpoint k c).2 = some t) :
    s.writeCut k = (t.cutWritten k c rest).cutEnds k c rest := by
  -- A name for the append, so that no comparison of the two sides evaluates it.
  obtain ⟨append, happend⟩ : ∃ f, f = State.appendRecord := ⟨_, rfl⟩
  unfold State.writeCut
  rw [← happend] at hseg hroom ⊢
  simp only [hcuts, hseg, hroom]
  rfl

/-- A checkpoint whose region has no room waits. -/
theorem writeCut_noRoom (hcuts : (s.session k).cuts = c :: rest) (hnone : s.unwritten k = [])
    (hfull : s.appendRecord (s.session k).region (s.checkpoint k c).1 (s.checkpoint k c).2 = none) : s.writeCut k = s := by
  obtain ⟨append, happend⟩ : ∃ f, f = State.appendRecord := ⟨_, rfl⟩
  unfold State.writeCut
  rw [← happend] at hfull ⊢
  simp only [hcuts, hnone, List.isEmpty_nil, if_true, hfull]

/-- A checkpoint that no command waits for, of a session that does not close, is written and reported. -/
theorem writeCut_open (hk : k < 16) {v : State} (hcuts : (s.session k).cuts = c :: rest) (hring : c.ring = none)
    (hopen : (t.session k).closing = false)
    (hseg : (if (s.unwritten k).isEmpty then some s
      else (s.appendRecord (s.session k).region (Hdr.plain (s.handleOf 8 k) 0x0D 2 (timeOf74 c.time)) (segmentBytes (s.unwritten k))).map
        fun t => t.setSession k fun x => { x with jNext := s.sec.jNext }) = some v)
    (hroom : v.appendRecord (v.session k).region (v.checkpoint k c).1 (v.checkpoint k c).2 = some t) :
    s.writeCut k = t.cutWritten k c rest := by
  have hstays : ((t.cutWritten k c rest).session k).closing = false := (cutWritten_closing hk).trans hopen
  rw [writeCut_written hcuts hseg hroom]
  simp only [State.cutEnds, hring, hstays, Bool.false_and, Bool.false_eq_true, if_false]

/-! ### Sealed records -/

/-- A sealed record advances the chain; the N-th since the last checkpoint cuts one (R703, R705). -/
theorem sealDone_noneDue (hk : k < 16) (hdue : (s.session k).due = []) (tag : List Byte) : s.sealDone k tag =
    let v := s.setSession k fun x =>
      { x with chain := Config.sha384 (le 48 x.chain.toNat ++ tag), next := x.next + 1, since := x.since + 1, due := [] }
    if (s.session k).n ≠ 0 ∧ (s.session k).n ≤ (s.session k).since + 1 then v.cut k 1 none else v := by
  have hcut : (s.setSession k fun x =>
      { x with chain := Config.sha384 (le 48 x.chain.toNat ++ tag), next := x.next + 1, since := x.since + 1 }).cutDue k =
      s.setSession k fun x =>
        { x with chain := Config.sha384 (le 48 x.chain.toNat ++ tag), next := x.next + 1, since := x.since + 1, due := [] } := by
    simp only [State.cutDue, session_setSession_same hk, hdue, List.foldl_nil, setSession_setSession]
  simp only [State.sealDone, hcut, session_setSession_same hk, Bool.and_eq_true, decide_eq_true_eq]

/-- Settles O57: each command passes its checks, each checkpoint by what waits and what finds room. -/
theorem sealCommandsAndRows : Obligations.SealCommandsAndRows := by
  unfold Obligations.SealCommandsAndRows
  refine ⟨?opens, ?session, ?checkpoint, ?closes, ?timer, ?cut, ?written, ?closed, ?segment, ?noCut, ?noRoom, ?sealed⟩
  case opens =>
    intro d s hr a hfields hregion hmay hlink k hclaim b w io
    obtain ⟨f, hf, -⟩ := accepted_inflight .sealOpen d s
    rw [show Instr.sealOpen d = ringInstr .sealOpen d from rfl, exec_ready rfl hr]
    exact congrArg Host.Outcome.next ((congrArg (settle d.ring.val a) (sealOpenBody_reads hfields hregion hmay hclaim)).trans
      (settle_readBuffer (d := { d with handle := b.handleOf 8 k }) (b := b) hf hlink))
  case session =>
    intro d buf k s hlen t x
    have hown : ¬d.u 0x10 4 < buf.length := Nat.not_lt.2 hlen
    have hx : x = _ := session_setSession_same k.isLt
    simp only [hown, decide_false, Bool.false_eq_true, if_false] at hx
    rw [hx]
    exact ⟨rfl, rfl, rfl, rfl, rfl, rfl, rfl, rfl, rfl, rfl, rfl, rfl, rfl, kept_sec _⟩
  case checkpoint =>
    intro d s hr hclean a hopen
    refine ⟨fun hidle => ?_, fun hbusy => ?_⟩
    · have hcut : a.cutSoon (hIdx d.handle) 2 (some d.ring) = a.cut (hIdx d.handle) 2 (some d.ring) := if_neg (by simp [hidle])
      rw [← hcut]
      exact exec_wait rfl hr (sealCheckpointBody_cuts hclean hopen)
    · have hcut : a.cutSoon (hIdx d.handle) 2 (some d.ring) =
          a.setSession (hIdx d.handle) fun x => { x with due := x.due ++ [(2, some d.ring)] } := if_pos hbusy
      rw [← hcut]
      exact exec_wait rfl hr (sealCheckpointBody_cuts hclean hopen)
  case closes =>
    intro d s hr hclean a hopen hsink
    exact exec_wait rfl hr (sealCloseBody_cuts hclean hopen hsink)
  case timer =>
    intro k s x
    refine ⟨fun hopen hstays ht hdue => ?_, fun hnot => ?_⟩
    · exact congrArg Host.Outcome.next (if_pos (by simp only [x] at *; simp [hopen, hstays, ht, hdue]))
    · exact congrArg Host.Outcome.next (if_neg (by simp only [x] at *; grind))
  case cut =>
    intro k kind ring s x y
    have hy : y = _ := session_cut k.isLt kind
    rw [hy]
    exact ⟨rfl, rfl, rfl, rfl⟩
  case written =>
    intro k c rest t s hcuts hnone hring hopen hroom
    refine congrArg Host.Outcome.next (writeCut_open k.isLt hcuts hring ?_ (if_pos (by simp [hnone])) hroom)
    rw [State.session, appendRecord_sec hroom]
    exact hopen
  case closed =>
    intro k r c t s hcuts hnone hring hkind hcloses hroom u
    have hends : ((t.cutWritten k.val c []).session k.val).closing = true := by
      rw [cutWritten_closing k.isLt, State.session, appendRecord_sec hroom]
      exact hcloses
    refine congrArg Host.Outcome.next ((writeCut_written hcuts (if_pos (by simp [hnone])) hroom).trans ?_)
    simp only [State.cutEnds, hring, hkind, hends, List.isEmpty_nil, Bool.and_self, if_true]
    rfl
  case segment =>
    intro k c rest t s hcuts hsome hring hopen hseg v u hroom
    refine congrArg Host.Outcome.next (writeCut_open (v := v) k.isLt hcuts hring ?_ ?_ hroom)
    · rw [State.session, appendRecord_sec hroom, ← State.session, session_setSession_same k.isLt, State.session, appendRecord_sec hseg]
      exact hopen
    · rw [if_neg (by simpa using hsome), hseg]
      rfl
  case noCut =>
    intro k s hcuts
    simp only [exec, execCheckpointWrite, State.writeCut, hcuts]
  case noRoom =>
    intro k c rest s hcuts hnone hfull
    exact congrArg Host.Outcome.next (writeCut_noRoom hcuts hnone hfull)
  case sealed =>
    intro k tag s hdue x y
    have hy : y = (s.sealDone k.val tag).session k.val := rfl
    rw [sealDone_noneDue k.isLt hdue] at hy
    by_cases hcut : x.n ≠ 0 ∧ x.n ≤ x.since + 1
    · rw [if_pos hcut, session_cut k.isLt, session_setSession_same k.isLt] at hy
      rw [hy]
      refine ⟨rfl, rfl, fun hfew => ?_, fun _ _ => ⟨rfl, ?_⟩⟩
      · omega
      · simp only [Nat.add_sub_add_right]
        rfl
    · rw [if_neg hcut, session_setSession_same k.isLt] at hy
      rw [hy]
      exact ⟨rfl, rfl, fun _ => ⟨rfl, rfl⟩, fun hn hmany => absurd ⟨hn, hmany⟩ hcut⟩

end Sys2Proof.Machine
end

section
/-! SPDM requests, the lifecycle and debug access (R689–R717), and the statement they settle. -/

namespace Sys2Proof.Machine

variable {s : State} {p : Fin 2} {bytes : List Byte} {r : LifeReq} {kind : Nat} {ok : Bool} {effect : State → State}

/-! ### Responses -/

theorem reply_answers (h : s.answers p = true) : s.reply p bytes = s.emit (.spdm p bytes) := if_pos h

theorem reply_silent (h : s.answers p = false) : s.reply p bytes = s := if_neg (by simp [h])

/-! ### Lifecycle requests -/

theorem lifeStep_silent (h : s.answers r.port = false) : lifeStep r kind ok effect s = s := if_pos (by simp [h])

/-- A request without a fresh challenge, or that fails its checks, is refused (R692). -/
theorem lifeStep_refused (ha : s.answers r.port = true) (h : s.lifeFresh r.serial r.challenge = false ∨ ok = false) :
    lifeStep r kind ok effect s = s.emit (.spdm r.port spdmInvalid) := by
  have hnot : ¬(ok && s.lifeFresh r.serial r.challenge) = true := by rcases h with h | h <;> simp [h]
  exact (if_neg (by simp [ha])).trans ((if_neg hnot).trans (reply_answers ha))

/-- A request with a fresh challenge is carried out when its checks pass, and uses up the challenge (R692). -/
theorem lifeStep_fresh (ha : s.answers r.port = true) (hf : s.lifeFresh r.serial r.challenge = true) : lifeStep r kind ok effect s =
    if ok then ((effect (s.spend r.challenge)).journal 6 0xFF 0 0 (Config.sha384 (lifeMsg r kind))).reply r.port [0x7E]
    else s.emit (.spdm r.port spdmInvalid) := by
  cases ok with
  | true => exact (if_neg (by simp [ha])).trans (if_pos hf)
  | false => exact lifeStep_refused ha (.inr rfl)

/-- With no session open, closing the sessions does nothing. -/
theorem closeAll_noneOpen (h : ∀ j : Fin 16, (s.session j.val).isOpen = false) : s.closeAll kind = s := by
  have hsealer (hd : Handle) : s.sealer hd = none := by
    have hvalid : s.valid 8 hd = false := by
      simp only [State.valid, State.objGen]
      split
      · next g hg =>
        split at hg
        · next hlt =>
          have hclosed := h ⟨hIdx hd, hlt⟩
          rw [State.session] at hclosed
          simp [hclosed] at hg
        · cases hg
      · rfl
    simp [State.sealer, hvalid]
  have hfinish : s.finishSealed = s := by
    refine foldl_unchanged fun k _ => ?_
    split
    · exact if_neg (by simp [hsealer])
    · rfl
  rw [State.closeAll, hfinish]
  refine foldl_unchanged fun k hk => ?_
  exact if_neg (by simp [h ⟨k, List.mem_range.1 hk⟩])

/-! ### Debug access -/

/-- The entry of the register writes that is due takes the next number (R699). -/
theorem journalRegs_jNext : s.journalRegs.sec.jNext =
    if s.sec.jRegs.isEmpty || s.now < s.sec.jRegAt + 1000000 then s.sec.jNext else s.sec.jNext + 1 := by
  unfold State.journalRegs
  split <;> rfl

/-- Access that locks again: no token, and one more entry in the journal (R715). -/
theorem relock_open {x : Byte × Nat} (h : s.sec.debugTok = some x) :
    s.relock.sec.debugTok = none ∧ s.relock.sec.jNext = s.journalRegs.sec.jNext + 1 := by
  have hrelock : s.relock = (s.setSec fun x => { x with debugTok := none }).journal 5 0xFF 0 0 (Config.sha384 []) := if_pos (by simp [h])
  rw [hrelock]
  refine ⟨?_, ?_⟩
  · obtain ⟨js, head, n, regs, hsec⟩ := journal_sec_shape (s := s.setSec fun x => { x with debugTok := none }) 5 0xFF 0 0 (Config.sha384 [])
    rw [hsec]
    rfl
  · have hregs : (s.setSec fun x => { x with debugTok := none }).journalRegs.sec.jNext = s.journalRegs.sec.jNext := by
      rw [journalRegs_jNext, journalRegs_jNext]
      rfl
    exact congrArg (· + 1) hregs

/-- Settles O58: each request by whether the device answers, the challenge is fresh and the checks pass. -/
theorem securityRows : Obligations.SecurityRows := by
  unfold Obligations.SecurityRows
  refine ⟨?answers, ?silent, ?silentLife, ?stale, ?count, ?measures, ?claims, ?noClaim, ?releases, ?releasesOpen, ?enrols, ?decommissions, ?token,
    ?noToken, ?expires, ?noExpiry, fun _ _ _ h => relock_open h⟩
  case answers =>
    intro p off len nonce s ha
    refine ⟨?_, ?_, ?_, ?_, ?_, ?_⟩
    · exact congrArg Host.Outcome.next (reply_answers ha)
    · exact congrArg Host.Outcome.next (reply_answers ha)
    · exact congrArg Host.Outcome.next (reply_answers ha)
    · exact congrArg Host.Outcome.next (reply_answers ha)
    · exact congrArg Host.Outcome.next (reply_answers ha)
    · intro t body
      exact congrArg Host.Outcome.next ((if_pos ha).trans (reply_answers (s := t) ha))
  case silent =>
    intro p off len nonce i s ha
    refine ⟨?_, ?_, ?_, ?_, ?_, ?_, ?_⟩
    · exact congrArg Host.Outcome.next (reply_silent ha)
    · exact congrArg Host.Outcome.next (reply_silent ha)
    · exact congrArg Host.Outcome.next (if_neg (by simp [ha]))
    · simp only [exec, execGetMeasurements, reply_silent ha, ite_self]
    · exact congrArg Host.Outcome.next (reply_silent ha)
    · exact congrArg Host.Outcome.next (reply_silent ha)
    · exact congrArg Host.Outcome.next (reply_silent ha)
  case silentLife =>
    intro r s ha
    refine ⟨?_, ?_, ?_, ?_, ?_⟩
    · exact congrArg Host.Outcome.next (lifeStep_silent ha)
    · exact congrArg Host.Outcome.next (lifeStep_silent ha)
    · exact congrArg Host.Outcome.next (lifeStep_silent ha)
    · exact congrArg Host.Outcome.next (lifeStep_silent ha)
    · exact congrArg Host.Outcome.next (if_pos (by simp [ha]))
  case stale =>
    intro r s ha hstale no
    refine ⟨?_, ?_, ?_⟩
    · exact congrArg Host.Outcome.next (lifeStep_refused ha (.inl hstale))
    · exact congrArg Host.Outcome.next (lifeStep_refused ha (.inl hstale))
    · exact congrArg Host.Outcome.next (lifeStep_refused ha (.inl hstale))
  case count =>
    intro p s ha
    exact ⟨congrArg Host.Outcome.next (reply_answers ha), congrArg Host.Outcome.next (reply_answers ha)⟩
  case measures =>
    intro p i b s ha hzero hall
    refine ⟨fun hb => ?_, fun hnone => ?_⟩
    · refine congrArg Host.Outcome.next ((if_neg (by simp [hb])).trans ((reply_answers ha).trans ?_))
      rw [if_neg hzero, if_neg hall, List.flatMap_cons, List.flatMap_nil, hb, Option.getD_some, List.append_nil]
    · have hasked : (decide (i ≠ 0) && decide (i ≠ 0xFF) && (s.measurement i.toNat).isNone) = true := by
        rw [hnone, decide_eq_true hzero, decide_eq_true hall]
        rfl
      exact congrArg Host.Outcome.next ((if_pos hasked).trans (reply_answers ha))
  case claims =>
    intro r k s ha hf hlife hslot hkey t
    simp only [exec, execClaim, hslot, hlife, hkey, decide_true, Option.isSome_some, Bool.and_self, Bool.true_and, Option.getD_some]
    exact congrArg Host.Outcome.next (lifeStep_fresh ha hf)
  case noClaim =>
    intro r s ha hnot
    refine congrArg Host.Outcome.next (lifeStep_refused ha (hnot.imp_right fun h => ?_))
    rw [decide_eq_false h, Bool.false_and, Bool.false_and, Bool.false_and]
  case releases =>
    intro r k s ha hf hlife hslot hclosed t
    simp only [exec, execRelease, hlife, decide_true, Bool.true_and]
    refine congrArg Host.Outcome.next ((lifeStep_fresh ha hf).trans ?_)
    have hsame : (s.spend r.challenge).closeAll 3 = s.spend r.challenge := closeAll_noneOpen hclosed
    have hspent : (s.spend r.challenge).sec.slot = some k := hslot
    simp only [hsame, hspent, Option.getD_some]
    rfl
  case releasesOpen =>
    intro r s ha hf hlife v t
    simp only [exec, execRelease, hlife, decide_true, Bool.true_and]
    exact congrArg Host.Outcome.next ((lifeStep_fresh ha hf).trans (by simp only [t, v]))
  case enrols =>
    intro r s ha hf hlife t
    simp only [exec, execEnrolPair, hlife, decide_true, Bool.true_and]
    exact congrArg Host.Outcome.next (lifeStep_fresh ha hf)
  case decommissions =>
    intro r s ha hf hlife t
    refine congrArg Host.Outcome.next ((lifeStep_fresh ha hf).trans ?_)
    rcases hlife with hlife | hlife
    · simp [hlife, t]
    · simp [hlife, t]
  case token =>
    intro r s ha hlife hexpiry hmask
    refine ⟨fun hf => ?_, fun hstale => ?_⟩
    · simp only [exec, execDebugToken, ha, hlife, hexpiry, hmask, hf, decide_true, Bool.true_and, Bool.and_true, Bool.not_true,
        Bool.false_eq_true, if_false, reply_answers ha]
    · simp only [exec, execDebugToken, ha, hstale, Bool.and_false, Bool.not_true, Bool.false_eq_true, if_false, reply_answers ha]
  case noToken =>
    intro r s ha hnot
    refine congrArg Host.Outcome.next ((if_neg (by simp [ha])).trans ((if_neg ?_).trans (reply_answers ha)))
    rcases hnot with h | h | h
    · simp [h]
    · simp [h]
    · simp [Nat.not_lt.2 h]
  case expires =>
    intro mask t s htok
    simp only [exec, execDebugGrantExpiry, htok]
  case noExpiry =>
    intro s htok
    simp only [exec, execDebugGrantExpiry, htok]

end Sys2Proof.Machine
end

section
/-! The start that ends with a verified image, the boot flash, and the byte lists at reset (R694–R697, R727–R736, R788), and the statements
they settle. -/

namespace Sys2Proof.Machine

variable {s : State} {v : Word} {op a : Nat}

/-- Settles O4: both byte lists are empty at reset. -/
theorem memoryCanonicalAtReset : Obligations.MemoryCanonicalAtReset := by
  unfold Obligations.MemoryCanonicalAtReset
  exact ⟨rfl, rfl⟩

/-! ### The start -/

/-- The image that was found, the committed step, the stacks of the device and the store's contents, before a start is reported (R694–R697). -/
def State.bootLoaded (s : State) (b : BootInfo) : State :=
  let failed := b.hbmFailed &&& (if s.ident.small then 3#4 else 15#4)
  State.restoreStore { s with
    store := if b.storeDiscarded then .reset else s.store
    ident := { s.ident with fw := b.fwVersion, secVer := b.secVersion }
    sec := { s.sec with step := if b.commit && decide (s.sec.step < b.secVersion) then b.secVersion else s.sec.step }
    hbm := { s.hbm with failed := failed, trained := (if s.ident.small then 3#4 else 15#4) &&& ~~~failed }
    pau := { s.pau with budget := s.pau.budgetDef.toNat, budgetSet := false, queueMs := 10000, setpoint := s.avsGoal } }

/-- Stacks whose training failed enter the error log alone. -/
theorem foldl_trainingFailed_shape (failed : BitVec 4) (l : List Nat) : ∃ n g,
    l.foldl (fun s k => if failed.getLsbD k then s.trainingFailed k else s) s = { s with free := n, integ := g } := by
  refine List.foldlRecOn (motive := fun t : State => ∃ n g, t = { s with free := n, integ := g }) l _ ⟨s.free, s.integ, rfl⟩ fun t ht k _ => ?_
  obtain ⟨n, g, rfl⟩ := ht
  split
  · exact ⟨_, _, rfl⟩
  · exact ⟨n, g, rfl⟩

/-- What a start reports: the stacks that failed, the first voltage and the image's entry in the journal. -/
def State.bootReported (s : State) (failed : BitVec 4) : State :=
  let t := (List.range 4).foldl (fun s k => if failed.getLsbD k then s.trainingFailed k else s) s
  ((t.emit (.pmbus (t.pau.avsCfg.toNat % 128) t.pau.setpoint)).journal 7 0xFF 0 0 Config.imageDigest).emit (.uart "> ")

/-- What a start reports stands in the error log, the output and the journal. -/
theorem bootReported_shape (failed : BitVec 4) : ∃ n g x js head next regs, s.bootReported failed =
    { s with free := n, integ := g, io := x, sec := { s.sec with journal := js, head := head, jNext := next, jRegs := regs } } := by
  obtain ⟨n, g, hfold⟩ := foldl_trainingFailed_shape (s := s) failed (List.range 4)
  let t : State := State.emit { s with free := n, integ := g } (.pmbus (s.pau.avsCfg.toNat % 128) s.pau.setpoint)
  obtain ⟨sec, hjournal⟩ := journal_shape (s := t) 7 0xFF 0 0 Config.imageDigest
  obtain ⟨js, head, next, regs, hsec⟩ := journal_sec_shape (s := t) 7 0xFF 0 0 Config.imageDigest
  obtain rfl : sec = _ := (congrArg State.sec hjournal).symm.trans hsec
  exact ⟨n, g, _, js, head, next, regs, by rw [State.bootReported, hfold]; exact congrArg (State.emit · (.uart "> ")) hjournal⟩

/-- The die serves the host, IDLE, with what was found in BOOT's fields (R733, R734). -/
def State.bootServes (s : State) (b : BootInfo) (failed : BitVec 4) (raised : Bool) : State :=
  { s with
    boot := { s.boot with
      die := .serving, ready := true, image := b.slotB, fallback := b.slotB != s.flash.activeB, storeDisc := b.storeDiscarded
      committed := raised, attempts := s.boot.failed, failed := 0, tryOther := false, hbmFailed := failed, bootMs := b.bootMs
      keepLog := false }
    pwr := { s.pwr with st := .idle, entering := none, enteredAt := s.now } }

/-- Settles O24: the branch of a start that ends, and what its reports leave. -/
theorem bootReadyServesTheHost : Obligations.BootReadyServesTheHost := by
  unfold Obligations.BootReadyServesTheHost
  intro b s hdie hpor hxtal hsafe hstep hlast
  have hends : ¬(decide (s.boot.die ≠ .booting) || s.boot.porLow || !s.boot.xtal32 || s.boot.safe || decide (b.secVersion < s.sec.step) ||
      decide (512 < b.secVersion)) = true := by
    simp [hdie, hpor, hxtal, hsafe, Nat.not_lt.2 hstep, Nat.not_lt.2 hlast]
  let failed := b.hbmFailed &&& (if s.ident.small then 3#4 else 15#4)
  refine ⟨((s.bootLoaded b).bootReported failed).bootServes b failed (b.commit && decide (s.sec.step < b.secVersion)),
    congrArg Host.Outcome.next (if_neg hends), ?_⟩
  obtain ⟨n, g, x, js, head, next, regs, hreported⟩ := bootReported_shape (s := s.bootLoaded b) failed
  rw [hreported]
  refine ⟨rfl, rfl, rfl, rfl, rfl, rfl, ?_, rfl, rfl, rfl, rfl, rfl, rfl, rfl, rfl, rfl, rfl, rfl⟩
  simp only [State.bootServes, State.bootLoaded, State.restoreStore, Bool.and_eq_true, decide_eq_true_eq]

/-! ### The boot flash -/

/-- A write of FLASH_CTL with GO and without SELECT sets OP and starts it (R727). -/
theorem flashCtl_go (hop : bits v.toNat 30 28 = op) (hfirst : op ≠ 0) (hlast : op ≤ 3) (hgo : v.getLsbD 31 = true) (hsel : v.toNat % 4 = 0) :
    s.flashCtl v = (s.setFlash fun f => { f with op := BitVec.ofNat 3 op }).flashGo op := by
  subst hop
  have hnone (t : State) : t.flashSel v = t := if_neg (by simp [hsel])
  exact (if_neg (by simp [hfirst, Nat.not_lt.2 hlast])).trans ((if_pos hgo).trans (by rw [hnone]))

theorem flashGo_starts (hbusy : s.flash.busy = false) (haligned : s.flash.addr.toNat % (if op = 3 then 65536 else 256) = 0)
    (hopen : op ≠ 1 → s.flashOpen s.flash.addr.toNat (if op = 3 then 65536 else 256) = true) :
    s.flashGo op = s.flashStart op s.flash.addr.toNat := by
  have hslot : (decide (op ≠ 1) && !s.flashOpen s.flash.addr.toNat (if op = 3 then 65536 else 256)) = false := by
    by_cases h : op = 1
    · simp [h]
    · simp [hopen h]
  simp only [State.flashGo, hbusy, haligned, hslot, ne_eq, not_true_eq_false, decide_false, Bool.or_self, Bool.false_eq_true, if_false]

theorem flashGo_denied (hbusy : s.flash.busy = false) (haligned : s.flash.addr.toNat % (if op = 3 then 65536 else 256) = 0) (hop : op ≠ 1)
    (hclosed : s.flashOpen s.flash.addr.toNat (if op = 3 then 65536 else 256) = false) :
    s.flashGo op = s.setFlash fun f => { f with denied := true } := by
  simp [State.flashGo, hbusy, haligned, hop, hclosed]

/-- A write of FLASH_CTL that selects a slot and does nothing else (R729). -/
theorem flashCtl_select (hop : bits v.toNat 30 28 = 0) (hgo : v.getLsbD 31 = false) (hsel : v.toNat % 4 = 1 ∨ v.toNat % 4 = 2)
    (hbusy : s.flash.busy = false) : s.flashCtl v = (s.setFlash fun f => { f with op := 0 }).flashStart 4 (v.toNat % 4 - 1) := by
  have hstarts (t : State) (ht : t.flash.busy = false) : t.flashSel v = t.flashStart 4 (v.toNat % 4 - 1) :=
    (if_pos (by simpa using hsel)).trans (if_neg (by simp [ht]))
  refine (if_neg (by simp [hop, -BitVec.getLsbD_eq_getElem, hgo])).trans ((if_neg (by simp [-BitVec.getLsbD_eq_getElem, hgo])).trans ?_)
  rw [hop, hstarts _ (by exact hbusy)]
  rfl

/-- The older copy, written with the next count, becomes the one in force, unless the count wraps (R729). -/
theorem current_writeDesc {f : Flash} (slotB : Bool) (hcount : (f.copy f.current).count ≠ 0xFFFFFFFF#32) :
    (f.writeDesc slotB 0).copy (f.writeDesc slotB 0).current = ⟨true, slotB, (f.copy f.current).count + 1⟩ := by
  have next (c : Word) (hc : c ≠ 0xFFFFFFFF#32) : c.toNat < (c + 1).toNat := by bv_omega
  have hsides : f.current = 1 ∨ f.current = 0 := ite_eq_or_eq ..
  rcases hsides with hcur | hcur
  · rw [hcur] at hcount ⊢
    have hnext : ¬(f.desc1.count + 1).toNat < f.desc1.count.toNat := Nat.lt_asymm (next _ hcount)
    have hwritten : f.writeDesc slotB 0 = { f with desc0 := ⟨true, slotB, f.desc1.count + 1⟩ } := by simp [Flash.writeDesc, hcur, Flash.copy]
    have hforce : (f.writeDesc slotB 0).current = 0 := by
      rw [hwritten]
      exact if_neg (by rw [decide_eq_false hnext]; simp)
    rw [hforce, hwritten]
    rfl
  · rw [hcur] at hcount ⊢
    have hnext : f.desc0.count.toNat < (f.desc0.count + 1).toNat := next _ hcount
    have hwritten : f.writeDesc slotB 0 = { f with desc1 := ⟨true, slotB, f.desc0.count + 1⟩ } := by simp [Flash.writeDesc, hcur, Flash.copy]
    have hforce : (f.writeDesc slotB 0).current = 1 := by
      rw [hwritten]
      exact if_pos (by rw [decide_eq_true hnext]; simp)
    rw [hforce, hwritten]
    rfl

/-- Writing a descriptor copy leaves everything of the flash but the two copies. -/
theorem writeDesc_shape (f : Flash) (slotB : Bool) (how : Nat) : ∃ x y, f.writeDesc slotB how = { f with desc0 := x, desc1 := y } := by
  unfold Flash.writeDesc
  dsimp only
  split
  · exact ⟨f.desc0, _, rfl⟩
  · exact ⟨_, f.desc1, rfl⟩

/-- A change of the boot flash alone. -/
theorem kept_flash (x : Flash) : Kept [.flash] s { s with flash := x } := by
  refine ⟨rfl, fun p hp => ?_⟩
  cases p with
  | flash => simp at hp
  | _ => rfl

/-- Settles O25: a start by what the write asks for, an end by the operation that runs. -/
theorem bootFlashRows : Obligations.BootFlashRows := by
  unfold Obligations.BootFlashRows
  refine ⟨?read, ?program, ?erase, ?denied, ?select, ?readDone, ?programDone, ?eraseDone, ?selectDone⟩
  case read =>
    intro v s hserves hop hgo hsel hbusy haligned
    refine congrArg Host.Outcome.next ((if_pos hserves).trans ((flashCtl_go hop (by decide) (by decide) hgo hsel).trans ?_))
    exact flashGo_starts hbusy haligned (absurd rfl)
  case program =>
    intro v s hserves hop hgo hsel hbusy haligned hopen
    refine congrArg Host.Outcome.next ((if_pos hserves).trans ((flashCtl_go hop (by decide) (by decide) hgo hsel).trans ?_))
    exact flashGo_starts hbusy haligned fun _ => hopen
  case erase =>
    intro v s hserves hop hgo hsel hbusy haligned hopen
    refine congrArg Host.Outcome.next ((if_pos hserves).trans ((flashCtl_go hop (by decide) (by decide) hgo hsel).trans ?_))
    exact flashGo_starts hbusy haligned fun _ => hopen
  case denied =>
    intro v s hserves hop hgo hsel hbusy haligned hclosed
    refine congrArg Host.Outcome.next ((if_pos hserves).trans ((flashCtl_go hop (by decide) (by decide) hgo hsel).trans ?_))
    exact flashGo_denied hbusy haligned (by decide) hclosed
  case select =>
    intro v s hserves hop hgo hsel hbusy
    exact congrArg Host.Outcome.next ((if_pos hserves).trans (flashCtl_select hop hgo hsel hbusy))
  case readDone =>
    intro a s hrun hfrom hto
    have hbytes (t : State) : t.flashBytes a 256 = ((Mem.reads t.flash.mem a 256).map fun b => ~~~b, t) := if_neg (by simp; omega)
    simp only [exec, execFlashOperationDone, hrun, Bool.or_false, Bool.false_eq_true, if_false, hbytes]
    rfl
  case programDone =>
    intro a s hrun
    simp only [exec, execFlashOperationDone, hrun, Bool.or_false, Bool.false_eq_true, if_false]
    rfl
  case eraseDone =>
    intro a s hrun
    simp only [exec, execFlashOperationDone, hrun, Bool.or_false, Bool.false_eq_true, if_false]
    rfl
  case selectDone =>
    intro slot s hrun hcount
    let f : Flash := { s.flash with busy := false, run := none }
    obtain ⟨x, y, hshape⟩ := writeDesc_shape f (slot.val == 1) 0
    have hforce := current_writeDesc (f := f) (slot.val == 1) hcount
    refine ⟨{ s with flash := f.writeDesc (slot.val == 1) 0 }, ?_, ?_, ?_, ?_, ?_, ?_⟩
    · simp only [exec, execFlashOperationDone, hrun, Bool.or_false, Bool.false_eq_true, if_false]
      rfl
    · exact (congrArg Flash.busy hshape :)
    · exact congrArg FlashDesc.slotB hforce
    · exact congrArg FlashDesc.count hforce
    · exact (congrArg Flash.mem hshape :)
    · exact kept_flash _

end Sys2Proof.Machine
end

section
/-! AON_RULES, the events of Thimble's monitor, its log and its lifetime counters (R641–R665), and the statement they settle. -/

namespace Sys2Proof.Machine

variable {d : Desc} {s : State} {buf : List Byte}

/-- A change of Thimble alone. -/
theorem kept_thim (x : Thim) : Kept [.thim] s { s with thim := x } := by
  refine ⟨rfl, fun p hp => ?_⟩
  cases p with
  | thim => simp at hp
  | _ => rfl

/-! ### AON_RULES (R658–R660) -/

/-- A rule table takes the place of the one in force, with its log region (R660). -/
def aonInstall (d : Desc) (s : State) (new : List Rule) : Verdict :=
  let t := s.setThim fun t => { t with
    rules := new, logRegion := if aonLog d = 0 then none else some (hIdx (aonLog d)), claims := t.claims.filter fun k => k.1 != d.ring.val }
  .done .ok new.length (new.filter fun r => r.st == .active).length d.handle t.syncLog.refreshAlarms

/-- The rules of a buffer, all CLEAR. -/
def aonClear (d : Desc) (buf : List Byte) : List Rule := (aonRules d buf).map fun raw => ⟨raw, .clear, 0⟩

/-- Rules that pass replace the table; one that is kept keeps its state (R660). -/
theorem aonRulesData_installs (hlog : aonLog d ≠ 0 → s.valid 3 (aonLog d) = true ∧ s.writerBusy (hIdx (aonLog d)) .thimble = false)
    (hok : (aonClear d buf).all Rule.ok = true) (hpins : ∀ r ∈ aonClear d buf, r.act 2 = true → nth s.pins.func (20 + r.b 12) 0 = 5#4) :
    aonRulesData d buf s = aonInstall d s ((aonClear d buf).mapIdx fun i r =>
      ((s.thim.rules[i]?).filter fun o => dBit d 0x11 0 && o.raw == r.raw).getD r) := by
  have hvalid : ¬(decide (aonLog d ≠ 0) && !s.valid 3 (aonLog d)) = true := by
    simpa using fun h => (hlog h).1
  have hfree : ¬(decide (aonLog d ≠ 0) && s.writerBusy (hIdx (aonLog d)) .thimble) = true := by
    simpa using fun h => (hlog h).2
  have hassigned : ¬((aonClear d buf).any fun r => r.act 2 && nth s.pins.func (20 + r.b 12) 0 != 5#4) = true := by
    simpa using hpins
  have hrules : ¬(!(aonClear d buf).all Rule.ok) = true := by simp [hok]
  refine (if_neg hvalid).trans ((if_neg hrules).trans ((if_neg hassigned).trans ((if_neg hfree).trans ?_)))
  refine congrArg (aonInstall d s) (congrArg (List.mapIdx · (aonClear d buf)) (funext fun i => funext fun r => ?_))
  cases s.thim.rules[i]? with
  | none => rfl
  | some o =>
    rw [Option.filter_some]
    dsimp only
    split
    · rfl
    · rfl

/-! ### The sequencer -/

/-- The sequencer's next place leaves the filters. -/
theorem advance_filters (t : Thim) (now : Nat) : (t.advance now).filters = t.filters := by
  unfold Thim.advance
  split
  · rfl
  · split
    · split
      · rfl
      · rfl
    · split
      · rfl
      · rfl

/-- A conversion that only settles enters no filter (R640). -/
theorem monSequenced_settling {code : Nat} (h : 0 < s.thim.settle) :
    ∃ t : Thim, s.monSequenced code = { s with thim := t } ∧ t.filters = s.thim.filters := by
  simp only [State.monSequenced, h, if_true]
  exact ⟨_, rfl, advance_filters _ _⟩

/-! ### The log (R656, R657) -/

/-- The pending entries go out as one record, at once when 32 wait, else 1 s after the oldest. -/
theorem logFlush_written {i : Nat} {e : ThimEntry} {es : List ThimEntry} {t : State} (hserves : s.serving = true)
    (hregion : s.thim.logRegion = some i) (hpending : s.thim.pending = e :: es) :
    let u := if 32 ≤ (e :: es).length then s else s.untilRtc (rtcOf74 e.time + unitS)
    let hdr : Hdr := { Hdr.plain 0 0x0C 1 (execThimbleLogFlush.timeOf e.time) with journal := u.sec.jNext - 1 }
    u.appendRecord i hdr (padTo 8 (pack [(4, (e :: es).length), (4, 0)] ++ (e :: es).flatMap ThimEntry.bytes)) = some t →
    execThimbleLogFlush s = .next (t.setThim fun x => { x with logPending := 0, lostBefore := 0 }) := by
  intro u hdr hroom
  -- A name for the append, so that no comparison of the two sides evaluates it.
  obtain ⟨append, happend⟩ : ∃ f, f = State.appendRecord := ⟨_, rfl⟩
  unfold execThimbleLogFlush
  rw [← happend] at hroom ⊢
  simp only [hregion, hpending, hserves, Bool.not_true, Bool.false_eq_true, if_false]
  simp only [u, hdr] at hroom
  rw [hroom]

/-- Without a host, a region or an entry nothing goes out. -/
theorem logFlush_waits (hnot : s.serving = false ∨ s.thim.logRegion = none ∨ s.thim.pending = []) : execThimbleLogFlush s = .next s := by
  obtain ⟨append, happend⟩ : ∃ f, f = State.appendRecord := ⟨_, rfl⟩
  unfold execThimbleLogFlush
  rw [← happend]
  refine congrArg Host.Outcome.next ?_
  split
  · next i e es hregion hpending =>
    have hidle : s.serving = false := by simpa [hregion, hpending] using hnot
    exact if_pos (by simp [hidle])
  · rfl

/-- Settles O55: each command passes its checks, each event by what runs and what waits. -/
theorem thimbleRuleCommands : Obligations.ThimbleRuleCommands := by
  unfold Obligations.ThimbleRuleCommands
  refine ⟨?empty, ?reads, ?rules, ?urgent, ?sequenced, ?idle, ?settles, ?trips, ?noTrip, fun _ _ => rfl, fun _ => rfl, ?flush, ?noFlush, ?hour⟩
  case empty =>
    intro d s hr a hlog hbody hnone u t
    have hvalid : ¬(decide (aonLog d ≠ 0) && !a.valid 3 (aonLog d)) = true := by simpa using fun h => (hlog h).1
    have hrules : aonClear d [] = [] := by simp [aonClear, aonRules, hnone]
    refine exec_done rfl hr ((if_neg hvalid).trans ((if_neg (by simp [hbody])).trans ((if_pos hnone).trans ?_)))
    refine (aonRulesData_installs hlog (by simp [hrules]) (by simp [hrules])).trans ?_
    rw [hrules]
    rfl
  case reads =>
    intro d s hr a hlog hbody hsome hlink c b w io
    have hvalid : ¬(decide (aonLog d ≠ 0) && !a.valid 3 (aonLog d)) = true := by simpa using fun h => (hlog h).1
    have hfree : ¬(decide (aonLog d ≠ 0) && a.writerBusy (hIdx (aonLog d)) .thimble) = true := by simpa using fun h => (hlog h).2
    have hio : b.io = a.io := by
      simp only [b]
      split
      · rfl
      · rfl
    exact exec_readBuffer (b := b) rfl hr ((if_neg hvalid).trans ((if_neg (by simp [hbody])).trans ((if_neg hsome).trans (if_neg hfree)))) hio hlink
  case rules =>
    intro d buf s rules hlog hok hpins new u t
    refine ⟨(aonRulesData_installs hlog hok hpins).trans ?_, fun hfresh => ?_⟩
    · exact congrArg (Verdict.done .ok · _ _ _) List.length_mapIdx
    · refine List.ext_getElem List.length_mapIdx fun i _ _ => ?_
      simp [new, hfresh]
  case urgent =>
    intro code i s hrun
    simp only [exec, execMonConversionDone, hrun]
  case sequenced =>
    intro code s hrun hon hscan
    have hgoes : (s.thim.seqOn && (!s.thim.scanning || !s.thim.mask.isEmpty)) = true := by
      cases h : s.thim.scanning with
      | false => simp [hon]
      | true => simp [hon, hscan h]
    simp only [exec, execMonConversionDone, hrun, hgoes, if_true]
  case idle =>
    intro code s hrun hnot
    have hstops : (s.thim.seqOn && (!s.thim.scanning || !s.thim.mask.isEmpty)) = false := by
      rcases hnot with hoff | ⟨hscan, hmask⟩
      · simp [hoff]
      · simp [hscan, hmask]
    simp only [exec, execMonConversionDone, hrun, hstops, Bool.false_eq_true, if_false]
  case settles =>
    intro code s hsettle
    obtain ⟨t, hshape, hfilters⟩ := monSequenced_settling (code := code) hsettle
    rw [hshape]
    exact ⟨kept_thim t, hfilters⟩
  case trips =>
    intro k s hon harmed u
    refine congrArg Host.Outcome.next (if_pos ?_)
    rw [hon, harmed]
    rfl
  case noTrip =>
    intro k s hnot
    refine congrArg Host.Outcome.next (if_neg ?_)
    rcases hnot with htripped | hoff
    · rw [htripped]
      simp
    · rw [hoff]
      simp
  case flush =>
    intro i e es t s hserves hregion hpending u hdr hroom
    exact logFlush_written hserves hregion hpending hroom
  case noFlush =>
    intro s hnot
    exact logFlush_waits hnot
  case hour =>
    intro s
    have hset {x y : Thim} (h : x = y) : Host.Outcome.next { s with thim := x } = (.next { s with thim := y } : Host.Outcome State Fault Refusal) :=
      congrArg (fun x : Thim => Host.Outcome.next { s with thim := x }) h
    by_cases hactive : s.pwr.st = .active
    · refine ⟨_, hset (if_pos hactive), kept_thim _, rfl, ?_, rfl, rfl⟩
      rw [if_pos hactive]
    · refine ⟨_, hset (if_neg hactive), kept_thim _, rfl, ?_, rfl, rfl⟩
      rw [if_neg hactive]
      rfl

end Sys2Proof.Machine
end

section
/-! Link loss, port reset and L1 entry of a host port (R569, R723, R724, R799), and the statement they settle. -/

namespace Sys2Proof.Machine

variable {s t u : State} {io x y : Io}

/-- An element of a mapped vector. -/
theorem nth_map_of_lt {α β : Type} {n i : Nat} {v : Vector α n} {f : α → β} {a : α} {b : β} (h : i < n) : nth (v.map f) i b = f (nth v i a) := by
  simp [nth, h]

/-- A member of a vector is one of its elements. -/
theorem mem_toList_iff_nth {α : Type} {n : Nat} {v : Vector α n} {a d : α} : a ∈ v.toList ↔ ∃ i : Fin n, nth v i.val d = a := by
  simp only [Vector.mem_toList_iff, Vector.mem_iff_getElem, nth]
  exact ⟨fun ⟨i, hi, h⟩ => ⟨⟨i, hi⟩, by rw [dif_pos hi, h]⟩, fun ⟨i, h⟩ => ⟨i.val, i.isLt, by rwa [dif_pos i.isLt] at h⟩⟩

/-! ### What the work of a port leaves of the rings -/

/-- The control path with the same command rings, the same rings enabled on the same ports, and the same links, vectors and error counts. -/
structure Io.SameRings (io x : Io) : Prop where
  cmd : x.cmd = io.cmd
  evt (n : Nat) : (nth x.evt n .reset).en = (nth io.evt n .reset).en ∧ (nth x.evt n .reset).port = (nth io.evt n .reset).port
  data (n : Nat) : (nth x.data n .reset).en = (nth io.data n .reset).en ∧ (nth x.data n .reset).port = (nth io.data n .reset).port
  ports (p : Nat) : (nth x.ports p .reset).msix = (nth io.ports p .reset).msix ∧ (nth x.ports p .reset).linkUp = (nth io.ports p .reset).linkUp ∧
    (nth x.ports p .reset).cplErr = (nth io.ports p .reset).cplErr

theorem Io.SameRings.refl (io : Io) : io.SameRings io := ⟨rfl, fun _ => ⟨rfl, rfl⟩, fun _ => ⟨rfl, rfl⟩, fun _ => ⟨rfl, rfl, rfl⟩⟩

theorem Io.SameRings.trans (h : io.SameRings x) (h' : x.SameRings y) : io.SameRings y where
  cmd := h'.cmd.trans h.cmd
  evt n := ⟨(h'.evt n).1.trans (h.evt n).1, (h'.evt n).2.trans (h.evt n).2⟩
  data n := ⟨(h'.data n).1.trans (h.data n).1, (h'.data n).2.trans (h.data n).2⟩
  ports p :=
    have ⟨hmsix, hlink, herr⟩ := h.ports p
    have ⟨hmsix', hlink', herr'⟩ := h'.ports p
    ⟨hmsix'.trans hmsix, hlink'.trans hlink, herr'.trans herr⟩

theorem Io.sameRings_emit (e : Emission) : io.SameRings (io.emit e) :=
  ⟨rfl, fun _ => ⟨rfl, rfl⟩, fun _ => ⟨rfl, rfl⟩, fun _ => ⟨rfl, rfl, rfl⟩⟩

theorem Io.sameRings_port (p : Nat) {f : HostPort → HostPort} (hmsix : ∀ z, (f z).msix = z.msix) (hlink : ∀ z, (f z).linkUp = z.linkUp)
    (herr : ∀ z, (f z).cplErr = z.cplErr) : io.SameRings { io with ports := upd io.ports p f } where
  cmd := rfl
  evt _ := ⟨rfl, rfl⟩
  data _ := ⟨rfl, rfl⟩
  ports _ := ⟨nth_upd_field _ hmsix, nth_upd_field _ hlink, nth_upd_field _ herr⟩

theorem Io.sameRings_evt (n : Nat) {f : EvtRing → EvtRing} (hen : ∀ z, (f z).en = z.en) (hport : ∀ z, (f z).port = z.port) :
    io.SameRings { io with evt := upd io.evt n f } where
  cmd := rfl
  evt _ := ⟨nth_upd_field _ hen, nth_upd_field _ hport⟩
  data _ := ⟨rfl, rfl⟩
  ports _ := ⟨rfl, rfl, rfl⟩

theorem Io.sameRings_data (n : Nat) {f : DataRing → DataRing} (hen : ∀ z, (f z).en = z.en) (hport : ∀ z, (f z).port = z.port) :
    io.SameRings { io with data := upd io.data n f } where
  cmd := rfl
  evt _ := ⟨rfl, rfl⟩
  data _ := ⟨nth_upd_field _ hen, nth_upd_field _ hport⟩
  ports _ := ⟨rfl, rfl, rfl⟩

theorem Io.sameRings_leaveL1 (p : Nat) : io.SameRings (io.leaveL1 p) := Io.sameRings_port p (fun _ => rfl) (fun _ => rfl) fun _ => rfl

theorem Io.sameRings_write (p a : Nat) (bs : List Byte) (r : Bool) : io.SameRings (io.write p a bs r) := by
  unfold Io.write
  dsimp only
  split
  · exact (Io.sameRings_leaveL1 p).trans (Io.sameRings_emit _)
  · exact Io.sameRings_port p (fun _ => rfl) (fun _ => rfl) fun _ => rfl

theorem Io.sameRings_signal (n : Nat) : io.SameRings (io.signal n) := by
  have hcount : io.SameRings { io with evt := upd io.evt n fun r => { r with unsig := 0 } } := Io.sameRings_evt n (fun _ => rfl) fun _ => rfl
  unfold Io.signal
  dsimp only
  split
  · exact hcount.trans (Io.sameRings_port _ (fun _ => rfl) (fun _ => rfl) fun _ => rfl)
  · refine hcount.trans ?_
    unfold Io.message
    dsimp only
    split
    · exact Io.sameRings_port _ (fun _ => rfl) (fun _ => rfl) fun _ => rfl
    · exact Io.sameRings_emit _

theorem Io.sameRings_sendRecord (n : Nat) (e : EvtRecord) : io.SameRings (io.sendRecord n e) := by
  have seam (z : Io) (h : io.SameRings z) (f : Emission) : io.SameRings (if z.mirrors then z.emit f else z) := by
    split
    · exact h.trans (Io.sameRings_emit f)
    · exact h
  exact seam _ ((seam _ (Io.sameRings_leaveL1 _) _).trans (Io.sameRings_emit _)) _

theorem Io.sameRings_evtWrite (n : Nat) (e : EvtRecord) : io.SameRings (io.evtWrite n e) := by
  have hput : io.SameRings { io.sendRecord n e with evt := upd io.evt n fun r => r.put e } := by
    obtain ⟨ps, out, hsend⟩ := Io.sendRecord_shape (io := io) n e
    have hevt : io.evt = (io.sendRecord n e).evt := by rw [hsend]
    rw [hevt]
    exact (Io.sameRings_sendRecord n e).trans (Io.sameRings_evt n (fun _ => rfl) fun _ => rfl)
  rw [Io.evtWrite_eq]
  dsimp only
  split
  · exact hput.trans (Io.sameRings_signal n)
  · exact hput

theorem Io.sameRings_evtPost (n : Nat) (e : EvtRecord) : io.SameRings (io.evtPost n e) := by
  unfold Io.evtPost
  dsimp only
  split
  · exact Io.sameRings_evtWrite n e
  · split
    · exact Io.sameRings_evt n (fun _ => rfl) fun _ => rfl
    · exact Io.sameRings_evt n (fun _ => rfl) fun _ => rfl

theorem Io.sameRings_evtAfter (p n : Nat) (e : EvtRecord) : io.SameRings (io.evtAfter p n e) := by
  unfold Io.evtAfter
  dsimp only
  split
  · exact Io.sameRings_evtPost n e
  · exact Io.sameRings_port p (fun _ => rfl) (fun _ => rfl) fun _ => rfl

/-- Events that waited for a port and are written through the other one (R723). -/
theorem Io.sameRings_eventOnly (l : List Waiting) : io.SameRings (l.foldl Io.eventOnly io) := by
  induction l generalizing io with
  | nil => exact Io.SameRings.refl io
  | cons w l ih =>
    cases w with
    | write e => exact ih
    | event n e => exact (Io.sameRings_evtPost n.val e).trans ih

/-! ### Sinks that halt -/

/-- The parts that a halting sink works on. -/
def haltPath : List Part := [.io, .sinks, .dma, .regions, .sec]

theorem kept_haltPath (a : Io) (b : Vector Sink 128) (c : Vector Dma 64) (d : Vector Region 256) (e : Sec) :
    Kept haltPath s { s with io := a, sinks := b, dma := c, regions := d, sec := e } := by
  refine ⟨rfl, fun p hp => ?_⟩
  cases p with
  | io => simp [haltPath] at hp
  | sinks => simp [haltPath] at hp
  | dma => simp [haltPath] at hp
  | regions => simp [haltPath] at hp
  | sec => simp [haltPath] at hp
  | _ => rfl

/-- What a halting sink leaves: the rings and the links, and every part outside its path. -/
structure SinkFrame (s t : State) : Prop where
  rings : s.io.SameRings t.io
  kept : Kept haltPath s t

theorem SinkFrame.refl (s : State) : SinkFrame s s := ⟨Io.SameRings.refl _, Kept.refl _ _⟩

theorem SinkFrame.trans (h : SinkFrame s t) (h' : SinkFrame t u) : SinkFrame s u := ⟨h.rings.trans h'.rings, h.kept.trans h'.kept⟩

theorem sinkFrame_io {x : Io} (h : s.io.SameRings x) : SinkFrame s { s with io := x } := ⟨h, kept_haltPath x s.sinks s.dma s.regions s.sec⟩

theorem sinkFrame_state (b : Vector Sink 128) (c : Vector Dma 64) (d : Vector Region 256) (e : Sec) :
    SinkFrame s { s with sinks := b, dma := c, regions := d, sec := e } := ⟨Io.SameRings.refl _, kept_haltPath s.io b c d e⟩

theorem sinkFrame_emit (e : Emission) : SinkFrame s (s.emit e) := sinkFrame_io (Io.sameRings_emit e)

/-- A sink without its record: the checkpoints that fell due are cut. -/
theorem sinkFrame_dropCur (k : Nat) : SinkFrame s (s.dropCur k) := by
  have cuts (q : Nat) (l : List (Nat × Option (Fin 16))) (t : State) : SinkFrame t (l.foldl (fun s (kind, ring) => s.cut q kind ring) t) := by
    induction l generalizing t with
    | nil => exact SinkFrame.refl t
    | cons c l ih => exact (sinkFrame_state t.sinks t.dma t.regions _).trans (ih _)
  unfold State.dropCur
  dsimp only
  have hcur : SinkFrame s (s.setSink k fun x => { x with cur := none }) := sinkFrame_state _ s.dma s.regions s.sec
  split
  · exact hcur.trans ((cuts _ _ _).trans (sinkFrame_state _ _ _ _))
  · exact hcur

theorem sinkFrame_deliver (k : Nat) (seqs : List Nat) : SinkFrame s (s.deliver k seqs) := by
  unfold State.deliver State.pace
  dsimp only
  split
  · split
    · exact (sinkFrame_state s.sinks _ _ s.sec).trans ((sinkFrame_emit _).trans (sinkFrame_state _ _ _ _))
    · exact sinkFrame_state _ _ _ s.sec
  · exact sinkFrame_state _ _ _ s.sec

theorem sinkFrame_writeBack (k : Nat) (b : OpenBuf) (confirmed : Bool) : SinkFrame s (s.writeBack k b confirmed) := by
  have seam (z : State) (h : SinkFrame s z) (f : Emission) : SinkFrame s (if z.pair.role = .primary then z.emit f else z) := by
    split
    · exact h.trans (sinkFrame_emit f)
    · exact h
  have deliver (z : State) (h : SinkFrame s z) (l : List Nat) : SinkFrame s (if b.code = 0 || b.code = 3 then z.deliver k l else z) := by
    split
    · exact h.trans (sinkFrame_deliver k l)
    · exact h
  refine deliver _ (seam _ (sinkFrame_io ?_) _) _
  exact ((Io.sameRings_write ..).trans (Io.sameRings_write ..)).trans
    (Io.sameRings_data (s.sink k).par.ring (f := fun r => { r with cons := b.buf.count + 1 }) (fun _ => rfl) fun _ => rfl)

theorem sinkFrame_note (e : Ev) (h : Handle) (l : List (Nat × Nat)) : SinkFrame s (s.note e h l) := by
  unfold State.note State.event State.raise
  split
  · exact sinkFrame_io (Io.sameRings_evtPost ..)
  · exact SinkFrame.refl s

theorem sinkFrame_noteAfter (p : Nat) (e : Ev) (h : Handle) (l : List (Nat × Nat)) : SinkFrame s (s.noteAfter p e h l) := by
  unfold State.noteAfter State.raiseAfter
  split
  · exact sinkFrame_io (Io.sameRings_evtAfter ..)
  · exact SinkFrame.refl s

theorem sinkFrame_haltSink (k cause code seq : Nat) (info : Option Nat) : SinkFrame s (s.haltSink k cause code seq info) := by
  unfold State.haltSink
  extract_lets x b count halted dropped caused written data
  have hcaused : SinkFrame s caused :=
    ((sinkFrame_state _ s.dma s.regions s.sec).trans (sinkFrame_dropCur k)).trans (sinkFrame_state dropped.sinks _ dropped.regions dropped.sec)
  have hwritten : SinkFrame s written := by
    clear_value caused dropped halted count b
    cases b with
    | some b => exact hcaused.trans (sinkFrame_writeBack ..)
    | none => exact hcaused
  clear_value written
  split
  · exact hwritten.trans (sinkFrame_noteAfter ..)
  · exact hwritten.trans (sinkFrame_note ..)

/-- The sinks of a port that halt leave the rings and every engine. -/
theorem sinkFrame_haltPort (p : Nat) : SinkFrame s (s.haltPort p) := by
  have step (z : State) (h : SinkFrame s z) (c : Bool) (k seq : Nat) : SinkFrame s (if c then z.haltSink k 5 2 seq none else z) := by
    split
    · exact h.trans (sinkFrame_haltSink ..)
    · exact h
  unfold State.haltPort
  exact List.foldlRecOn (motive := SinkFrame s) _ _ (SinkFrame.refl s) fun t ht k _ => step t ht _ k _

/-! ### A port that is reset (R723) -/

/-- The command rings of a port are disabled, one after the other. -/
def State.dropRings (s : State) (port : Fin 2) (l : List Nat) : State :=
  l.foldl (fun s n =>
    let c := s.cmdRing n
    if c.en && c.port = port then ({ s with io := s.io.dropFence n }).setCmd n CmdRing.disable else s) s

/-- What disabling a port's command rings leaves: each ring's port, the rings of the other port, everything that is no command ring. -/
structure RingsDropped (port : Fin 2) (l : List Nat) (s t : State) : Prop where
  off (n : Nat) : n < 16 → n ∈ l → (t.cmdRing n).en = true → (t.cmdRing n).port ≠ port
  samePort (n : Nat) : (t.cmdRing n).port = (s.cmdRing n).port
  still (n : Nat) : (t.cmdRing n).en = true → (s.cmdRing n).en = true
  other (n : Nat) : (s.cmdRing n).port ≠ port → (t.cmdRing n).en = (s.cmdRing n).en
  evt : t.io.evt = s.io.evt
  data : t.io.data = s.io.data
  ports : t.io.ports = s.io.ports
  kept : Kept [.io] s t

/-- One ring of the port is disabled. -/
theorem dropRing_drops {port : Fin 2} (n : Nat) : RingsDropped port [n] s (s.dropRings port [n]) := by
  unfold State.dropRings
  simp only [List.foldl_cons, List.foldl_nil]
  split
  · next hdrop =>
    simp only [Bool.and_eq_true, decide_eq_true_eq] at hdrop
    have hsame (m : Nat) : ((({ s with io := s.io.dropFence n }).setCmd n CmdRing.disable).cmdRing m).port = (s.cmdRing m).port :=
      nth_upd_field (CmdRing.port) fun _ => rfl
    have hnot (m : Nat) (h : n ≠ m) : (({ s with io := s.io.dropFence n }).setCmd n CmdRing.disable).cmdRing m = s.cmdRing m := nth_upd_ne h
    have hoff (hn : n < 16) : (({ s with io := s.io.dropFence n }).setCmd n CmdRing.disable).cmdRing n = (s.cmdRing n).disable := nth_upd_same hn
    refine ⟨fun m hm hmem hen => ?_, hsame, fun m hen => ?_, fun m hm => ?_, rfl, rfl, rfl, kept_io _⟩
    · obtain rfl := List.mem_singleton.1 hmem
      rw [hoff hm] at hen
      exact absurd hen Bool.false_ne_true
    · by_cases hm : n = m
      · exact hm ▸ hdrop.1
      · rwa [hnot m hm] at hen
    · rw [hnot m fun hnm => hm (hnm ▸ hdrop.2)]
  · next hstays =>
    refine ⟨fun m _ hmem hen hport => hstays ?_, fun _ => rfl, fun _ h => h, fun _ _ => rfl, rfl, rfl, rfl, Kept.refl _ _⟩
    obtain rfl := List.mem_singleton.1 hmem
    simp [hen, hport]

theorem dropRings_drops {port : Fin 2} (l : List Nat) : RingsDropped port l s (s.dropRings port l) := by
  induction l generalizing s with
  | nil => exact ⟨fun _ _ h => absurd h List.not_mem_nil, fun _ => rfl, fun _ h => h, fun _ _ => rfl, rfl, rfl, rfl, Kept.refl _ _⟩
  | cons n l ih =>
    have hone := dropRing_drops (s := s) (port := port) n
    have hrest := ih (s := s.dropRings port [n])
    have hcons : s.dropRings port (n :: l) = (s.dropRings port [n]).dropRings port l := rfl
    rw [hcons]
    exact {
      off m hm hmem hen := (List.mem_cons.1 hmem).elim
        (fun h => hrest.samePort m ▸ hone.off m hm (List.mem_singleton.2 h) (hrest.still m hen)) fun h => hrest.off m hm h hen
      samePort m := (hrest.samePort m).trans (hone.samePort m)
      still m hen := hone.still m (hrest.still m hen)
      other m hm := (hrest.other m (hone.samePort m ▸ hm)).trans (hone.other m hm)
      evt := hrest.evt.trans hone.evt
      data := hrest.data.trans hone.data
      ports := hrest.ports.trans hone.ports
      kept := hone.kept.trans hrest.kept }

/-- The event and data rings of a port are disabled, its completions have nowhere to go, and the port is as it resets but for its error count. -/
def Io.portOff (io : Io) (port : Fin 2) : Io :=
  { io with
    cmd := io.cmd.map fun c : CmdRing =>
      { c with inflight := c.inflight.map fun f : Inflight => if f.port = port then { f with back := false } else f }
    evt := io.evt.map fun r : EvtRing => if r.en && r.port = port then { r with en := false, unsig := 0 } else r
    data := io.data.map fun r : DataRing => if r.en && r.port = port then { r with en := false, posted := [], reads := [] } else r
    ports := upd io.ports port.val fun p => { HostPort.reset with cplErr := p.cplErr, perst := p.perst } }

theorem portOff_evt {port : Fin 2} (n : Fin 16) : let r := nth io.evt n.val .reset
    nth (io.portOff port).evt n.val .reset = if r.en && r.port = port then { r with en := false, unsig := 0 } else r :=
  nth_map_of_lt n.isLt

theorem portOff_data {port : Fin 2} (n : Fin 128) : let r := nth io.data n.val .reset
    nth (io.portOff port).data n.val .reset = if r.en && r.port = port then { r with en := false, posted := [], reads := [] } else r :=
  nth_map_of_lt n.isLt

/-- The state after PORT_RESET: the port's sinks halt, its rings are disabled, the events of the other port's rings are written. -/
def State.portGone (s : State) (port : Fin 2) : State :=
  let s := (s.linkLost port.val).haltPort port.val
  let events := (s.hostPort port.val).waiting
  let s := s.dropRings port (List.range 16)
  let s := { s with io := s.io.portOff port }
  { s with io := events.foldl Io.eventOnly s.io }

theorem portReset_eq {port : Fin 2} : execPortReset port s = .next (if !s.hasPort port.val then s else s.portGone port) := by
  unfold execPortReset State.portGone State.dropRings Io.portOff
  rfl

/-- A port's command ring asks again, after link loss, for what is not answered (R799). -/
theorem linkLost_cmdRing (p : Nat) (n : Fin 16) : (s.linkLost p).cmdRing n.val =
    if (s.cmdRing n.val).port.val = p then { s.cmdRing n.val with reads := [], asked := (s.cmdRing n.val).fetched } else s.cmdRing n.val :=
  nth_map_of_lt n.isLt

/-- A port's data ring asks again, after link loss, for what is not answered (R799). -/
theorem linkLost_dring (p : Nat) (n : Fin 128) : (s.linkLost p).dring n.val =
    if (s.dring n.val).port.val = p then { s.dring n.val with reads := [], asked := (s.dring n.val).fetched } else s.dring n.val :=
  nth_map_of_lt n.isLt

theorem linkLost_hostPort (p : Fin 2) : (s.linkLost p.val).hostPort p.val =
    { s.hostPort p.val with linkUp := false, l1 := false, speed := 0, width := 0 } := nth_upd_same p.isLt

/-- Link loss leaves which command rings are enabled, on which port. -/
theorem linkLost_cmd (p : Nat) (n : Fin 16) : ((s.linkLost p).cmdRing n.val).en = (s.cmdRing n.val).en ∧
    ((s.linkLost p).cmdRing n.val).port = (s.cmdRing n.val).port := by
  rw [linkLost_cmdRing]
  split
  · exact ⟨rfl, rfl⟩
  · exact ⟨rfl, rfl⟩

/-- Link loss leaves which data rings are enabled, on which port. -/
theorem linkLost_data (p : Nat) (n : Fin 128) : ((s.linkLost p).dring n.val).en = (s.dring n.val).en ∧
    ((s.linkLost p).dring n.val).port = (s.dring n.val).port := by
  rw [linkLost_dring]
  split
  · exact ⟨rfl, rfl⟩
  · exact ⟨rfl, rfl⟩

section
variable (s) (port : Fin 2)

/-- A port reset in three stages: the sinks halt, the command rings are disabled, and the rest is as it resets but for the events that the other
port's rings take. -/
theorem portGone_stages : ∃ u v, SinkFrame (s.linkLost port.val) u ∧ RingsDropped port (List.range 16) u v ∧
    (v.io.portOff port).SameRings (s.portGone port).io ∧ Kept [.io] v (s.portGone port) := by
  unfold State.portGone
  exact ⟨_, _, sinkFrame_haltPort _, dropRings_drops _, Io.sameRings_eventOnly _, (kept_io _).trans (kept_io _)⟩

/-- A reset port has no command ring; the other port's stay as they are (R723). -/
theorem portGone_cmd (n : Fin 16) : ((s.portGone port).cmdRing n.val).port = (s.cmdRing n.val).port ∧
    (((s.portGone port).cmdRing n.val).en = true → (s.cmdRing n.val).port ≠ port) ∧
    ((s.cmdRing n.val).port ≠ port → ((s.portGone port).cmdRing n.val).en = (s.cmdRing n.val).en) := by
  obtain ⟨u, v, hhalt, hdrop, hrings, -⟩ := portGone_stages s port
  have hcmd : (s.portGone port).cmdRing n.val = nth (v.io.portOff port).cmd n.val .reset :=
    congrArg (nth · n.val CmdRing.reset) hrings.cmd
  have hoff : nth (v.io.portOff port).cmd n.val .reset = { v.cmdRing n.val with
      inflight := (v.cmdRing n.val).inflight.map fun f : Inflight => if f.port = port then { f with back := false } else f } :=
    nth_map_of_lt n.isLt
  have hu : u.cmdRing n.val = (s.linkLost port.val).cmdRing n.val := congrArg (nth · n.val CmdRing.reset) hhalt.rings.cmd
  obtain ⟨hen, hport⟩ := linkLost_cmd (s := s) port.val n
  have hsame : (v.cmdRing n.val).port = (s.cmdRing n.val).port := by rw [hdrop.samePort, hu, hport]
  rw [hcmd, hoff]
  refine ⟨hsame, fun hon => hsame ▸ hdrop.off n.val n.isLt (List.mem_range.2 n.isLt) hon, fun hother => ?_⟩
  exact (hdrop.other n.val (by rwa [hu, hport])).trans (by rw [hu, hen])

/-- A reset port has no event ring; the other port's stay as they are (R723). -/
theorem portGone_evt (n : Fin 16) : (nth (s.portGone port).io.evt n.val .reset).port = (nth s.io.evt n.val .reset).port ∧
    ((nth (s.portGone port).io.evt n.val .reset).en = true → (nth s.io.evt n.val .reset).port ≠ port) ∧
    ((nth s.io.evt n.val .reset).port ≠ port → (nth (s.portGone port).io.evt n.val .reset).en = (nth s.io.evt n.val .reset).en) := by
  obtain ⟨u, v, hhalt, hdrop, hrings, -⟩ := portGone_stages s port
  obtain ⟨hen, hport⟩ := hrings.evt n.val
  obtain ⟨huen, huport⟩ := hhalt.rings.evt n.val
  rw [portOff_evt, hdrop.evt] at hen hport
  rw [hen, hport]
  split
  · next hdropped =>
    simp only [Bool.and_eq_true, decide_eq_true_eq] at hdropped
    exact ⟨huport, fun h => absurd h Bool.false_ne_true, fun hother => absurd (huport.symm.trans hdropped.2) hother⟩
  · next hstays =>
    refine ⟨huport, fun hon hmine => hstays ?_, fun _ => huen⟩
    exact Bool.and_eq_true_iff.2 ⟨hon, decide_eq_true (huport.trans hmine)⟩

/-- A reset port has no data ring; the other port's stay as they are (R723). -/
theorem portGone_data (n : Fin 128) : ((s.portGone port).dring n.val).port = (s.dring n.val).port ∧
    (((s.portGone port).dring n.val).en = true → (s.dring n.val).port ≠ port) ∧
    ((s.dring n.val).port ≠ port → ((s.portGone port).dring n.val).en = (s.dring n.val).en) := by
  obtain ⟨u, v, hhalt, hdrop, hrings, -⟩ := portGone_stages s port
  obtain ⟨hen, hport⟩ := hrings.data n.val
  obtain ⟨huen, huport⟩ := hhalt.rings.data n.val
  obtain ⟨hlen, hlport⟩ := linkLost_data (s := s) port.val n
  rw [portOff_data, hdrop.data] at hen hport
  rw [State.dring, hen, hport]
  have hsame := huport.trans hlport
  split
  · next hdropped =>
    simp only [Bool.and_eq_true, decide_eq_true_eq] at hdropped
    exact ⟨hsame, fun h => absurd h Bool.false_ne_true, fun hother => absurd (hsame.symm.trans hdropped.2) hother⟩
  · next hstays =>
    refine ⟨hsame, fun hon hmine => hstays ?_, fun _ => huen.trans hlen⟩
    exact Bool.and_eq_true_iff.2 ⟨hon, decide_eq_true (hsame.trans hmine)⟩

/-- The port itself after its reset: masked vectors, no link, its error count (R723). -/
theorem portGone_port : ((s.portGone port).hostPort port.val).msix = HostPort.reset.msix ∧
    ((s.portGone port).hostPort port.val).linkUp = false ∧ ((s.portGone port).hostPort port.val).cplErr = (s.hostPort port.val).cplErr := by
  obtain ⟨u, v, hhalt, hdrop, hrings, -⟩ := portGone_stages s port
  obtain ⟨hmsix, hlink, herr⟩ := hrings.ports port.val
  have hoff : nth (v.io.portOff port).ports port.val .reset =
      { HostPort.reset with cplErr := (v.hostPort port.val).cplErr, perst := (v.hostPort port.val).perst } := nth_upd_same port.isLt
  have hv : v.hostPort port.val = u.hostPort port.val :=
    congrArg (nth · port.val HostPort.reset) hdrop.ports
  obtain ⟨-, -, huerr⟩ := hhalt.rings.ports port.val
  have hkept : (u.hostPort port.val).cplErr = (s.hostPort port.val).cplErr := huerr.trans (congrArg HostPort.cplErr (linkLost_hostPort port) :)
  rw [hoff] at hmsix hlink herr
  exact ⟨hmsix, hlink, herr.trans ((congrArg HostPort.cplErr hv).trans hkept)⟩

/-- A port reset works on the control path and the port's sinks (R723). -/
theorem kept_portGone : Kept haltPath s (s.portGone port) := by
  have hio {t u : State} (h : Kept [.io] t u) : Kept haltPath t u := h.mono (by decide)
  obtain ⟨u, v, hhalt, hdrop, -, hkept⟩ := portGone_stages s port
  exact ((hio (kept_io _)).trans hhalt.kept).trans ((hio hdrop.kept).trans (hio hkept))

end

/-- Settles O17: what each event does, and that a port reset reaches the port alone. -/
theorem portRows : Obligations.PortRows := by
  unfold Obligations.PortRows
  refine ⟨?down, ?lost, ?reset, ?asks⟩
  case down =>
    intro p s hup
    exact congrArg Host.Outcome.next (if_neg (by simp [hup]))
  case lost =>
    intro p s
    refine ⟨by rw [linkLost_hostPort], by rw [linkLost_hostPort], fun n => ?_, fun n => ?_, kept_io _⟩
    · rw [linkLost_cmdRing]
      simp only [← Fin.ext_iff]
      split
      · exact ⟨rfl, rfl⟩
      · exact ⟨rfl, rfl⟩
    · rw [linkLost_dring]
      simp only [← Fin.ext_iff]
      split
      · rfl
      · rfl
  case reset =>
    intro p s hport
    refine ⟨s.portGone p, portReset_eq.trans (congrArg Host.Outcome.next (if_neg (by simp [hport]))), ?_⟩
    obtain ⟨hmsix, hlink, herr⟩ := portGone_port s p
    obtain ⟨-, hkept⟩ := kept_portGone s p
    refine ⟨fun n hen => ?_, fun n hen => ?_, fun n hen => ?_, fun n => (portGone_cmd s p n).2.2, fun n => (portGone_evt s p n).2.2,
      fun n => (portGone_data s p n).2.2, hmsix, hlink, herr, hkept .chans (by decide), hkept .acqs (by decide), hkept .mps (by decide),
      hkept .hbm (by decide)⟩
    · obtain ⟨hsame, hoff, -⟩ := portGone_cmd s p n
      exact fun h => hoff hen (hsame.symm.trans h)
    · obtain ⟨hsame, hoff, -⟩ := portGone_evt s p n
      exact fun h => hoff hen (hsame.symm.trans h)
    · obtain ⟨hsame, hoff, -⟩ := portGone_data s p n
      exact fun h => hoff hen (hsame.symm.trans h)
  case asks =>
    intro p s hup hl1 hsinks hrings hevts
    have hsink : ((List.range 128).any fun k => (s.sink k).bound && (if (s.sink k).storage then
        (s.sink k).queues.any fun q => (s.queue q).u 0x35 1 == p.val else s.sinkPort k == p.val) && (s.nextRec k).isSome) = false := by
      rw [List.any_eq_false]
      intro k hk
      rw [hsinks ⟨k, List.mem_range.1 hk⟩]
      exact Bool.false_ne_true
    have hcmd : (s.io.cmd.toList.any fun c => c.port == p && (!c.backlog.isEmpty || c.inflight.isSome)) = false := by
      rw [List.any_eq_false]
      intro c hc
      obtain ⟨n, rfl⟩ := (mem_toList_iff_nth (d := .reset)).1 hc
      have hidle := hrings n
      rw [State.cmdRing] at hidle
      simp only [Bool.and_eq_true, beq_iff_eq, not_and]
      intro hport
      obtain ⟨hbacklog, hflight⟩ := hidle hport
      simp [hbacklog, hflight]
    have hevt : (s.io.evt.toList.any fun r => r.port == p && r.en && !r.held.isEmpty) = false := by
      rw [List.any_eq_false]
      intro r hr
      obtain ⟨n, rfl⟩ := (mem_toList_iff_nth (d := .reset)).1 hr
      simp only [Bool.and_eq_true, beq_iff_eq, not_and, and_imp]
      intro hport hen
      simp [hevts n hport hen]
    refine congrArg Host.Outcome.next (if_pos ?_)
    rw [hup, hl1, hsink, hcmd, hevt]
    rfl

end Sys2Proof.Machine
end
